-- ==== Sys2Proof/Word.lean ====
section
/-! DEFINITION. The word types of the machine: bit vectors of the widths the spec uses (00_scope.md R2)
and the capability as 128 bits with a hidden tag (04_access_instructions.md R108). -/
namespace Sys2Proof

/-- A 32-bit slot word, lane or gauge. -/
abbrev W32 := BitVec 32
/-- A 64-bit register value, address or queue entry. -/
abbrev W64 := BitVec 64
/-- One byte. -/
abbrev Byte := BitVec 8
/-- A byte string, first byte first. -/
abbrev Bytes := List Byte
/-- A context number (13_die_scheduling.md R329, R337: four bits). -/
abbrev Ctx := BitVec 4

/-- A capability: 128 bits and the hidden tag (R108). -/
structure Cap where
  tag : Bool
  bits : BitVec 128
  deriving DecidableEq, Repr

end Sys2Proof
end

