-- ==== Sys2Proof/Machine/Float.lean ====
section
/-! DEFINITION. Number formats and arithmetic (02_number_formats.md). A floating value is exact: a NaN, an infinity, or
sign, magnitude `m` and exponent `e` with value (-1)^neg m 2^e. Operations compute exactly and round once. -/
namespace Sys2Proof.Machine

/-- Flags an operation raises: invalid and overflow (R55, R60 to R62). -/
structure Fl where
  nv : Bool := false
  ov : Bool := false
  deriving DecidableEq, Repr

/-- Both sets of flags. -/
def Fl.or (a b : Fl) : Fl := ⟨a.nv || b.nv, a.ov || b.ov⟩

/-- An exact value (R48). -/
inductive Fv where
  | nan
  | inf (neg : Bool)
  | fin (neg : Bool) (m : Nat) (e : Int)
  deriving DecidableEq, Repr

/-- What a format's largest exponent field holds (R47): infinity and NaN, one NaN, or ordinary numbers. -/
inductive Top where
  | ieee | oneNan | finite
  deriving DecidableEq, Repr

/-- A floating format: exponent and mantissa widths, bias, and its top exponent (R47). `sh` is the place of its lowest
bit in the container (13 for FP19, R49). -/
structure Fmt where
  eb : Nat
  mb : Nat
  bias : Int
  top : Top
  sh : Nat := 0
  deriving DecidableEq, Repr

def f32 : Fmt := ⟨8, 23, 127, .ieee, 0⟩
def f19 : Fmt := ⟨8, 10, 127, .ieee, 13⟩
def bf16 : Fmt := ⟨8, 7, 127, .ieee, 0⟩
def f16 : Fmt := ⟨5, 10, 15, .ieee, 0⟩
def e4m3 : Fmt := ⟨4, 3, 7, .oneNan, 0⟩
def e5m2 : Fmt := ⟨5, 2, 15, .ieee, 0⟩
def e3m2 : Fmt := ⟨3, 2, 3, .finite, 0⟩
def e2m3 : Fmt := ⟨2, 3, 1, .finite, 0⟩
def e2m1 : Fmt := ⟨2, 1, 1, .finite, 0⟩

/-- Rounding modes of R56; `rsr` carries the draw of R58. -/
inductive Rm where
  | rne | rtz | rup | rdn
  | rsr (w : W32)
  deriving DecidableEq, Repr

/-- The mode of a rounding code; codes 5 to 7 are refused before this is asked. -/
def rmOf (code : Nat) (w : W32) : Rm :=
  match code with
  | 0 => .rne
  | 1 => .rtz
  | 2 => .rup
  | 3 => .rdn
  | _ => .rsr w

/-- `m 2^k`, dropping bits below 2^0 when `k` is negative. -/
def scale (m : Nat) (k : Int) : Nat := if 0 ≤ k then m * 2 ^ k.toNat else m / 2 ^ (-k).toNat

/-- Width of the encoded element. -/
def Fmt.width (f : Fmt) : Nat := 1 + f.eb + f.mb

/-- Smallest exponent of a normal number. -/
def Fmt.emin (f : Fmt) : Int := 1 - f.bias

/-- Largest finite value, as magnitude and exponent (R47). -/
def Fmt.maxFin (f : Fmt) : Nat × Int :=
  match f.top with
  | .ieee => (2 ^ (f.mb + 1) - 1, (2 ^ f.eb - 2 : Int) - f.bias - f.mb)
  | .oneNan => (2 ^ (f.mb + 1) - 2, (2 ^ f.eb - 1 : Int) - f.bias - f.mb)
  | .finite => (2 ^ (f.mb + 1) - 1, (2 ^ f.eb - 1 : Int) - f.bias - f.mb)

/-- `m 2^e < m' 2^e'`. -/
def magLt (m : Nat) (e : Int) (m' : Nat) (e' : Int) : Bool :=
  let k := min e e'
  decide (m * 2 ^ (e - k).toNat < m' * 2 ^ (e' - k).toNat)

/-- The value of an encoding (R47, R48, R49). -/
def decodeF (f : Fmt) (x : Nat) : Fv :=
  let x := x / 2 ^ f.sh
  let neg := x / 2 ^ (f.eb + f.mb) % 2 == 1
  let ex := x / 2 ^ f.mb % 2 ^ f.eb
  let ma := x % 2 ^ f.mb
  let num : Fv := if ex = 0 then .fin neg ma (f.emin - f.mb) else .fin neg (2 ^ f.mb + ma) ((ex : Int) - f.bias - f.mb)
  if ex = 2 ^ f.eb - 1 then
    match f.top with
    | .ieee => if ma = 0 then .inf neg else .nan
    | .oneNan => if ma = 2 ^ f.mb - 1 then .nan else num
    | .finite => num
  else num

/-- The canonical NaN (R47); +0 where the format has none. -/
def Fmt.qnan (f : Fmt) : Nat :=
  match f.top with
  | .ieee => ((2 ^ f.eb - 1) * 2 ^ f.mb + 2 ^ (f.mb - 1)) * 2 ^ f.sh
  | .oneNan => 2 ^ (f.eb + f.mb) - 1
  | .finite => 0

/-- The sign bit of a format. -/
def Fmt.sign (f : Fmt) (neg : Bool) : Nat := if neg then 2 ^ (f.eb + f.mb) else 0

/-- The encoding of a representable finite value. -/
def encodeFin (f : Fmt) (neg : Bool) (m : Nat) (e : Int) : Nat :=
  if m = 0 then f.sign neg * 2 ^ f.sh
  else
    let top : Int := e + (Nat.log2 m : Int)
    let body :=
      if top < f.emin then scale m (e - (f.emin - f.mb))
      else (top + f.bias).toNat * 2 ^ f.mb + (scale m (e - (top - (f.mb : Int))) - 2 ^ f.mb)
    (f.sign neg + body) * 2 ^ f.sh

/-- The encoding of an infinity; the largest finite magnitude where the format has none. -/
def Fmt.infBits (f : Fmt) (neg : Bool) : Nat :=
  match f.top with
  | .ieee => (f.sign neg + (2 ^ f.eb - 1) * 2 ^ f.mb) * 2 ^ f.sh
  | _ => encodeFin f neg f.maxFin.1 f.maxFin.2

/-- Whether a magnitude between two neighbours moves up: `lo` is the lower one in units of the quantum, `r / d` the
fraction above it, `st` says that the exact value lies a little higher still (R57, R58). -/
def roundsUp (md : Rm) (neg : Bool) (lo r d : Nat) (st : Bool) : Bool :=
  match md with
  | .rne => decide (2 * r > d) || (decide (2 * r = d) && (st || lo % 2 == 1))
  | .rtz => false
  | .rup => !neg
  | .rdn => neg
  | .rsr w => decide (r * 2 ^ 32 / d > w.toNat)

/-- R57 with an unbounded largest exponent, in quanta no finer than `2^q`: magnitude and exponent. -/
def roundAt (q : Int) (md : Rm) (neg : Bool) (m : Nat) (e : Int) (st : Bool) : Nat × Int :=
  if q ≤ e then (m, e)
  else
    let d := 2 ^ (q - e).toNat
    let lo := m / d
    let r := m % d
    if r = 0 && !st then (lo, q)
    else if roundsUp md neg lo r d st then (lo + 1, q) else (lo, q)

/-- The quantum of a magnitude in a format: its last mantissa place, no finer than the subnormals'. -/
def Fmt.quantum (f : Fmt) (m : Nat) (e : Int) : Int := max (e + (Nat.log2 m : Int) - f.mb) (f.emin - f.mb)

/-- `round(x, f, md)` of a finite value (R57, R58): magnitude, exponent, and whether it overflows. -/
def roundFin (f : Fmt) (md : Rm) (neg : Bool) (m : Nat) (e : Int) (st : Bool) : Nat × Int × Bool :=
  if m = 0 then (0, e, false)
  else
    let md := match md with
      | .rsr w => if magLt f.maxFin.1 f.maxFin.2 m e then .rne else .rsr w
      | x => x
    let (m', e') := roundAt (f.quantum m e) md neg m e st
    (m', e', magLt f.maxFin.1 f.maxFin.2 m' e')

/-- A conversion to a floating format, in its saturating form or not, by the table of R60. -/
def narrow (f : Fmt) (md : Rm) (sat : Bool) (x : Fv) (st : Bool := false) : Nat × Fl :=
  let big (neg : Bool) := encodeFin f neg f.maxFin.1 f.maxFin.2
  match x with
  | .nan => (f.qnan, ⟨f.top == .finite, false⟩)
  | .inf neg =>
    match f.top with
    | .ieee => if sat then (big neg, ⟨false, true⟩) else (f.infBits neg, {})
    | .oneNan => if sat then (big neg, ⟨false, true⟩) else (f.qnan + f.sign neg, ⟨true, false⟩)
    | .finite => (big neg, ⟨false, true⟩)
  | .fin neg m e =>
    let (m', e', ov) := roundFin f md neg m e st
    if !ov then (encodeFin f neg m' e', {})
    else
      let v :=
        match f.top with
        | .finite => big neg
        | .oneNan => if sat then big neg else f.qnan + f.sign neg
        | .ieee =>
          if sat then big neg
          else match md with
            | .rne => f.infBits neg
            | .rsr _ => f.infBits neg
            | .rtz => big neg
            | .rup => if neg then big neg else f.infBits neg
            | .rdn => if neg then f.infBits neg else big neg
      (v, ⟨false, true⟩)

/-- Result of an operation of type `f`: rounded once to nearest even; a missing numeric result is the canonical NaN
(R55). -/
def rne (f : Fmt) (x : Fv) (st : Bool := false) : Nat × Fl := narrow f .rne false x st

/-! ## Exact operations (R55). The Boolean says that there is no numeric result though no operand is a NaN. -/

/-- Sign change. -/
def Fv.neg : Fv → Fv
  | .nan => .nan
  | .inf s => .inf (!s)
  | .fin s m e => .fin (!s) m e

/-- Magnitude. -/
def Fv.abs : Fv → Fv
  | .nan => .nan
  | .inf _ => .inf false
  | .fin _ m e => .fin false m e

def Fv.isNan : Fv → Bool
  | .nan => true
  | _ => false

def Fv.isZero : Fv → Bool
  | .fin _ m _ => m == 0
  | _ => false

def Fv.isInf : Fv → Bool
  | .inf _ => true
  | _ => false

/-- Sign bit. -/
def Fv.sgn : Fv → Bool
  | .nan => false
  | .inf s => s
  | .fin s _ _ => s

/-- Signed magnitude at exponent `k`, for `k` no larger than the value's exponent. -/
def Fv.atExp (neg : Bool) (m : Nat) (e k : Int) : Int :=
  let v : Int := m * 2 ^ (e - k).toNat
  if neg then -v else v

/-- Exact sum (R55): an exact zero sum is +0 unless both addends are -0. -/
def Fv.add (a b : Fv) : Fv × Bool :=
  match a, b with
  | .nan, _ => (.nan, false)
  | _, .nan => (.nan, false)
  | .inf s, .inf t => if s == t then (.inf s, false) else (.nan, true)
  | .inf s, _ => (.inf s, false)
  | _, .inf t => (.inf t, false)
  | .fin s m e, .fin t n k =>
    let q := min e k
    let v := Fv.atExp s m e q + Fv.atExp t n k q
    if v = 0 then (.fin (s && t) 0 0, false) else (.fin (decide (v < 0)) v.natAbs q, false)

/-- Exact product. -/
def Fv.mul (a b : Fv) : Fv × Bool :=
  match a, b with
  | .nan, _ => (.nan, false)
  | _, .nan => (.nan, false)
  | .inf s, .inf t => (.inf (s != t), false)
  | .inf s, .fin t m _ => if m = 0 then (.nan, true) else (.inf (s != t), false)
  | .fin s m _, .inf t => if m = 0 then (.nan, true) else (.inf (s != t), false)
  | .fin s m e, .fin t n k => (.fin (s != t) (m * n) (e + k), false)

/-- Exact `a b + d`; any NaN operand gives a NaN and no flag. -/
def Fv.fma (a b d : Fv) : Fv × Bool :=
  if a.isNan || b.isNan || d.isNan then (.nan, false)
  else
    let (p, i) := a.mul b
    if i then (.nan, true) else p.add d

/-- Quotient, with a bit that says whether digits were cut off. A finite nonzero value divided by zero is a signed
infinity without a flag (R78). -/
def Fv.div (a b : Fv) : Fv × Bool × Bool :=
  match a, b with
  | .nan, _ => (.nan, false, false)
  | _, .nan => (.nan, false, false)
  | .inf _, .inf _ => (.nan, true, false)
  | .inf s, .fin t _ _ => (.inf (s != t), false, false)
  | .fin s _ _, .inf t => (.fin (s != t) 0 0, false, false)
  | .fin s m e, .fin t n k =>
    if n = 0 then (if m = 0 then (.nan, true, false) else (.inf (s != t), false, false))
    else
      let j := 64 + Nat.log2 n
      let q := m * 2 ^ j / n
      (.fin (s != t) q (e - k - j), false, decide (m * 2 ^ j % n ≠ 0))

/-- Integer square root by bits, `n` of them still to be tried. -/
def isqrtAux : Nat → Nat → Nat → Nat
  | 0, _, acc => acc
  | n + 1, x, acc =>
    let t := acc + 2 ^ n
    isqrtAux n x (if t * t ≤ x then t else acc)

/-- floor(sqrt x). -/
def isqrt (x : Nat) : Nat := isqrtAux (Nat.log2 x / 2 + 1) x 0

/-- Square root, with a bit that says whether digits were cut off. -/
def Fv.sqrt (a : Fv) : Fv × Bool × Bool :=
  match a with
  | .nan => (.nan, false, false)
  | .inf s => if s then (.nan, true, false) else (.inf false, false, false)
  | .fin s m e =>
    if m = 0 then (.fin s 0 0, false, false)
    else if s then (.nan, true, false)
    else
      let m1 := if e % 2 = 0 then m else 2 * m
      let e1 := if e % 2 = 0 then e else e - 1
      let x := m1 * 2 ^ 128
      let r := isqrt x
      (.fin false r (e1 / 2 - 64), false, decide (r * r ≠ x))

/-- Exact comparison: value of `a` below value of `b`; false with a NaN. -/
def Fv.lt (a b : Fv) : Bool :=
  match a, b with
  | .nan, _ => false
  | _, .nan => false
  | .inf s, .inf t => s && !t
  | .inf s, .fin .. => s
  | .fin .., .inf t => !t
  | .fin s m e, .fin t n k =>
    let q := min e k
    decide (Fv.atExp s m e q < Fv.atExp t n k q)

/-- Exact equality of values, +0 equal to -0; false with a NaN. -/
def Fv.eq (a b : Fv) : Bool := !a.isNan && !b.isNan && !a.lt b && !b.lt a

/-- At most. -/
def Fv.le (a b : Fv) : Bool := a.lt b || a.eq b

/-- Order in which -0 ranks below +0 (R78, R152). -/
def Fv.ltZ (a b : Fv) : Bool := a.lt b || (a.isZero && b.isZero && a.sgn && !b.sgn)

/-- An integer as a value. -/
def Fv.ofInt (i : Int) : Fv := .fin (decide (i < 0)) i.natAbs 0

/-- Rounding to an integer (R61), of a finite value. -/
def toInt (md : Rm) (neg : Bool) (m : Nat) (e : Int) : Int :=
  let (m', e') := roundAt 0 md neg m e false
  let v : Int := (m' * 2 ^ e'.toNat : Nat)
  if neg then -v else v

/-- A floating-to-integer conversion into [lo, hi], clamping form (R61). -/
def toIntClamp (md : Rm) (lo hi : Int) : Fv → Int × Fl
  | .nan => (0, ⟨true, false⟩)
  | .inf s => (if s then lo else hi, ⟨true, false⟩)
  | .fin s m e =>
    let v := toInt md s m e
    if v < lo then (lo, ⟨true, false⟩) else if hi < v then (hi, ⟨true, false⟩) else (v, {})

/-- The wrapping form (R61): a finite value is rounded and left for the caller to reduce modulo its width. -/
def toIntWrap (md : Rm) (lo hi : Int) : Fv → Int × Fl
  | .fin s m e => (toInt md s m e, {})
  | x => toIntClamp md lo hi x

/-- `sat` of R59 for an integer range, and whether it changed the value. -/
def clampInt (lo hi v : Int) : Int × Bool :=
  if v < lo then (lo, true) else if hi < v then (hi, true) else (v, false)

/-- Range of an integer type of `w` bits. -/
def intLo (w : Nat) (signed : Bool) : Int := if signed then -(2 ^ (w - 1) : Int) else 0
def intHi (w : Nat) (signed : Bool) : Int := if signed then 2 ^ (w - 1) - 1 else 2 ^ w - 1

/-- Low `w` bits of an integer. -/
def intBits (w : Nat) (v : Int) : Nat := (v % (2 ^ w : Int)).toNat

/-- An element of `w` bits read as an integer. -/
def bitsInt (w : Nat) (signed : Bool) (x : Nat) : Int :=
  if signed && decide (2 ^ (w - 1) ≤ x) then (x : Int) - 2 ^ w else x

/-! ## Operand formats of the matrix engine (R46) -/

/-- Element width in bits of a format code; the container for FP19; 8 for raw bytes (R46, R189). -/
def fmtBits (c : BitVec 4) : Nat :=
  match c.toNat with
  | 0 | 1 => 32
  | 2 | 3 | 13 => 16
  | 6 | 7 => 6
  | 8 | 11 | 12 => 4
  | _ => 8

/-- K class (R46). -/
def kClass (c : BitVec 4) : Nat :=
  match c.toNat with
  | 0 | 1 => 64
  | 2 | 3 | 13 => 128
  | 8 | 11 | 12 => 512
  | _ => 256

/-- The floating format of codes 0 to 8. -/
def fmtOf (c : BitVec 4) : Option Fmt :=
  match c.toNat with
  | 0 => some f32
  | 1 => some f19
  | 2 => some bf16
  | 3 => some f16
  | 4 => some e4m3
  | 5 => some e5m2
  | 6 => some e3m2
  | 7 => some e2m3
  | 8 => some e2m1
  | _ => none

/-- Kinds of R46. -/
inductive Kind where
  | float | sym | asym | none
  deriving DecidableEq, Repr

def kindOf (c : BitVec 4) : Kind :=
  match c.toNat with
  | 9 | 12 | 13 => .sym
  | 10 | 11 => .asym
  | 14 | 15 => .none
  | _ => .float

/-- Cycles of one MMA on a format (07 R217). -/
def mmaCycles (c : BitVec 4) : Nat :=
  match c.toNat with
  | 0 => 256
  | 6 | 7 => 32
  | 13 => 128
  | _ => 64

/-- Dot-group size D of a pair (R66). -/
def dotGroup (a b : BitVec 4) : Nat :=
  if a = 0 || b = 0 then 1
  else if kClass a = 64 then 8
  else if kClass a = 128 then 16
  else 32

end Sys2Proof.Machine
end

