-- ==== Sys2Proof/Config.lean ====
section
/-! DEFINITION. What the spec leaves open: free values, as constants without a body, so that nothing can be
proved about which value they are (00_scope.md R6). Each is applied to the counter State.nonce, and to the place
in the step that asks. Log entry 1. -/
namespace Sys2Proof.Config

/-- An undefined value of `w` bits (R6), at one point of one run. -/
opaque freeBits (w : Nat) : Nat → BitVec w

/-- A choice the spec leaves to the hardware between two permitted outcomes (old or new windows of R17, R151,
R167; the loss or not of a rotation, R180). -/
opaque freeBool : Nat → Bool

/-- A choice the spec leaves to the hardware among several permitted outcomes, as an index. -/
opaque freeNat : Nat → Nat

/-- A byte of a part of a save image whose inner layout the spec does not give (09 R285): by what the part holds, and the offset in it. -/
opaque imageByte (part : List Nat) (off : Nat) : BitVec 8

/-- The checksum of a save image (09 R285). The spec names no algorithm. -/
opaque imageSum : List (BitVec 8) → BitVec 32

/-- The device's signature under its identity key (18 R426); the key never leaves the device. -/
opaque sign : List Byte → BitVec 768

end Sys2Proof.Config
end

