-- ==== Sys2Proof/Syntax.lean ====
section
/-! DEFINITION. The instruction set as data: one constructor for each row of the table of operations and events
(spec/opcode_table.json). Slot words come first, in the order S, A, V, M, then the events, then the rows without any operand; their arguments are the fields of the word
(01_slot_cluster_words.md R24) except the sync bit, which is held beside the instruction in SlotWord. The rows without
an encoding are events of the core, the cluster, the die, the package and the fabric; their arguments say which unit
the event concerns and carry what arrives from outside the device. -/
namespace Sys2Proof

/-- The four slot clusters of a core (R10). -/
inductive Cl where
  | s | a | v | m
  deriving DecidableEq, Repr

/-- The two queues of the copy engine (06 R198). -/
inductive MemQ where
  | ml | ms
  deriving DecidableEq, Repr

/-- The engines named by the sel field of ENG (01 R30), in the order of their codes. -/
inductive Eng where
  | ml | ms | ga | vc | mo | dv | gl
  deriving DecidableEq, Repr

/-- What a scrub read of an SRAM sector finds (11 R317 to R320). -/
inductive ScrubFind where
  /-- no error -/
  | clean
  /-- a single-bit error, corrected (R317) -/
  | corrected
  /-- an uncorrectable error in a clean sector of a cache line (R319) -/
  | cacheClean
  /-- an uncorrectable error in the scratchpad sector at this space 1 offset (R319) -/
  | scratch (off : Nat)
  /-- an uncorrectable error in byte `i` from the head of the FIFO of bank `bank` (R319) -/
  | fifo (bank i : Nat)
  /-- an uncorrectable error in the sector of HBM with this number (address / 32), held by a line in bank `bank`;
  it loses data if the sector is dirty in this cluster (R320) -/
  | dirty (bank sector : Nat)
  /-- an error beyond the code in the tags of the line with this number (address / 128) in bank `bank` (R318) -/
  | lineTag (bank line : Nat)
  deriving DecidableEq, Repr

/-- What is done to a frame of HBM: 64 KiB, by its number on the device (16 R376, R388). -/
inductive HbmFind where
  /-- firmware retires the frame (R388) -/
  | firmware (frame : Nat)
  /-- an error of one symbol in a sector of the frame, corrected (R376) -/
  | corrected (frame : Nat)
  /-- an uncorrectable error in sector `sector` of the frame (R376) -/
  | lost (frame sector : Nat)
  deriving DecidableEq, Repr

/-- The tags that travel with a line (21 R503): the attempt tag of its leaf, and the granule tags. -/
structure LineTags where
  att : BitVec 16
  gran : BitVec 8
  deriving DecidableEq, Repr

/-- What of a link fails (19_fabric_dowel.md R439): a lane, of a global link a wavelength of one of its fibres, or such a fibre whole. `rx` names
the fibre that receives. -/
inductive LinkPart where
  | lane (rx : Bool)
  | fibre (rx : Bool)
  deriving DecidableEq, Repr

/-- What the device measures (18_package_host_boot.md R434): the averaged power in W, and the hottest point of each cluster in 1/4 °C. -/
structure Measured where
  pwr : BitVec 16
  temps : List (BitVec 16)
  deriving DecidableEq, Repr

/-- Eight bytes that master `w` writes in the host window (18_package_host_boot.md R421). -/
structure HostWrite where
  w : Nat
  v : W64
  deriving DecidableEq, Repr

/-- A fabric packet (19_fabric_dowel.md R446): the header's fields, `crc` the check of its bytes 0 to 27, and up to eight payload flits of 32
bytes. `mark` is what a packet tells its receiver beyond the header's fields, `mc` the destinations to which the receiver of a multicast copy
passes it on, each with its place in the flow from the source (R447); both are the model's layout (log entry 20). -/
structure Packet where
  dst : BitVec 12
  vc : BitVec 3
  src : BitVec 12
  ctx : Ctx
  seq : BitVec 32
  op : BitVec 8
  vw : Bool
  ret : Bool
  att : BitVec 16
  cl : BitVec 4
  sub : BitVec 8
  pois : BitVec 8
  addr : BitVec 57
  gtag : BitVec 16
  rid : BitVec 16
  len : BitVec 4
  crc : BitVec 32
  data : List (BitVec 256)
  mark : BitVec 64
  mc : List (BitVec 12 × BitVec 32)
  deriving DecidableEq, Repr

/-- One signed image as the boot ROM meets it (18_package_host_boot.md R424). -/
structure Image where
  present : Bool
  keyFound : Bool
  sigValid : Bool
  ver : BitVec 32
  digest : BitVec 256
  deriving DecidableEq, Repr

/-- The three images of a boot (R424) with the values that the configuration image and the repair map carry. -/
structure BootImages where
  fw : Image
  cfg : Image
  rm : Image
  /-- minimum version stated by the configuration (R424) -/
  vmin : BitVec 32
  /-- peer number, groups and members (19 R438) -/
  peer : BitVec 12
  groups : BitVec 8
  members : BitVec 6
  /-- from the repair map: the physical core that holds each logical index and the clusters that have a spare core left (11 R297), spare
  banks of each cluster (11 R321), frames of the spare pool and spare channels (16 R392) -/
  cores : List (BitVec 4)
  spareCores : BitVec 48
  spareBanks : List (BitVec 2)
  pool : BitVec 32
  spareCh : BitVec 12
  /-- installed frames of 64 KiB (16 R375, 19 R441) -/
  frames : BitVec 29
  deriving DecidableEq, Repr

/-- A repair map update (R425): the image, the entries that bring a spare into service (spare channels of the stacks, cache banks by cluster
and number, frames whose rows or frame a spare replaces), and those that wait for the next boot (spare channels to be taken out, the physical
core of a logical index). -/
structure RepairImage where
  img : Image
  spareCh : BitVec 12
  banks : List (Nat × Nat)
  frames : List Nat
  outCh : BitVec 12
  cores : List (Nat × BitVec 4)
  deriving DecidableEq, Repr

/-- What a debug request names (09_core_traps.md R290): a core or a launch. -/
inductive DebugTarget where
  | core (k : Nat)
  | launch (li : Nat)
  deriving DecidableEq, Repr

/-- A debugger write to a piece under drain-halt (R293). -/
inductive DebugWrite where
  | greg (k : Nat) (r : BitVec 5) (v : W64)
  | areg (k : Nat) (r : BitVec 5) (v : BitVec 128)
  | row (k : Nat) (r : BitVec 8) (v : BitVec 2048)
  | mask (k : Nat) (r : BitVec 4) (v : BitVec 256)
  | ireg (k : Nat) (r : BitVec 3) (v : BitVec 16)
  | slot (k : Nat) (n : BitVec 4) (off : BitVec 14) (v : Byte)
  | pc (k : Nat) (c : Cl) (v : W64)
  /-- the debugger ends the halted piece (R291, R293) -/
  | stop (k : Nat)
  deriving DecidableEq, Repr

/-- The instructions and events. -/
inductive Instr where
  /-- ADD (R74) -/
  | add (d : BitVec 5) (a : BitVec 5) (b : BitVec 5)
  /-- SUB (R74) -/
  | sub (d : BitVec 5) (a : BitVec 5) (b : BitVec 5)
  /-- AND (R74) -/
  | and (d : BitVec 5) (a : BitVec 5) (b : BitVec 5)
  /-- OR (R74) -/
  | or (d : BitVec 5) (a : BitVec 5) (b : BitVec 5)
  /-- XOR (R74) -/
  | xor (d : BitVec 5) (a : BitVec 5) (b : BitVec 5)
  /-- ANDN (R74) -/
  | andn (d : BitVec 5) (a : BitVec 5) (b : BitVec 5)
  /-- SLL (R74) -/
  | sll (d : BitVec 5) (a : BitVec 5) (b : BitVec 5)
  /-- SRL (R74) -/
  | srl (d : BitVec 5) (a : BitVec 5) (b : BitVec 5)
  /-- SRA (R74) -/
  | sra (d : BitVec 5) (a : BitVec 5) (b : BitVec 5)
  /-- ROTR (R74) -/
  | rotr (d : BitVec 5) (a : BitVec 5) (b : BitVec 5)
  /-- SLT (R74) -/
  | slt (d : BitVec 5) (a : BitVec 5) (b : BitVec 5)
  /-- SLTZ (R74) -/
  | sltz (d : BitVec 5) (a : BitVec 5) (b : BitVec 5)
  /-- MIN (R74) -/
  | min (d : BitVec 5) (a : BitVec 5) (b : BitVec 5)
  /-- MAX (R74) -/
  | max (d : BitVec 5) (a : BitVec 5) (b : BitVec 5)
  /-- MINZ (R74) -/
  | minz (d : BitVec 5) (a : BitVec 5) (b : BitVec 5)
  /-- MAXZ (R74) -/
  | maxz (d : BitVec 5) (a : BitVec 5) (b : BitVec 5)
  /-- MUL (R74) -/
  | mul (d : BitVec 5) (a : BitVec 5) (b : BitVec 5)
  /-- MULH (R74) -/
  | mulh (d : BitVec 5) (a : BitVec 5) (b : BitVec 5)
  /-- MULHZ (R74) -/
  | mulhz (d : BitVec 5) (a : BitVec 5) (b : BitVec 5)
  /-- MULHSZ (R74) -/
  | mulhsz (d : BitVec 5) (a : BitVec 5) (b : BitVec 5)
  /-- DIV (R75) -/
  | div (d : BitVec 5) (a : BitVec 5) (b : BitVec 5)
  /-- DIVZ (R75) -/
  | divz (d : BitVec 5) (a : BitVec 5) (b : BitVec 5)
  /-- REM (R75) -/
  | rem (d : BitVec 5) (a : BitVec 5) (b : BitVec 5)
  /-- REMZ (R75) -/
  | remz (d : BitVec 5) (a : BitVec 5) (b : BitVec 5)
  /-- CLMUL (R76) -/
  | clmul (d : BitVec 5) (a : BitVec 5) (b : BitVec 5)
  /-- CLMULH (R76) -/
  | clmulh (d : BitVec 5) (a : BitVec 5) (b : BitVec 5)
  /-- CLZ (R74) -/
  | clz (d : BitVec 5) (a : BitVec 5)
  /-- CTZ (R74) -/
  | ctz (d : BitVec 5) (a : BitVec 5)
  /-- POPC (R74) -/
  | popc (d : BitVec 5) (a : BitVec 5)
  /-- BREV (R74) -/
  | brev (d : BitVec 5) (a : BitVec 5)
  /-- BSWAP (R74) -/
  | bswap (d : BitVec 5) (a : BitVec 5)
  /-- ADDI (R77) -/
  | addi (d : BitVec 5) (a : BitVec 5) (i : BitVec 13)
  /-- ANDI (R77) -/
  | andi (d : BitVec 5) (a : BitVec 5) (i : BitVec 13)
  /-- ORI (R77) -/
  | ori (d : BitVec 5) (a : BitVec 5) (i : BitVec 13)
  /-- XORI (R77) -/
  | xori (d : BitVec 5) (a : BitVec 5) (i : BitVec 13)
  /-- SLLI (R77) -/
  | slli (d : BitVec 5) (a : BitVec 5) (s : BitVec 6)
  /-- SRLI (R77) -/
  | srli (d : BitVec 5) (a : BitVec 5) (s : BitVec 6)
  /-- SRAI (R77) -/
  | srai (d : BitVec 5) (a : BitVec 5) (s : BitVec 6)
  /-- ROTRI (R77) -/
  | rotri (d : BitVec 5) (a : BitVec 5) (s : BitVec 6)
  /-- SLTI (R77) -/
  | slti (d : BitVec 5) (a : BitVec 5) (i : BitVec 13)
  /-- SLTIZ (R77) -/
  | sltiz (d : BitVec 5) (a : BitVec 5) (i : BitVec 13)
  /-- LIH (R77) -/
  | lih (d : BitVec 5) (i : BitVec 19)
  /-- FADD_F32 (R78) -/
  | faddF32 (d : BitVec 5) (a : BitVec 5) (b : BitVec 5)
  /-- FSUB_F32 (R78) -/
  | fsubF32 (d : BitVec 5) (a : BitVec 5) (b : BitVec 5)
  /-- FMUL_F32 (R78) -/
  | fmulF32 (d : BitVec 5) (a : BitVec 5) (b : BitVec 5)
  /-- FMA_F32 (R78) -/
  | fmaF32 (d : BitVec 5) (a : BitVec 5) (b : BitVec 5)
  /-- FDIV_F32 (R78) -/
  | fdivF32 (d : BitVec 5) (a : BitVec 5) (b : BitVec 5)
  /-- FSQRT_F32 (R78) -/
  | fsqrtF32 (d : BitVec 5) (a : BitVec 5)
  /-- FMIN_F32 (R78) -/
  | fminF32 (d : BitVec 5) (a : BitVec 5) (b : BitVec 5)
  /-- FMAX_F32 (R78) -/
  | fmaxF32 (d : BitVec 5) (a : BitVec 5) (b : BitVec 5)
  /-- FEQ_F32 (R78) -/
  | feqF32 (d : BitVec 5) (a : BitVec 5) (b : BitVec 5)
  /-- FLT_F32 (R78) -/
  | fltF32 (d : BitVec 5) (a : BitVec 5) (b : BitVec 5)
  /-- FLE_F32 (R78) -/
  | fleF32 (d : BitVec 5) (a : BitVec 5) (b : BitVec 5)
  /-- FABS_F32 (R78) -/
  | fabsF32 (d : BitVec 5) (a : BitVec 5)
  /-- FNEG_F32 (R78) -/
  | fnegF32 (d : BitVec 5) (a : BitVec 5)
  /-- FCVT_S64_F32 (R78) -/
  | fcvtS64F32 (d : BitVec 5) (a : BitVec 5) (m : BitVec 3)
  /-- FCVT_Z64_F32 (R78) -/
  | fcvtZ64F32 (d : BitVec 5) (a : BitVec 5) (m : BitVec 3)
  /-- FCVT_F32_S64 (R78) -/
  | fcvtF32S64 (d : BitVec 5) (a : BitVec 5) (m : BitVec 3)
  /-- FCVT_F32_Z64 (R78) -/
  | fcvtF32Z64 (d : BitVec 5) (a : BitVec 5) (m : BitVec 3)
  /-- FCVT_F32_BF16 (R78) -/
  | fcvtF32Bf16 (d : BitVec 5) (a : BitVec 5)
  /-- FCVT_BF16_F32 (R78) -/
  | fcvtBf16F32 (d : BitVec 5) (a : BitVec 5) (m : BitVec 3)
  /-- FCVT_F32_F16 (R78) -/
  | fcvtF32F16 (d : BitVec 5) (a : BitVec 5)
  /-- FCVT_F16_F32 (R78) -/
  | fcvtF16F32 (d : BitVec 5) (a : BitVec 5) (m : BitVec 3)
  /-- LOSSCHK (R80) -/
  | losschk (d : BitVec 5) (a : BitVec 5) (w : BitVec 7)
  /-- S_BR (R82) -/
  | sBr (o : BitVec 19)
  /-- CALL (R82) -/
  | call (o : BitVec 19)
  /-- S_BEQZ (R82) -/
  | sBeqz (c : BitVec 5) (o : BitVec 19)
  /-- S_BNEZ (R82) -/
  | sBnez (c : BitVec 5) (o : BitVec 19)
  /-- S_BLTZ (R82) -/
  | sBltz (c : BitVec 5) (o : BitVec 19)
  /-- S_BGEZ (R82) -/
  | sBgez (c : BitVec 5) (o : BitVec 19)
  /-- S_BFOL (R84) -/
  | sBfol (o : BitVec 19)
  /-- S_BQT (R83) -/
  | sBqt (o : BitVec 19)
  /-- S_BQF (R83) -/
  | sBqf (o : BitVec 19)
  /-- JALR (R85) -/
  | jalr (d : BitVec 5) (a : BitVec 5)
  /-- S_LOOP (R86) -/
  | sLoop (c : BitVec 5) (o : BitVec 19)
  /-- TRAP (R87) -/
  | trap (i : BitVec 13)
  /-- CSRR (R92) -/
  | csrr (d : BitVec 5) (r : BitVec 12)
  /-- CSRW (R92) -/
  | csrw (a : BitVec 5) (r : BitVec 12)
  /-- CSRS (R92) -/
  | csrs (a : BitVec 5) (r : BitVec 12)
  /-- CSRC (R92) -/
  | csrc (a : BitVec 5) (r : BitVec 12)
  /-- S_QPUSH (R94) -/
  | sQpush (q : BitVec 6) (a : BitVec 5)
  /-- S_QPOP (R94) -/
  | sQpop (d : BitVec 5) (q : BitVec 6)
  /-- FMTQ (R95) -/
  | fmtq (a : BitVec 5)
  /-- WAITC (R96) -/
  | waitc (a : BitVec 5)
  /-- WAITG (R97) -/
  | waitg (d : BitVec 5) (a : BitVec 5) (e : Bool) (g : BitVec 8)
  /-- BAR (R99) -/
  | bar (a : BitVec 5) (s : BitVec 2) (n : BitVec 6)
  /-- BAR_F (R100) -/
  | barF (a : BitVec 5) (s : BitVec 2) (n : BitVec 6)
  /-- STEPBEG (R103) -/
  | stepbeg (d : BitVec 5)
  /-- STEPVOTE (R104) -/
  | stepvote (a : BitVec 5) (u : Bool) (f : BitVec 5)
  /-- STEPEND (R106) -/
  | stepend (d : BitVec 5)
  /-- WAITL (R280) -/
  | waitl (d : BitVec 5)
  /-- CADD (R119) -/
  | cadd (d : BitVec 5) (a : BitVec 5) (b : BitVec 5)
  /-- CSUB (R119) -/
  | csub (d : BitVec 5) (a : BitVec 5) (b : BitVec 5)
  /-- CMOV (R119) -/
  | cmov (d : BitVec 5) (a : BitVec 5)
  /-- CCLR (R119) -/
  | cclr (d : BitVec 5) (a : BitVec 5)
  /-- A_IADD (R119) -/
  | aIadd (d : BitVec 5) (a : BitVec 5) (b : BitVec 5)
  /-- ISUB (R119) -/
  | isub (d : BitVec 5) (a : BitVec 5) (b : BitVec 5)
  /-- IMUL (R119) -/
  | imul (d : BitVec 5) (a : BitVec 5) (b : BitVec 5)
  /-- IAND (R119) -/
  | iand (d : BitVec 5) (a : BitVec 5) (b : BitVec 5)
  /-- IOR (R119) -/
  | ior (d : BitVec 5) (a : BitVec 5) (b : BitVec 5)
  /-- IXOR (R119) -/
  | ixor (d : BitVec 5) (a : BitVec 5) (b : BitVec 5)
  /-- ISLL (R119) -/
  | isll (d : BitVec 5) (a : BitVec 5) (b : BitVec 5)
  /-- ISRL (R119) -/
  | isrl (d : BitVec 5) (a : BitVec 5) (b : BitVec 5)
  /-- ISRA (R119) -/
  | isra (d : BitVec 5) (a : BitVec 5) (b : BitVec 5)
  /-- ISLT (R119) -/
  | islt (d : BitVec 5) (a : BitVec 5) (b : BitVec 5)
  /-- ISLTZ (R119) -/
  | isltz (d : BitVec 5) (a : BitVec 5) (b : BitVec 5)
  /-- AADDI (R120) -/
  | aaddi (d : BitVec 5) (a : BitVec 5) (i : BitVec 13)
  /-- ALIH (R120) -/
  | alih (d : BitVec 5) (i : BitVec 19)
  /-- CSETB (R121) -/
  | csetb (d : BitVec 5) (a : BitVec 5) (b : BitVec 5)
  /-- CSETBX (R121) -/
  | csetbx (d : BitVec 5) (a : BitVec 5) (b : BitVec 5)
  /-- CSETBI (R121) -/
  | csetbi (d : BitVec 5) (a : BitVec 5) (i : BitVec 13)
  /-- CANDP (R122) -/
  | candp (d : BitVec 5) (a : BitVec 5) (p : BitVec 12)
  /-- CGET (R123) -/
  | cget (d : BitVec 5) (a : BitVec 5) (f : BitVec 7)
  /-- CTEST (R123) -/
  | ctest (d : BitVec 5) (a : BitVec 5) (b : BitVec 5)
  /-- CTEQ (R123) -/
  | cteq (d : BitVec 5) (a : BitVec 5) (b : BitVec 5)
  /-- CSETS (R122) -/
  | csets (d : BitVec 5) (a : BitVec 5) (s : BitVec 4)
  /-- LD_S8 (R124) -/
  | ldS8 (b : BitVec 5) (q : BitVec 3) (c : BitVec 4) (i : BitVec 13)
  /-- LD_Z8 (R124) -/
  | ldZ8 (b : BitVec 5) (q : BitVec 3) (c : BitVec 4) (i : BitVec 13)
  /-- LD_S16 (R124) -/
  | ldS16 (b : BitVec 5) (q : BitVec 3) (c : BitVec 4) (i : BitVec 13)
  /-- LD_Z16 (R124) -/
  | ldZ16 (b : BitVec 5) (q : BitVec 3) (c : BitVec 4) (i : BitVec 13)
  /-- LD_S32 (R124) -/
  | ldS32 (b : BitVec 5) (q : BitVec 3) (c : BitVec 4) (i : BitVec 13)
  /-- LD_Z32 (R124) -/
  | ldZ32 (b : BitVec 5) (q : BitVec 3) (c : BitVec 4) (i : BitVec 13)
  /-- LD_64 (R124) -/
  | ld64 (b : BitVec 5) (q : BitVec 3) (c : BitVec 4) (i : BitVec 13)
  /-- LDROW (R124) -/
  | ldrow (b : BitVec 5) (c : BitVec 4) (i : BitVec 13)
  /-- ST_8 (R124) -/
  | st8 (b : BitVec 5) (q : BitVec 3) (c : BitVec 4) (i : BitVec 13)
  /-- ST_16 (R124) -/
  | st16 (b : BitVec 5) (q : BitVec 3) (c : BitVec 4) (i : BitVec 13)
  /-- ST_32 (R124) -/
  | st32 (b : BitVec 5) (q : BitVec 3) (c : BitVec 4) (i : BitVec 13)
  /-- ST_64 (R124) -/
  | st64 (b : BitVec 5) (q : BitVec 3) (c : BitVec 4) (i : BitVec 13)
  /-- STROW (R124) -/
  | strow (b : BitVec 5) (c : BitVec 4) (i : BitVec 13)
  /-- LDC (R127) -/
  | ldc (d : BitVec 5) (b : BitVec 5) (c : BitVec 4) (i : BitVec 11)
  /-- STC (R128) -/
  | stc (d : BitVec 5) (b : BitVec 5) (c : BitVec 4) (i : BitVec 11)
  /-- PREF_L1 (R139) -/
  | prefL1 (b : BitVec 5) (c : BitVec 4) (i : BitVec 13)
  /-- PREF_CC (R139) -/
  | prefCc (b : BitVec 5) (c : BitVec 4) (i : BitVec 13)
  /-- PREF_DC (R139) -/
  | prefDc (b : BitVec 5) (c : BitVec 4) (i : BitVec 13)
  /-- ATOM (R135) -/
  | atom (b : BitVec 5) (q : BitVec 3) (c : BitVec 4) (o : BitVec 5) (z : BitVec 2) (s : Bool)
  /-- RATOM (R136) -/
  | ratom (b : BitVec 5) (q : BitVec 3) (c : BitVec 4) (o : BitVec 5) (z : BitVec 2) (s : Bool)
  /-- RATOM_H (R136) -/
  | ratomH (b : BitVec 5) (q : BitVec 3) (c : BitVec 4) (n : BitVec 5) (r : Bool) (s : Bool)
  /-- LATOM (R137) -/
  | latom (b : BitVec 5) (c : BitVec 4) (z : BitVec 2) (s : Bool)
  /-- GATH (R132) -/
  | gath (b : BitVec 5) (c : BitVec 4) (i : BitVec 13)
  /-- SCAT (R133) -/
  | scat (b : BitVec 5) (c : BitVec 4) (i : BitVec 13)
  /-- FENCE_C (R131) -/
  | fenceC (s : BitVec 2) (m : BitVec 16)
  /-- BANKSET (R140) -/
  | bankset (a : BitVec 5) (m : BitVec 2) (n : BitVec 6)
  /-- BUSY (R141) -/
  | busy (a : BitVec 5) (n : BitVec 13)
  /-- IDLE (R141) -/
  | idle (a : BitVec 5) (n : BitVec 13)
  /-- A_BR (R142) -/
  | aBr (o : BitVec 19)
  /-- A_BEQZ (R142) -/
  | aBeqz (c : BitVec 5) (o : BitVec 19)
  /-- A_BNEZ (R142) -/
  | aBnez (c : BitVec 5) (o : BitVec 19)
  /-- A_BLTZ (R142) -/
  | aBltz (c : BitVec 5) (o : BitVec 19)
  /-- A_BGEZ (R142) -/
  | aBgez (c : BitVec 5) (o : BitVec 19)
  /-- A_BFOL (R23) -/
  | aBfol (o : BitVec 19)
  /-- BPUB (R144) -/
  | bpub (c : BitVec 5) (o : BitVec 19)
  /-- A_LOOP (R143) -/
  | aLoop (c : BitVec 5) (o : BitVec 19)
  /-- ENG (R146) -/
  | eng (sel : BitVec 3) (ew0 : BitVec 16) (ew1 : BitVec 16)
  /-- A_QPUSH (R145) -/
  | aQpush (q : BitVec 6) (a : BitVec 5)
  /-- A_QPOP (R145) -/
  | aQpop (d : BitVec 5) (q : BitVec 6)
  /-- VSETT (R151) -/
  | vsett (t : BitVec 16)
  /-- VFADD (R152) -/
  | vfadd (d : BitVec 6) (a : BitVec 6) (b : BitVec 6) (p : BitVec 4) (k : BitVec 3)
  /-- VFADD_VA (R152) -/
  | vfaddVa (d : BitVec 6) (a : BitVec 6) (b : BitVec 6) (p : BitVec 4) (k : BitVec 3)
  /-- VFSUB (R152) -/
  | vfsub (d : BitVec 6) (a : BitVec 6) (b : BitVec 6) (p : BitVec 4) (k : BitVec 3)
  /-- VFSUB_VA (R152) -/
  | vfsubVa (d : BitVec 6) (a : BitVec 6) (b : BitVec 6) (p : BitVec 4) (k : BitVec 3)
  /-- VFMUL (R152) -/
  | vfmul (d : BitVec 6) (a : BitVec 6) (b : BitVec 6) (p : BitVec 4) (k : BitVec 3)
  /-- VFMUL_VA (R152) -/
  | vfmulVa (d : BitVec 6) (a : BitVec 6) (b : BitVec 6) (p : BitVec 4) (k : BitVec 3)
  /-- VFMA (R152) -/
  | vfma (d : BitVec 6) (a : BitVec 6) (b : BitVec 6) (p : BitVec 4) (k : BitVec 3)
  /-- VFMA_VA (R152) -/
  | vfmaVa (d : BitVec 6) (a : BitVec 6) (b : BitVec 6) (p : BitVec 4) (k : BitVec 3)
  /-- VFMIN (R152) -/
  | vfmin (d : BitVec 6) (a : BitVec 6) (b : BitVec 6) (p : BitVec 4) (k : BitVec 3)
  /-- VFMIN_VA (R152) -/
  | vfminVa (d : BitVec 6) (a : BitVec 6) (b : BitVec 6) (p : BitVec 4) (k : BitVec 3)
  /-- VFMAX (R152) -/
  | vfmax (d : BitVec 6) (a : BitVec 6) (b : BitVec 6) (p : BitVec 4) (k : BitVec 3)
  /-- VFMAX_VA (R152) -/
  | vfmaxVa (d : BitVec 6) (a : BitVec 6) (b : BitVec 6) (p : BitVec 4) (k : BitVec 3)
  /-- VFCMP (R153) -/
  | vfcmp (c : BitVec 2) (m : BitVec 4) (a : BitVec 6) (b : BitVec 6) (p : BitVec 4) (k : BitVec 3)
  /-- VFCMP_VA (R153) -/
  | vfcmpVa (c : BitVec 2) (m : BitVec 4) (a : BitVec 6) (b : BitVec 6) (p : BitVec 4) (k : BitVec 3)
  /-- VADD (R154) -/
  | vadd (d : BitVec 6) (a : BitVec 6) (b : BitVec 6) (p : BitVec 4) (k : BitVec 3)
  /-- VADD_VA (R154) -/
  | vaddVa (d : BitVec 6) (a : BitVec 6) (b : BitVec 6) (p : BitVec 4) (k : BitVec 3)
  /-- VSUB (R154) -/
  | vsub (d : BitVec 6) (a : BitVec 6) (b : BitVec 6) (p : BitVec 4) (k : BitVec 3)
  /-- VSUB_VA (R154) -/
  | vsubVa (d : BitVec 6) (a : BitVec 6) (b : BitVec 6) (p : BitVec 4) (k : BitVec 3)
  /-- VMUL (R154) -/
  | vmul (d : BitVec 6) (a : BitVec 6) (b : BitVec 6) (p : BitVec 4) (k : BitVec 3)
  /-- VMUL_VA (R154) -/
  | vmulVa (d : BitVec 6) (a : BitVec 6) (b : BitVec 6) (p : BitVec 4) (k : BitVec 3)
  /-- VMULH (R154) -/
  | vmulh (d : BitVec 6) (a : BitVec 6) (b : BitVec 6) (p : BitVec 4) (k : BitVec 3)
  /-- VMULH_VA (R154) -/
  | vmulhVa (d : BitVec 6) (a : BitVec 6) (b : BitVec 6) (p : BitVec 4) (k : BitVec 3)
  /-- VMIN (R154) -/
  | vmin (d : BitVec 6) (a : BitVec 6) (b : BitVec 6) (p : BitVec 4) (k : BitVec 3)
  /-- VMIN_VA (R154) -/
  | vminVa (d : BitVec 6) (a : BitVec 6) (b : BitVec 6) (p : BitVec 4) (k : BitVec 3)
  /-- VMAX (R154) -/
  | vmax (d : BitVec 6) (a : BitVec 6) (b : BitVec 6) (p : BitVec 4) (k : BitVec 3)
  /-- VMAX_VA (R154) -/
  | vmaxVa (d : BitVec 6) (a : BitVec 6) (b : BitVec 6) (p : BitVec 4) (k : BitVec 3)
  /-- VADDS (R154) -/
  | vadds (d : BitVec 6) (a : BitVec 6) (b : BitVec 6) (p : BitVec 4) (k : BitVec 3)
  /-- VADDS_VA (R154) -/
  | vaddsVa (d : BitVec 6) (a : BitVec 6) (b : BitVec 6) (p : BitVec 4) (k : BitVec 3)
  /-- VSUBS (R154) -/
  | vsubs (d : BitVec 6) (a : BitVec 6) (b : BitVec 6) (p : BitVec 4) (k : BitVec 3)
  /-- VSUBS_VA (R154) -/
  | vsubsVa (d : BitVec 6) (a : BitVec 6) (b : BitVec 6) (p : BitVec 4) (k : BitVec 3)
  /-- VAND (R154) -/
  | vand (d : BitVec 6) (a : BitVec 6) (b : BitVec 6) (p : BitVec 4) (k : BitVec 3)
  /-- VAND_VA (R154) -/
  | vandVa (d : BitVec 6) (a : BitVec 6) (b : BitVec 6) (p : BitVec 4) (k : BitVec 3)
  /-- VOR (R154) -/
  | vor (d : BitVec 6) (a : BitVec 6) (b : BitVec 6) (p : BitVec 4) (k : BitVec 3)
  /-- VOR_VA (R154) -/
  | vorVa (d : BitVec 6) (a : BitVec 6) (b : BitVec 6) (p : BitVec 4) (k : BitVec 3)
  /-- VXOR (R154) -/
  | vxor (d : BitVec 6) (a : BitVec 6) (b : BitVec 6) (p : BitVec 4) (k : BitVec 3)
  /-- VXOR_VA (R154) -/
  | vxorVa (d : BitVec 6) (a : BitVec 6) (b : BitVec 6) (p : BitVec 4) (k : BitVec 3)
  /-- VSHL (R154) -/
  | vshl (d : BitVec 6) (a : BitVec 6) (b : BitVec 6) (p : BitVec 4) (k : BitVec 3)
  /-- VSHL_VA (R154) -/
  | vshlVa (d : BitVec 6) (a : BitVec 6) (b : BitVec 6) (p : BitVec 4) (k : BitVec 3)
  /-- VSHR (R154) -/
  | vshr (d : BitVec 6) (a : BitVec 6) (b : BitVec 6) (p : BitVec 4) (k : BitVec 3)
  /-- VSHR_VA (R154) -/
  | vshrVa (d : BitVec 6) (a : BitVec 6) (b : BitVec 6) (p : BitVec 4) (k : BitVec 3)
  /-- VCMP (R155) -/
  | vcmp (c : BitVec 2) (m : BitVec 4) (a : BitVec 6) (b : BitVec 6) (p : BitVec 4) (k : BitVec 3)
  /-- VCMP_VA (R155) -/
  | vcmpVa (c : BitVec 2) (m : BitVec 4) (a : BitVec 6) (b : BitVec 6) (p : BitVec 4) (k : BitVec 3)
  /-- VCLMUL (R157) -/
  | vclmul (d : BitVec 6) (a : BitVec 6) (b : BitVec 6) (p : BitVec 4)
  /-- VCLMUL_VA (R157) -/
  | vclmulVa (d : BitVec 6) (a : BitVec 6) (b : BitVec 6) (p : BitVec 4)
  /-- VCLMULH (R157) -/
  | vclmulh (d : BitVec 6) (a : BitVec 6) (b : BitVec 6) (p : BitVec 4)
  /-- VCLMULH_VA (R157) -/
  | vclmulhVa (d : BitVec 6) (a : BitVec 6) (b : BitVec 6) (p : BitVec 4)
  /-- VSEL (R156) -/
  | vsel (d : BitVec 6) (a : BitVec 6) (b : BitVec 6) (p : BitVec 4) (k : BitVec 3)
  /-- VSEL_VA (R156) -/
  | vselVa (d : BitVec 6) (a : BitVec 6) (b : BitVec 6) (p : BitVec 4) (k : BitVec 3)
  /-- VCVT_F2N (R164) -/
  | vcvtF2n (d : BitVec 6) (a : BitVec 6) (r : BitVec 3) (p : BitVec 4) (h : BitVec 3)
  /-- VCVT_F2NS (R164) -/
  | vcvtF2ns (d : BitVec 6) (a : BitVec 6) (r : BitVec 3) (p : BitVec 4) (h : BitVec 3)
  /-- VCVT_N2F (R164) -/
  | vcvtN2f (d : BitVec 6) (a : BitVec 6) (r : BitVec 3) (p : BitVec 4) (h : BitVec 3)
  /-- VCVT_F2I (R164) -/
  | vcvtF2i (d : BitVec 6) (a : BitVec 6) (r : BitVec 3) (p : BitVec 4) (h : BitVec 3)
  /-- VCVT_I2F (R164) -/
  | vcvtI2f (d : BitVec 6) (a : BitVec 6) (r : BitVec 3) (p : BitVec 4) (h : BitVec 3)
  /-- VCVT_I32N (R164) -/
  | vcvtI32n (d : BitVec 6) (a : BitVec 6) (p : BitVec 4) (h : BitVec 3)
  /-- VCVT_I32NS (R164) -/
  | vcvtI32ns (d : BitVec 6) (a : BitVec 6) (p : BitVec 4) (h : BitVec 3)
  /-- VCVT_IW32 (R164) -/
  | vcvtIw32 (d : BitVec 6) (a : BitVec 6) (p : BitVec 4) (h : BitVec 3)
  /-- VSF_EXP2 (R172) -/
  | vsfExp2 (d : BitVec 6) (a : BitVec 6) (p : BitVec 4) (k : BitVec 3)
  /-- VSF_LOG2 (R173) -/
  | vsfLog2 (d : BitVec 6) (a : BitVec 6) (p : BitVec 4) (k : BitVec 3)
  /-- VSF_RCP (R174) -/
  | vsfRcp (d : BitVec 6) (a : BitVec 6) (p : BitVec 4) (k : BitVec 3)
  /-- VSF_RSQRT (R175) -/
  | vsfRsqrt (d : BitVec 6) (a : BitVec 6) (p : BitVec 4) (k : BitVec 3)
  /-- VSF_TANH (R176) -/
  | vsfTanh (d : BitVec 6) (a : BitVec 6) (p : BitVec 4) (k : BitVec 3)
  /-- VSF_SIGM (R176) -/
  | vsfSigm (d : BitVec 6) (a : BitVec 6) (p : BitVec 4) (k : BitVec 3)
  /-- VRED_FADD (R163) -/
  | vredFadd (d : BitVec 6) (a : BitVec 6) (s : BitVec 2) (p : BitVec 4) (k : BitVec 3)
  /-- VRED_FMIN (R163) -/
  | vredFmin (d : BitVec 6) (a : BitVec 6) (s : BitVec 2) (p : BitVec 4) (k : BitVec 3)
  /-- VRED_FMAX (R163) -/
  | vredFmax (d : BitVec 6) (a : BitVec 6) (s : BitVec 2) (p : BitVec 4) (k : BitVec 3)
  /-- VRED_ADD (R163) -/
  | vredAdd (d : BitVec 6) (a : BitVec 6) (s : BitVec 2) (p : BitVec 4) (k : BitVec 3)
  /-- VRED_MIN (R163) -/
  | vredMin (d : BitVec 6) (a : BitVec 6) (s : BitVec 2) (p : BitVec 4) (k : BitVec 3)
  /-- VRED_MAX (R163) -/
  | vredMax (d : BitVec 6) (a : BitVec 6) (s : BitVec 2) (p : BitVec 4) (k : BitVec 3)
  /-- VRED_AND (R163) -/
  | vredAnd (d : BitVec 6) (a : BitVec 6) (s : BitVec 2) (p : BitVec 4) (k : BitVec 3)
  /-- VRED_OR (R163) -/
  | vredOr (d : BitVec 6) (a : BitVec 6) (s : BitVec 2) (p : BitVec 4) (k : BitVec 3)
  /-- VRED_XOR (R163) -/
  | vredXor (d : BitVec 6) (a : BitVec 6) (s : BitVec 2) (p : BitVec 4) (k : BitVec 3)
  /-- VRNG (R170) -/
  | vrng (d : BitVec 6) (k : BitVec 3)
  /-- VMOV (R158) -/
  | vmov (d : BitVec 6) (a : BitVec 6) (p : BitVec 4) (k : BitVec 3)
  /-- VMAND (R159) -/
  | vmand (d : BitVec 4) (a : BitVec 4) (b : BitVec 4)
  /-- VMOR (R159) -/
  | vmor (d : BitVec 4) (a : BitVec 4) (b : BitVec 4)
  /-- VMXOR (R159) -/
  | vmxor (d : BitVec 4) (a : BitVec 4) (b : BitVec 4)
  /-- VMANDN (R159) -/
  | vmandn (d : BitVec 4) (a : BitVec 4) (b : BitVec 4)
  /-- VMNOT (R159) -/
  | vmnot (d : BitVec 4) (a : BitVec 4)
  /-- VMMOV (R159) -/
  | vmmov (d : BitVec 4) (a : BitVec 4)
  /-- VMFIRST (R159) -/
  | vmfirst (d : BitVec 4) (n : BitVec 12)
  /-- VPOP (R160) -/
  | vpop (d : BitVec 6) (q : BitVec 6) (k : BitVec 3)
  /-- VPUSH (R161) -/
  | vpush (q : BitVec 6) (a : BitVec 6) (p : BitVec 4)
  /-- LOOPR (R178) -/
  | loopr (s : BitVec 2) (r : Bool) (g : BitVec 3) (o : BitVec 19)
  /-- V_BR (R182) -/
  | vBr (o : BitVec 19)
  /-- V_BFOL (R182) -/
  | vBfol (o : BitVec 19)
  /-- V_BQT (R182) -/
  | vBqt (o : BitVec 19)
  /-- V_BQF (R182) -/
  | vBqf (o : BitVec 19)
  /-- CLAMP (R216) -/
  | clamp (a : BitVec 4) (i : BitVec 3)
  /-- FREE (R216) -/
  | free (a : BitVec 4) (i : BitVec 3)
  /-- MMA (R219) -/
  | mma (t : BitVec 2) (a : BitVec 4) (b : BitVec 4) (i : BitVec 3) (j : BitVec 3) (z : Bool)
  /-- MMAS (R222) -/
  | mmas (t : BitVec 2) (a : BitVec 4) (b : BitVec 4) (i : BitVec 3) (j : BitVec 3) (z : Bool)
  /-- REP (R224) -/
  | rep (b : Bool) (a : Bool) (n : BitVec 12)
  /-- SHAPE (R236) -/
  | shape (i : BitVec 3) (j : BitVec 3) (k : BitVec 3)
  /-- XPOSE (R233) -/
  | xpose (a : BitVec 4) (b : BitVec 4) (i : BitVec 3) (j : BitVec 3)
  /-- EPI (R229) -/
  | epi (t : BitVec 2) (b : BitVec 4) (j : BitVec 3) (r : Bool) (e : Bool) (g : BitVec 6)
  /-- EPIR (R231) -/
  | epir (t : BitVec 2) (n : BitVec 2) (r : Bool) (e : Bool) (g : BitVec 6)
  /-- TZERO (R234) -/
  | tzero (t : BitVec 2)
  /-- TMOV (R234) -/
  | tmov (t : BitVec 2) (s : BitVec 2)
  /-- ISET (R215) -/
  | iset (i : BitVec 3) (v : BitVec 16)
  /-- M_IADD (R215) -/
  | mIadd (i : BitVec 3) (v : BitVec 16)
  /-- M_BR (R238) -/
  | mBr (o : BitVec 19)
  /-- M_BFOL (R238) -/
  | mBfol (o : BitVec 19)
  /-- M_BQT (R238) -/
  | mBqt (o : BitVec 19)
  /-- M_BQF (R238) -/
  | mBqf (o : BitVec 19)
  /-- M_LOOP (R238) -/
  | mLoop (k : BitVec 3) (o : BitVec 19)
  /-- LC_WRITE (R86) -/
  | lcWrite (v : W64)
  /-- GAUGE_WRITE (R311) -/
  | gaugeWrite (dev : Bool) (n : BitVec 8) (v : BitVec 32)
  /-- MOLAG_MOICUR_WRITE (R407) -/
  | molagMoicurWrite (icur : Bool) (v : W64)
  /-- ETHDB_WRITE (R430) -/
  | ethdbWrite (x : HostWrite)
  /-- DWLOAD_WRITE (R452) -/
  | dwloadWrite (v : W64)
  /-- COLLGRP_WRITE (R462) -/
  | collgrpWrite (n : BitVec 4) (v : W64)
  /-- GLUCFG_WRITE (R486) -/
  | glucfgWrite (fillb : Bool) (v : W64)
  /-- SCRCFG_WRITE (R497) -/
  | scrcfgWrite (scrr : Bool) (v : W64)
  /-- SCRH_WRITE (R497) -/
  | scrhWrite (v : W64)
  /-- COPY_START (R198) -/
  | copyStart (q : MemQ)
  /-- COPY_CHUNK_SEEN (R198) -/
  | copyChunkSeen (q : MemQ)
  /-- PROMISE_SECTOR_PERFORM (R200) -/
  | promiseSectorPerform (id : Nat) (sec : Nat)
  /-- PROMISE_MISS (R201) -/
  | promiseMiss (q : MemQ)
  /-- GATHER_ROW_LAND (R259) -/
  | gatherRowLand (id : Nat) (row : Nat)
  /-- GADD_APPLY (R267) -/
  | gaddApply (e : Eng)
  /-- STOP_FIRE (R268) -/
  | stopFire (dev : Bool) (n : BitVec 6)
  /-- MMA_COMPLETE (R220) -/
  | mmaComplete (t : BitVec 2)
  /-- EPIR_ROW_PERFORM (R231) -/
  | epirRowPerform (id : Nat)
  /-- BANK_SWITCH_BEGIN (R301) -/
  | bankSwitchBegin (n : BitVec 6)
  /-- BANK_SWITCH_END (R301) -/
  | bankSwitchEnd (n : BitVec 6)
  /-- EARLY_REACHED (R91) -/
  | earlyReached (li : Nat) (q : Nat)
  /-- TRANSLATION_STALL_TIMEOUT (R281) -/
  | translationStallTimeout (e : Eng)
  /-- REMOTE_ACCESS_TIMEOUT (R442) -/
  | remoteAccessTimeout (rid : Nat)
  /-- LAUNCH (R333) -/
  | launch (n : BitVec 6) (ra : W64)
  /-- LAUNCHI (R331) -/
  | launchi (n : BitVec 6) (msk : BitVec 6) (ra : W64) (xa : W64)
  /-- CMD_LOOP (R331) -/
  | cmdLoop (n : BitVec 6) (cnt : W64)
  /-- ENDLOOP (R331) -/
  | endLoop (n : BitVec 6)
  /-- IF (R331) -/
  | cmdIf (n : BitVec 6) (neg : Bool) (tau : BitVec 32) (g : BitVec 8)
  /-- ELSE (R331) -/
  | cmdElse (n : BitVec 6)
  /-- ENDIF (R331) -/
  | endIf (n : BitVec 6)
  /-- CMD_WAITG (R331) -/
  | cmdWaitg (n : BitVec 6) (tau : BitVec 32) (g : BitVec 8)
  /-- SIGNAL_IMMEDIATE (R331) -/
  | signalImmediate (n : BitVec 6) (h : Bool) (amt : BitVec 32) (g : BitVec 8)
  /-- SIGNAL_DEFERRED (R331) -/
  | signalDeferred (n : BitVec 6) (h : Bool) (amt : BitVec 32) (g : BitVec 8)
  /-- SIGNAL_DEFERRED_APPLY (R331) -/
  | signalDeferredApply (n : BitVec 6)
  /-- STEPOPEN (R335) -/
  | stepopen (n : BitVec 6) (k : W64) (stok : BitVec 8) (f : BitVec 8) (m : BitVec 9)
  /-- STEPCLOSE (R335) -/
  | stepclose (n : BitVec 6)
  /-- CMD_FENCE (R331) -/
  | cmdFence (n : BitVec 6) (fab : Bool)
  /-- WRITE (R514) -/
  | write (n : BitVec 6) (v : W64) (ad : W64)
  /-- WRITE_GAUGE (R331) -/
  | writeGauge (n : BitVec 6) (v : W64) (g : BitVec 8)
  /-- HALT (R331) -/
  | halt (n : BitVec 6) (h : Bool)
  /-- LAUNCH_READY (R343) -/
  | launchReady (li : Nat)
  /-- LAUNCH_RETIRE (R341) -/
  | launchRetire (li : Nat)
  /-- LAUNCH_FAULTED (R350) -/
  | launchFaulted (li : Nat)
  /-- PROMOTION (R348) -/
  | promotion (li : Nat)
  /-- PREEMPTION (R352) -/
  | preemption (li : Nat)
  /-- SRAM_SCRUB (R317) -/
  | sramScrub (clu : Nat) (fnd : ScrubFind)
  /-- PAGE_RETIREMENT (R388) -/
  | pageRetirement (x : HbmFind)
  /-- VERSION_SCRUB_VISIT (R386) -/
  | versionScrubVisit (line : Nat)
  /-- POISON_REPAIR (R503) -/
  | poisonRepair (ctx : Ctx) (line : Nat) (data : BitVec 1024) (pois : BitVec 4) (tg : LineTags)
  /-- REWARD_ARRIVAL (R398) -/
  | rewardArrival (tid : W64) (t : BitVec 12) (r : BitVec 32) (term : Bool)
  /-- EPISODE_TIMEOUT (R400) -/
  | episodeTimeout (tid : W64)
  /-- FREE_SLOTS_ARRIVAL (R415) -/
  | freeSlotsArrival (pk : Packet)
  /-- COLLECTIVE_CHUNK_READ (R467) -/
  | collectiveChunkRead (id : Nat)
  /-- COLLECTIVE_PACKET_ARRIVAL (R510) -/
  | collectivePacketArrival (pk : Packet)
  /-- COLLECTIVE_ACK_ARRIVAL (R467) -/
  | collectiveAckArrival (pk : Packet)
  /-- COLLECTIVE_COMPLETE (R467) -/
  | collectiveComplete (id : Nat)
  /-- COLLECTIVE_TIMEOUT (R473) -/
  | collectiveTimeout (id : Nat)
  /-- VENEER_PLANE_SEND (R475) -/
  | veneerPlaneSend (id : Nat)
  /-- VENEER_PLANE_ARRIVAL (R476) -/
  | veneerPlaneArrival (pk : Packet)
  /-- VENEER_CANCEL_ARRIVAL (R479) -/
  | veneerCancelArrival (pk : Packet)
  /-- VENEER_ACK_ARRIVAL (R479) -/
  | veneerAckArrival (pk : Packet)
  /-- VENEER_FIRST_PLANE_TIMEOUT (R477) -/
  | veneerFirstPlaneTimeout (pk : Packet)
  /-- REMOTE_LOAD_ARRIVAL (R441) -/
  | remoteLoadArrival (pk : Packet)
  /-- REMOTE_STORE_ARRIVAL (R441) -/
  | remoteStoreArrival (pk : Packet)
  /-- ANSWER_ARRIVAL (R441) -/
  | answerArrival (pk : Packet)
  /-- DOWEL_OPERATION (R449) -/
  | dowelOperation (stack : BitVec 4)
  /-- DOWEL_HANDLER (R458) -/
  | dowelHandler (stack : BitVec 4)
  /-- HANDLER_LOAD_COMPLETE (R452) -/
  | handlerLoadComplete (ctx : Ctx)
  /-- FLIT_REPLAY (R439) -/
  | flitReplay (glob : Bool) (n : BitVec 7)
  /-- LANE_SWAP (R439) -/
  | laneSwap (glob : Bool) (n : BitVec 7) (part : LinkPart)
  /-- LINK_DOWN (R439) -/
  | linkDown (glob : Bool) (n : BitVec 7)
  /-- VOTE_SEND (R488) -/
  | voteSend (ctx : Ctx)
  /-- VETO_VOTE (R489) -/
  | vetoVote (ctx : Ctx)
  /-- VOTE_ARRIVAL (R491) -/
  | voteArrival (pk : Packet)
  /-- ROOT_DECISION (R490) -/
  | rootDecision (ctx : Ctx)
  /-- APPLY_DECISION (R493) -/
  | applyDecision (pk : Packet)
  /-- DECIDED_STATE_EXIT (R489) -/
  | decidedStateExit (ctx : Ctx)
  /-- VOTE_WAIT_TIMEOUT (R492) -/
  | voteWaitTimeout (ctx : Ctx)
  /-- KEEP_ALIVE_SEND (R501) -/
  | keepAliveSend (ctx : Ctx)
  /-- DECLARE_LOST (R501) -/
  | declareLost (ctx : Ctx) (rank : BitVec 12)
  /-- LOST_NOTICE_ARRIVAL (R501) -/
  | lostNoticeArrival (pk : Packet)
  /-- ANCESTOR_SILENCE_HALT (R501) -/
  | ancestorSilenceHalt (ctx : Ctx)
  /-- FILL_ASSIGNMENT_ARRIVAL (R505) -/
  | fillAssignmentArrival (pk : Packet)
  /-- FILL_COMPLETE (R505) -/
  | fillComplete (ctx : Ctx)
  /-- FILL_DONE_ARRIVAL (R505) -/
  | fillDoneArrival (pk : Packet)
  /-- CHECKPOINT_PATH_HALT (R507) -/
  | checkpointPathHalt (ctx : Ctx)
  /-- FABRIC_BARRIER_ARRIVAL (R508) -/
  | fabricBarrierArrival (pk : Packet)
  /-- FABRIC_BARRIER_RELEASE (R508) -/
  | fabricBarrierRelease (pk : Packet)
  /-- SCRIBE_DIVERGENCE (R498) -/
  | scribeDivergence (ctx : Ctx) (kind : BitVec 8) (unit : BitVec 8)
  /-- ETH_TX_FRAME (R431) -/
  | ethTxFrame (port : BitVec 4)
  /-- ETH_TX_COMPLETE (R431) -/
  | ethTxComplete (ring : BitVec 7)
  /-- ETH_RX_FRAME (R432) -/
  | ethRxFrame (port : BitVec 4) (addrs : BitVec 96) (rest fcs : Bytes)
  /-- POWER_CAP_THROTTLE (R434) -/
  | powerCapThrottle (mhz : BitVec 16) (x : Measured)
  /-- THERMAL_SHUTDOWN (R434) -/
  | thermalShutdown (k : Nat)
  /-- DEVICE_RESET (R424) -/
  | deviceReset (b : BootImages)
  /-- OWNER_LINK_DOWN (R422) -/
  | ownerLinkDown (w : Nat)
  /-- CLAIM (R422) -/
  | claim (w : Nat)
  /-- GIVE (R422) -/
  | give (w : Nat) (tgt : BitVec 8)
  /-- ACCEPT (R422) -/
  | accept (w : Nat)
  /-- RELEASE (R422) -/
  | release (w : Nat)
  /-- INSTALL_TENSOR_HANDLE (R378) -/
  | installTensorHandle (w : Nat) (ctx : Ctx) (idx : BitVec 12) (rec : BitVec 512)
  /-- MARK_VERSIONED (R380) -/
  | markVersioned (w : Nat) (ctx : Ctx) (va : W64)
  /-- UNMARK_VERSIONED (R380) -/
  | unmarkVersioned (w : Nat) (ctx : Ctx) (va : W64)
  /-- SET_CORE_SET (R338) -/
  | setCoreSet (w : Nat) (ctx : Ctx) (cores : BitVec 384) (stk : Cap) (sz : W64)
  /-- ASSIGN_UNIT (R393) -/
  | assignUnit (w : Nat) (dove : Bool) (ctx : Ctx) (cfg : W64)
  /-- RESTORE_STEP_POSITION (R391) -/
  | restoreStepPosition (w : Nat) (ctx : Ctx) (ra : W64)
  /-- DEBUG_HALT_DRAIN (R290) -/
  | debugHaltDrain (w : Nat) (tgt : DebugTarget)
  /-- DEBUG_HALT_FREEZE (R291) -/
  | debugHaltFreeze (w : Nat) (tgt : DebugTarget)
  /-- DEBUG_RESUME (R293) -/
  | debugResume (w : Nat) (tgt : DebugTarget)
  /-- DEBUG_WRITE (R293) -/
  | debugWrite (w : Nat) (dw : DebugWrite)
  /-- REPAIR_MAP_UPDATE (R425) -/
  | repairMapUpdate (w : Nat) (img : RepairImage)
  /-- QUOTE (R426) -/
  | quote (w : Nat) (nonce : BitVec 256)
  /-- SET_POWER_CAP (R434) -/
  | setPowerCap (w : Nat) (cap : BitVec 16)
  /-- ASSIGN_ETHERNET_RING (R429) -/
  | assignEthernetRing (w : Nat) (ring : BitVec 7) (d : BitVec 256)
  /-- ACCESS_PERFORMED (R125) -/
  | accessPerformed (n : Nat)
  /-- ENGINE_TAKES_OPERATION (R250) -/
  | engineTakesOperation (e : Eng)
  /-- STREAM_DESCRIPTOR_WRITE (R329) -/
  | streamDescriptorWrite (w : Nat) (n : BitVec 6) (d : BitVec 256)
  /-- ETH_LINK_CHANGE (R433) -/
  | ethLinkChange (port : BitVec 4) (up : Bool)
  /-- PRIORITY_FLOW_CONTROL_PAUSE (R431) -/
  | priorityFlowControlPause (port : BitVec 4) (prio : BitVec 3) (on : Bool)
  /-- ERET (R89) -/
  | eret
  /-- S_END (R90) -/
  | sEnd
  /-- EARLY (R91) -/
  | early
  /-- A_END (R11) -/
  | aEnd
  /-- V_END (R182) -/
  | vEnd
  /-- SHAPE_OFF (R236) -/
  | shapeOff
  /-- M_END (R238) -/
  | mEnd
  /-- EPI_OUTPUT_SEEN (R229) -/
  | epiOutputSeen
  /-- XPOSE_OUTPUT_SEEN (R233) -/
  | xposeOutputSeen
  /-- BARRIER_COMPLETE (R99) -/
  | barrierComplete
  /-- QUEUE_DEADLOCK (R185) -/
  | queueDeadlock
  /-- REPORTED_TRAP_TAKEN (R276) -/
  | reportedTrapTaken
  /-- WATCHDOG (R350) -/
  | watchdog
  /-- TRANSLATION_WALK_COMPLETE (R196) -/
  | translationWalkComplete
  /-- PIECE_START (R347) -/
  | pieceStart
  /-- DRAIN_CONVERSION (R289) -/
  | drainConversion
  /-- SCRUB_PASS_END (R386) -/
  | scrubPassEnd
  /-- PLANE_SCAN (R403) -/
  | planeScan
  /-- DOVETAIL_ENTRY_START (R413) -/
  | dovetailEntryStart
  /-- DOVETAIL_TABLE_END (R417) -/
  | dovetailTableEnd
  /-- COLLECTIVE_START (R465) -/
  | collectiveStart
  /-- VENEER_ENTRY_WAIT_DROP (R477) -/
  | veneerEntryWaitDrop
  /-- CORE_FAILURE (R502) -/
  | coreFailure
  /-- CORE_SCRATCH_SWITCH_END (R194) -/
  | coreScratchSwitchEnd
  deriving DecidableEq, Repr

/-- A slot word as decoded: the sync bit Y (01 R19) and the instruction. -/
structure SlotWord where
  y : Bool
  i : Instr
  deriving DecidableEq, Repr

end Sys2Proof
end

