-- ==== Sys2Proof/Machine/State.lean ====
section
/-! DEFINITION. The state of one SL900 device, as plain data: everything the spec names that an instruction or an
event reads or writes. One core is in focus, the others are parked beside it; `agenda` says which agent moves next.
Chapters: cores 01 to 09, clusters 11, the die 13 and 14, the package 16 to 18, the fabric 19 to 21. -/
namespace Sys2Proof.Machine

/-- A sparse table in canonical form: keys strictly rising, no entry equal to the table's default. -/
abbrev Map (α : Type) := List (Nat × α)

/-! ## Traps (09) -/

/-- The causes of R272. -/
inductive Cause where
  | illegalWord | fetchFault | bundleMismatch | earlyRead | poisonConsumed | capabilityFault | misaligned
  | translationFault | accessFault | bankModeFault | loopFault | formatUnderflow | formatInvalid | shapeMismatch
  | innerDimension | scheduleMiss | routeInvalid | engineStackFault | engineOperandFault | stopBusy | stepState
  | barrierFault | softwareTrap | promiseMiss | landingConflict | queueDeadlock | doubleTrap | watchdog
  | contextTerminated | stashOverflow | extentOverflow | skewFault
  deriving DecidableEq, Repr

/-- A trap with its detail (R272): SUB and TADDR. -/
structure Trap where
  cause : Cause
  sub : BitVec 16 := 0
  addr : W64 := 0
  deriving DecidableEq, Repr

/-- What became of the word a cluster last tried to issue: issued, stalled (`q`: on a queue, R185; `code`: the queue),
or trapped. -/
inductive Res where
  | issued
  | stalled (q : Bool) (code : BitVec 6)
  | trapped (t : Trap)
  deriving DecidableEq, Repr

/-! ## Registers (01) -/

/-- A g register: value, poison bit (R14), first cycle in which a read sees it (R38). -/
structure GReg where
  v : W64
  p : Bool
  rdy : Nat
  deriving DecidableEq, Repr

/-- An a register (R13, R14, R38). -/
structure AReg where
  c : Cap
  p : Bool
  rdy : Nat
  deriving DecidableEq, Repr

/-- A mask register (R15). -/
structure MReg where
  v : BitVec 256
  rdy : Nat
  deriving DecidableEq, Repr

/-- An i register (R13). -/
structure IReg where
  v : BitVec 16
  rdy : Nat
  deriving DecidableEq, Repr

/-- A row of a tile: 256 bytes, one poison bit for each 32-bit container (R14), first cycle in which a read sees the
last write by V (R38, R221). -/
structure Row where
  bits : BitVec 2048
  p : BitVec 64
  rdy : Nat
  deriving DecidableEq, Repr

/-- Stream of a slot cluster (R11, R12): activity, code capability as given at piece start, cursor, and the word being
executed with the word after it (R513). `start` is the first cycle in which the cluster may issue (R277), `buf` the loop
buffer: the words of the body of the loop that runs, as first fetched (R86, R143, R178, R206). -/
structure Strm where
  act : Bool
  code : Cap
  pc : W64
  iw : W32
  iw2 : W32
  start : Nat
  buf : List (Nat × W32 × W32)
  deriving DecidableEq, Repr

/-! ## Queues (06) -/

/-- An entry of a queue: reserved in cycle `res` (R125), poppable from cycle `av` once `filled` (R184). `id` names the
reservation that fills it. -/
structure Ent (α : Type) where
  v : α
  filled : Bool
  res : Nat
  av : Nat
  id : Nat
  deriving DecidableEq, Repr

/-- A queue: its entries, the pops made in cycle `popAt` (R184), and the counts of the cut vector (R286). -/
structure Queue (α : Type) where
  ents : List (Ent α)
  popAt : Nat
  pops : Nat
  pushed : Nat
  popped : Nat
  deriving DecidableEq, Repr

/-- A 64-bit entry with its poison bit. -/
structure PV where
  v : W64
  p : Bool
  deriving DecidableEq, Repr

/-- A row entry with 64 poison bits. -/
structure RowV where
  bits : BitVec 2048
  p : BitVec 64
  deriving DecidableEq, Repr

/-! ## Loops -/

/-- A LOOP of A or M (R143, R238): count, first body word, end. -/
structure LoopSt where
  n : W64
  b : W64
  e : W64
  deriving DecidableEq, Repr

/-- A LOOPR of V (R178). -/
structure LoopR where
  left : Nat
  kk : Nat
  cnt : Nat
  map : W64
  b : W64
  e : W64
  deriving DecidableEq, Repr

/-- A REP (R224, R225): remaining issues of the next word, register increments, whether the word has been met. -/
structure RepSt where
  n : Nat
  ia : Bool
  ib : Bool
  first : Bool
  deriving DecidableEq, Repr

/-! ## Operand slots, tiles, routes (06, 07) -/

/-- A shape record (R189). -/
structure Shape where
  val : Bool
  fmt : BitVec 4
  rows : BitVec 7
  klen : BitVec 10
  deriving DecidableEq, Repr

/-- Holds on a tile: V reads the result from `vFrom`, M from `mFrom` (R220, R234); an epilogue holds it against MMA,
TZERO and TMOV until `epi` (R228); `fl` are the flags of FPST that its MMA sets when it completes (R219). -/
structure TileHold where
  vFrom : Nat
  mFrom : Nat
  epi : Nat
  fl : BitVec 6
  deriving DecidableEq, Repr

/-- A route (R230) with its hidden state: the bounds and `rm` of its `dst`, and, of one in space 0, what leads from a physical address back
to the device-virtual one (08 R262). -/
structure Route where
  addr : BitVec 57
  adv : BitVec 32
  pitch : BitVec 32
  val : Bool
  dg : Bool
  dgn : BitVec 8
  vw : Bool
  seq : BitVec 16
  lo : Nat
  hi : Nat
  rm : Bool
  off : Option Int
  deriving DecidableEq, Repr

/-- A gauge: of the device, or of the core's cluster (R251). -/
structure Gauge where
  dev : Bool
  n : BitVec 8
  deriving DecidableEq, Repr

/-- An output on its way into a slot (R229, R233): seen in cycle `at`. `und` marks tile rows that V overwrote before
they were read (R228); `nr`, `ne`, `w` give the output's rows, elements per row and element width. -/
structure Landing where
  epi : Bool
  at_ : Nat
  start : Nat
  slot : BitVec 4
  tile : BitVec 2
  tr : Bool
  nr : Nat
  ne : Nat
  w : Nat
  data : Bytes
  pois : List Bool
  und : BitVec 64
  shp : Shape
  gauge : Option (BitVec 6)
  deriving DecidableEq, Repr

/-- What an epilogue does to each element (R226): activation, SAT, rounding, scaling, integer tile, output format, scales, biases. -/
structure EpiJob where
  act : Nat
  sat : Bool
  rm : Rm
  sm : Bool
  at_ : Bool
  of_ : BitVec 4
  sc : List Nat
  bi : List Nat
  deriving DecidableEq, Repr

/-- An EPIR whose rows are leaving the core (R231, R232): `left` are the rows that have not left, `since` the cycle in which the last row
left (09 R289), `core` the core on which it issued, `acks` the rows whose home has not answered. `job` is what it does to each row, `nr`
its rows, `rows` those that have been read from the tile as they left, with the poison of their sectors, `und` the tile rows that V has
overwritten before they were read (R228). -/
structure Epir where
  id : Nat
  core : Nat
  start : Nat
  tile : BitVec 2
  tr : Bool
  nr : Nat
  ne : Nat
  job : EpiJob
  rows : List (Nat × Bytes × List Bool)
  und : BitVec 64
  rt : Route
  ctx : Ctx
  li : Nat
  pid : Nat
  att : BitVec 16
  open_ : Bool
  gauge : Option (BitVec 6)
  left : List Nat
  since : Nat
  acks : List Nat
  conflict : Bool
  faulted : Bool
  deriving DecidableEq, Repr

/-! ## Accesses of A (04, 14) -/

/-- Where an access goes: HBM of a peer at a fabric physical address, SRAM of this core's cluster, core scratch, the
FIFO of a bank. -/
inductive Loc where
  | hbm (addr : Nat)
  | sram (off : Nat)
  | scr (off : Nat)
  | fifo (bank : Nat)
  deriving DecidableEq, Repr

/-- What an access does when it performs. `q` is a queue code, `id` the reserved entry, `lo` the first sector of the row that the
access fills. A row that lies in two places is two accesses with one `id`. -/
inductive AccOp where
  | load (q : BitVec 6) (id : Nat) (sx : Bool)
  | loadRow (id lo : Nat)
  | loadCap (d : BitVec 5) (lc : Bool)
  | store (bs : Bytes) (p : Bool)
  | storeRow (id : Nat) (r : RowV)
  | storeCap (c : Cap) (p : Bool)
  | gathLane (id : Nat) (j : Nat)
  | scatLane (bs : Bytes) (p : Bool)
  | atom (op : BitVec 4) (ret : Option (BitVec 6 × Nat)) (x y : W64)
  | handler (n : BitVec 5) (ret : Option (BitVec 6 × Nat)) (args : List W64)
  | line (f32 : Bool) (bs : Bytes)
  | fence (sc : BitVec 2) (mask : BitVec 16)
  deriving DecidableEq, Repr

/-- An access issued by A that has not performed (R195, R358), in program order. `ctx`, `att` and `stepOpen` are those
of the issue cycle (R370); `vw` the permission of the authority; `rid` the remote request once it has left; `left` the
sectors of a row access not yet performed (R359). `was` are bytes of a load that a copy has overwritten since it issued, as they were
before, by offset, each with its sector's poison and its granule's tag (06 R199). -/
structure Acc where
  id : Nat
  cls : BitVec 4
  loc : Loc
  n : Nat
  op : AccOp
  ctx : Ctx
  li : Nat
  pid : Nat
  att : BitVec 16
  stepOpen : Bool
  vers : Bool
  vw : Bool
  rid : Option (BitVec 16)
  left : List Nat
  was : List (Nat × Byte × Bool × Bool)
  deriving DecidableEq, Repr

/-! ## Engines (08) -/

/-- Attribute of a stack entry (R243). -/
inductive Attr where
  | plain
  | cap (c : Cap)
  | slot
  deriving DecidableEq, Repr

/-- A stack entry (R243). -/
structure StkEnt where
  v : W64
  attr : Attr
  deriving DecidableEq, Repr

/-- A parameter block as read (20 R465): its bits, the tags of SRC and DST, and whether a sector of it was poisoned. -/
structure Blk where
  bits : BitVec 1024
  ts : Bool
  td : Bool
  bad : Bool
  deriving DecidableEq, Repr

/-- A launched operation (R249): the launch word, its operands (deepest first), the cycle of its ENG, and what it
carries: core, context, launch, attempt, and the fence it waits behind (R131). `pid` is the piece that issued it, `eid` its place in
program order, kept when a stop fires it, `qid` the q0 entry of vndepth (R261), `rt` what a held `route` found at issue (R262), `blk` the parameter block of a
`coll` that a stop has fired, or why it could not be read (20 R465). -/
structure Op where
  id : Nat
  pid : Nat
  eid : Nat
  core : Nat
  eng : Eng
  word : BitVec 16
  args : List StkEnt
  c : Nat
  ctx : Ctx
  li : Nat
  att : BitVec 16
  stepOpen : Bool
  stop : Bool
  fence : Nat
  qid : Nat
  rt : Option Route
  blk : Option (Blk ⊕ Trap)
  deriving DecidableEq, Repr

/-- An endpoint of a copy (R251). -/
inductive End where
  | slot (n : BitVec 4)
  | mem (c : Cap)
  deriving DecidableEq, Repr

/-- A tensor handle record (16 R378), and the tile that a copy takes through it (R254). -/
structure Tensor where
  fmt : BitVec 4
  rank : Nat
  dims : List Nat
  strides : List Int
  base : W64
  win : Bool
  pad : W32
  lay : BitVec 2
  wr : Bool
  ver : Bool
  deriving DecidableEq, Repr

/-- Geometry of a copy in copy order (R253): rows of `e` bytes; strides of memory endpoints; slot record written with
the last chunk. For `ldt` and `stt`: handle index, coordinates, elements per row and whether T = 1. -/
structure Geo where
  dst : Option End
  src : Option End
  rows : Nat
  e : Nat
  ss : Int
  ds : Int
  shp : Option Shape
  gauge : Option Gauge
  h : Option (BitVec 12)
  c : List Int
  ne : Nat
  t : Bool
  fmt : BitVec 4
  deriving DecidableEq, Repr

/-- A started copy (R198 to R202, R253 to R258). `buf` holds chunks of an in-cluster copy read and not yet seen, by chunk
number, with their bytes by copy order; of a promise copy, the source sectors read so far, by address / 32, with their bytes by address.
A promise copy performs in units: `done` are those that have performed, `lost` those among them that were discarded or
failed, `acks` those whose remote write is not acknowledged; `sent` are the source sectors asked of another peer that it has not answered, `bad` those that it refused before the source was checked.
`chunks` are the chunks already added to the gauge, `seen` is 1 once the source of a slot destination is checked (R282), `stall` the
unit that waits for a translation and since when. -/
structure Copy where
  op : Op
  geo : Geo
  tensor : Option Tensor
  incl : Bool
  start : Nat
  n : Nat
  buf : List (Nat × List (Nat × Byte × Bool))
  seen : Nat
  promise : Nat
  owed : Bool
  done : List Nat
  lost : List Nat
  sent : List Nat
  bad : List (Nat × Trap)
  acks : List Nat
  chunks : List Nat
  conflict : Bool
  missed : Bool
  faulted : Bool
  stall : Option (Nat × Nat)
  deriving DecidableEq, Repr

/-- A GA operation that the engine has taken (R259). It performs in units, each of one 32-byte sector of the destination (14 R359): of a
gather the sectors of its destination, of a scatter those of each row. `idx` are the indices with their poison once they have been read,
none where one cannot be; `buf` the source sectors read, `bad` those refused, `sent` those asked of another peer; `done` the units that
have performed, `lost` those among them that were discarded or failed, `acks` those on their way to another peer; `rows` the rows that have
landed; `stall` the unit that waits for a translation and since when. -/
structure GaRun where
  op : Op
  idx : List (Option (Nat × Bool))
  buf : List (Nat × List (Nat × Byte × Bool))
  bad : List Nat
  sent : List Nat
  done : List Nat
  lost : List Nat
  acks : List Nat
  rows : List Nat
  faulted : Bool
  conflict : Bool
  stall : Option (Nat × Nat)
  deriving DecidableEq, Repr

/-- A term of a predicate (R266, R343): threshold, CON, and the number of its gauge in the table of gauges. -/
structure Term where
  tau : W32
  or_ : Bool
  g : Nat
  deriving DecidableEq, Repr

/-- A stop (R265 to R270, R313): predicate, held operation, whether the firing of the held operation is decided (it then holds nothing
from the end of the cycle), last evaluation, and the operations fired that have yet to enter their engine's queue, each with the cycle in
which that was decided. -/
structure Stop where
  terms : List Term
  held : Option Op
  going : Bool
  true_ : Bool
  fired : List (Nat × Op)
  deriving DecidableEq, Repr

/-! ## The core -/

/-- A wait at a barrier whose arrival has been counted (R99, R101): the address of its word, scope, number, round, completed, and whether its
round has failed, so that the word raises Barrier Fault (21 R508). -/
structure BarWait where
  pc : W64
  sc : BitVec 2
  n : BitVec 6
  round : BitVec 16
  done : Bool
  fail : Bool
  deriving DecidableEq, Repr

/-- Why a piece is stopped: a debugger's halt (R290, R291), a checkpoint (R284) or a kill (R288); `dead` is a failed core
that no spare has replaced (21 R502). -/
inductive Halt where
  | none | drain | freeze | checkpoint | kill | dead
  deriving DecidableEq, Repr

/-- A report waiting for S (R276), with STEPST.IN as it stood when it was raised (R273). -/
structure Report where
  trap : Trap
  ins : Bool
  deriving DecidableEq, Repr

/-- The bundle being executed (R20 to R23): whether a bundle is on, whether A is a member, whether S is a member whose word
is a branch word, and S's branch outcome. -/
structure Bundle where
  on : Bool
  hasA : Bool
  sIsBranch : Bool
  sBranch : Option Bool
  deriving DecidableEq, Repr

/-- State of the piece that a core runs: what begins afresh with each piece. `pid` names this run of the piece, also after a
restore; `rngOld` are, for each generator register, the cycles of its last writes with what it held before, the latest first (05 R167); `fpEv` are the bits of FPST that events have set in cycle `fpAt` (R64); `bar` is the wait of the program, `barH` that of the
handler (R275). -/
structure Piece where
  run : Bool
  pid : Nat
  li : Nat
  q : Nat
  wid : W64
  ctx : Ctx
  began : Nat
  onCore : Nat
  early : Option Nat
  isEarly : Bool
  stepIn : Bool
  handler : Bool
  hcl : Cl
  tcause : W64
  taddr : W64
  tpc : W64
  tvec : W64
  epc : W64
  reports : List Report
  lc : W64
  lb : W64
  le : W64
  aloop : Option LoopSt
  mloop : Option LoopSt
  loopr : Option LoopR
  rep : Option RepSt
  vwin : W64
  vwinOld : W64
  vwinAt : Nat
  vt : BitVec 16
  vtOld : BitVec 16
  vtAt : Nat
  erchk : W64
  fpst : BitVec 6
  fpEv : BitVec 6
  fpAt : Nat
  l1cfg : BitVec 2
  l1pend : Option (BitVec 2 × Nat)
  rngtid : W64
  rngcrd : W64
  rngstr : W64
  rngadv : W64
  rngOld : Map (List (Nat × W64))
  crdHist : List (Nat × W64)
  mgrant : W64
  csrRdy : Map Nat
  bar : Option BarWait
  barH : Option BarWait
  stallFrom : Nat
  stallSet : BitVec 4
  stallCode : Map (BitVec 6)
  waitl : Option Nat
  lastLand : Nat
  drained : Bool
  deriving DecidableEq, Repr

/-- A core (R10, R13, R183 to R207). `shown` is, for each slot, the cycle after that in which an output of XPOSE or EPI was last seen in it, and
the output's bytes (R239); `newc` is the newcomer (its `uid`) to which a victim's core goes (13 R352). -/
structure Core where
  pc : Piece
  cs : Strm
  ca : Strm
  cv : Strm
  cm : Strm
  g : Vector GReg 32
  a : Vector AReg 32
  m : Vector MReg 16
  i : Vector IReg 8
  tiles : Map Row
  hold : Map TileHold
  qs : Map (Queue PV)
  qr : Map (Queue RowV)
  shape : Map Shape
  slot : Map (Option Byte)
  slotPois : Map Bool
  slotSeed : Nat
  use : BitVec 16
  usePend : List (Nat × BitVec 4 × Bool)
  array : Nat
  epiUnit : Nat
  permute : Nat
  land : List Landing
  shown : Map (Nat × Nat)
  epir : List Epir
  route : Map Route
  routePend : List (Nat × Nat × Route)
  pend : List Acc
  stk : Map (List StkEnt)
  spOld : List (Nat × W64)
  arm : Map (Option Nat)
  engq : Map (List Op)
  started : Map Nat
  vcWait : Option Nat
  lastCopy : Map (Nat × Nat)
  copies : List Copy
  ga : List GaRun
  res : Res
  bundle : Bundle
  failed : Bool
  halt : Halt
  debugger : Bool
  newc : Option Nat
  deriving DecidableEq, Repr

/-! ## The cluster (11) -/

/-- A bank (R298 to R302): mode 0 cache, 1 scratchpad, 2 FIFO, 3 retired; the switch running (old mode, begin, end) and
those waiting behind it, each with the cycle of its BANKSET and its core; the cycle in which its last switch ended; the cycle in which
it last began to leave scratchpad or FIFO mode. -/
structure Bank where
  mode : BitVec 2
  cur : Option (BitVec 2 × Nat × Nat)
  wait : List (BitVec 2 × Nat × Nat)
  last : Nat
  left : Nat
  deriving DecidableEq, Repr

/-- The in-use bit of a 4 KiB block with its owner (R203). -/
structure Block where
  use : Bool
  core : Nat
  pid : Nat
  li : Nat
  pend : List (Nat × Bool × Nat × Nat × Nat)
  deriving DecidableEq, Repr

/-- A barrier of a cluster or of the device (R315, R354). -/
structure Barrier where
  round : BitVec 16
  ctx : Ctx
  open_ : Bool
  fix : BitVec 9
  arr : BitVec 9
  deriving DecidableEq, Repr

/-- A pending write of a gauge (R311): cycle in which it takes effect, 0 write, 1 set, 2 clear, value, and whether it
clears the gauge's error bit (R331). -/
structure GaugeWr where
  at_ : Nat
  kind : BitVec 2
  v : W32
  clr : Bool
  deriving DecidableEq, Repr

/-- A dirty sector of a cluster cache line (R305, R320): the cluster, the owner, and what memory held before. -/
structure Dirty where
  clu : Nat
  owner : Ctx
  old : Bytes
  oldTags : BitVec 2
  deriving DecidableEq, Repr

/-! ## The die (13) -/

/-- The launch record as copied at LAUNCH (R336, R337). -/
structure LaunchRec where
  codeS : Cap
  codeA : Cap
  codeV : Cap
  codeM : Cap
  param : Cap
  w0 : W64
  w1 : W64
  w2 : W64
  w3 : W64
  w4 : W64
  w5 : W64
  big : Bool
  deriving DecidableEq, Repr

/-- States of a launch that still has an index (R341). -/
inductive LState where
  | waiting | ready | running | frozen
  deriving DecidableEq, Repr

/-- The cut vector of a save image (R286): pushed and popped of each queue, operations started of each engine. -/
structure Cut where
  qs : List (Nat × Nat)
  started : List Nat
  deriving DecidableEq, Repr

/-- A saved image of a checkpointed piece (R285): the core's saved state, the core it ran on, CYC at save, checksum and cut vector of the
header, whether memory has damaged it since (`hit`, R287), and its core scratch: bytes by offset, and the poisoned sectors. -/
structure Saved where
  core : Core
  k : Nat
  cyc : Nat
  sum : BitVec 32
  cut : Cut
  hit : Bool
  scr : List Host.Cell
  scrBad : List Nat
  deriving DecidableEq, Repr

/-- A launch (R341 to R353). `uid` tells it from another launch that has the index later, `seq` is its rank by readiness, `deficit` the D of
each die (R347), `holds` whether its predicate held at an evaluation (R343), `inStep` whether it is inside the attempt of its context (R335), `head` the HEAD of its LAUNCH command and `given` the pieces
given on each die (21 R496). `taken` are the pieces already given to a core, `again` those that wait to run again after a kill, `saved` the
checkpointed ones, `groups` the placement of bound groups (group, cluster). -/
structure Launch where
  lr : LaunchRec
  uid : Nat
  state : LState
  stream : BitVec 6
  seq : Nat
  taken : List Nat
  again : List Nat
  saved : List Saved
  groups : List (Nat × Nat)
  earlyWait : List (Nat × Nat × Nat)
  ended : Nat
  early : Nat
  doneAdded : Bool
  deficit : Map Nat
  waitFrom : Nat
  inStep : Bool
  halted : Bool
  debugger : Bool
  holds : Bool
  head : Nat
  given : Map Nat
  deriving DecidableEq, Repr

/-- An open LOOP or IF of a stream (R332). -/
inductive Nest where
  | loop (pos : Nat) (left : Nat)
  | cond (taken : Bool) (els : Bool)
  deriving DecidableEq, Repr

/-- A deferred SIGNAL (R331): the launches it waits for, gauge, amount, host interrupt. -/
structure Signal where
  after : List Nat
  g : BitVec 8
  amt : W32
  h : Bool
  deriving DecidableEq, Repr

/-- A command stream (R329) with the state the command processor keeps for it. `skip` counts the depth of commands
passed over, `busy` the cycle in which a WRITE to a gauge completes (R514), `step` whether it has the step open and at
which nesting depth; `owed` the requests of completed launches that await their answer, `wrote` the launches that completed with writes
not yet performed, each with the identifier that the next write would have had (FENCE, R331). -/
structure Stream where
  base : W64
  size : W32
  head : W32
  tail : W32
  ctx : Ctx
  state : BitVec 8
  fcode : BitVec 8
  cmsk : BitVec 16
  nest : List Nest
  skip : Nat
  signals : List Signal
  launches : List Nat
  busy : Option Nat
  step : Option Nat
  intr : Bool
  owed : List (Nat × Nat)
  wrote : List (Nat × Nat)
  deriving DecidableEq, Repr

/-! ## Contexts and memory -/

/-- A page of a context (04 R115, 06 R196): first device-virtual address, log2 of the size, fabric physical address,
rights, versioned mark (16 R380), in-transit mark (09 R281), and whether its translation is held in the cluster's L2 TLB
of this page walk (11 R308). -/
structure Page where
  va : Nat
  sz : Nat
  pa : Nat
  r : Bool
  w : Bool
  x : Bool
  vers : Bool
  transit : Bool
  walked : Bool
  deriving DecidableEq, Repr

/-- The step state of a context (03 R102, 13 R335). `stream` opened the step, at `pos` with `nest`; `saved` are the
gauges F to F + m - 1 with their error bits. -/
structure StepSt where
  g : BitVec 16
  t : BitVec 16
  k : W64
  vf : BitVec 5
  open_ : Bool
  closed : Bool
  wait : Bool
  stok : BitVec 8
  f : Nat
  saved : List (W32 × Bool)
  stream : BitVec 6
  pos : W32
  nest : List Nest
  notes : List (Nat × Bool)
  lossCnt : Bool
  lossPend : Option W32
  deriving DecidableEq, Repr

/-- A versioned frame (16 R380): the context, the shadow frame, which of its sixteen 4 KiB parts are versioned, the scrub pass running
when a part was last marked, and the parts marked in that pass. -/
structure Frame where
  ctx : Ctx
  shadow : Nat
  born : Nat
  part : BitVec 16
  fresh : BitVec 16
  deriving DecidableEq, Repr

/-- A context's record on the device: its pages, the loss check (03 R79), the generator seed (05 R166) with its old value
for the window of R167, the step, the core set and stack region (13 R338). -/
structure CtxRec where
  pages : List Page
  losslim : W64
  lossrun : W64
  rngseed : W64
  step : StepSt
  coreSet : BitVec 384
  stk : Cap
  sz : W64
  dead : Map (Option Nat)
  lag : Nat
  knext : Option W64
  deriving DecidableEq, Repr

/-- The tables of the clusters and of the device that are indexed by number. Gauges, stops and barriers of cluster `c`
stand at `64 c + n`, `16 c + n`, `16 c + n`; those of the device at `65536 + n`. -/
structure Shared where
  banks : Map Bank
  gauge : Map W32
  gaugeWr : Map (List GaugeWr)
  gaugeHist : Map (List (Nat × W32))
  gerr : Map Bool
  stops : Map Stop
  bars : Map Barrier
  blocks : Map Block
  fifo : Map (List (Byte × Bool))
  clerr : Map W64
  spare : Map (BitVec 2)
  dirty : Map Dirty
  deriving DecidableEq, Repr

/-- The command processor and the Jig (13). `ptr` is the ring pointer of each die and level, as a rank by readiness (R347);
`promoted` are the launches at level 8, in the order of promotion (R348), `named` the trap by which the launch under an index was
last stopped, rejected or refused (09 R272). -/
structure Die where
  streams : Map Stream
  launches : Map (Option Launch)
  ptr : Map Nat
  promoted : List Nat
  seq : Nat
  named : Map (Option Trap)
  deriving DecidableEq, Repr

/-- Who moves next: a slot cluster of a core tries to issue; an event or a command happens; a stream runs its next
command; master `w` writes bytes at an offset of the host window (18 R421); one cycle passes. -/
inductive Turn where
  | issue (k : Nat) (c : Cl)
  | event (k : Nat) (i : Instr)
  | command (n : BitVec 6)
  | host (w off : Nat) (bs : Bytes)
  | tick
  deriving DecidableEq, Repr

/-! ## Remote requests and Dowel engines (19) -/

/-- Who waits for the answer to a remote request: an access of A, the write of a unit of a copy or gather, a copy or gather for a source
sector, a row of an EPIR, word `w` of a handler program being loaded, the WRITE of a command
stream, `who` for a sector that it reads or has written. -/
inductive Asker where
  | acc (k id : Nat)
  | unit (k id u : Nat)
  | src (k id sec : Nat)
  | epirRow (k id row : Nat)
  | hload (ctx : Ctx) (w : Nat)
  | cmd (n : Nat)
  | sector (who sec : Nat)
  deriving DecidableEq, Repr

/-- An outstanding remote request (R441, R442): who asked, the address, whether a value comes back, the cycle in which it left and the attempt
that it carries. -/
structure Req where
  who : Asker
  addr : Nat
  n : Nat
  ctx : Ctx
  li : Nat
  k : Nat
  ret : Bool
  sent : Nat
  att : BitVec 16
  deriving DecidableEq, Repr

/-- An operation that waits at a Dowel engine (R449): as a packet, with the arguments of a handler and, for one of this
device, the core and the access it answers. -/
structure DowelOp where
  pk : Packet
  args : List W64
  loc : Option (Nat × Nat)
  li : Nat
  at_ : Nat
  deriving DecidableEq, Repr

/-- A Dowel engine (R449, R459). -/
structure Dowel where
  q : List DowelOp
  ops : BitVec 32
  hf : BitVec 16
  lcode : BitVec 8
  lhn : BitVec 5
  deriving DecidableEq, Repr

/-- A fibre, or the lanes of a local link (R439): how many work, and the spares left. -/
structure Fibre where
  n : Nat
  sp : Nat
  deriving DecidableEq, Repr

/-- State of a link (R439, R440): flits sent again, the fibre of each direction (the lanes of a local link, in both directions, are held in
`tx` and `rx` alike), whether a spare fibre serves it, 0 down 1 up 2 degraded 3 unused. -/
structure Link where
  rty : BitVec 16
  tx : Fibre
  rx : Fibre
  sfb : Bool
  st : BitVec 2
  deriving DecidableEq, Repr

/-- A substitution (21 R500). -/
structure Subst where
  old : BitVec 12
  sub : BitVec 12
  deriving DecidableEq, Repr

/-- A fill of a spare that this device knows of (21 R505): the context, the lost rank and its peer, the spare, the
source. -/
structure Fill where
  ctx : Ctx
  rank : BitVec 12
  lost : BitVec 12
  spare : BitVec 12
  src : BitVec 12
  done : Nat
  deriving DecidableEq, Repr

/-! ## Collectives and Veneer (20) -/

/-- Bytes of a contribution: the rank it comes from, the offset within what that rank contributes to this member, the
bytes, and one poison bit for each byte. -/
structure Contrib where
  rank : Nat
  off : Nat
  bs : Bytes
  p : List Bool
  deriving DecidableEq, Repr

/-- An active collective (R465 to R468). `hs` and `hd` are the handles of space 4 buffers, `read` the chunks of
SRC read, `done` the 32-byte sectors of DST that have performed, `acks` those on their way to another peer (the number in its answer, the sector of DST), `ownTiles` the DST tiles whose planes this member sends and has begun, `unacked` the ranks to which data went and how many packets they have not acknowledged, `last` the cycle from
which this member waits on another, `conflict` whether a Landing Conflict has been raised. -/
structure Coll where
  id : Nat
  op : Op
  blk : BitVec 1024
  src : Cap
  dst : Cap
  hs : Option Tensor
  hd : Option Tensor
  grp : W64
  rank : Nat
  alg : Nat
  read : Nat
  recv : List Contrib
  done : List Nat
  acks : List (Nat × Nat)
  ownTiles : List Nat
  unacked : List (Nat × Nat)
  last : Nat
  conflict : Bool
  deriving DecidableEq, Repr

/-- One destination of a tile that is being sent by planes: the limit it has reported and the planes it has
acknowledged (R479, R480). -/
structure VnDest where
  peer : BitVec 12
  lim : Nat
  ack : Nat
  deriving DecidableEq, Repr

/-- A tile being sent (R475): its canonical content, whether a sector was poisoned, the next plane, its destinations. -/
structure VnTile where
  t : Nat
  addr : BitVec 57
  mark : BitVec 64
  els : List Nat
  p : Bool
  next : Nat
  dests : List VnDest
  deriving DecidableEq, Repr

/-- A Veneer send (R479): a `vnsend`, or the planes of a collective (`coll`). `read` is the next tile to be read, `done` the
tiles complete. -/
structure VnSend where
  id : Nat
  op : Op
  coll : Option Nat
  fp : Bool
  n : Nat
  read : Nat
  tiles : List VnTile
  done : Nat
  xfer : Nat
  faulted : Bool
  deriving DecidableEq, Repr

/-- States of a Veneer table entry (R477). -/
inductive VnState where
  | pending | open_ | full | cut
  deriving DecidableEq, Repr

/-- An entry of the Veneer table (R477): the tile's physical address, format, limit, depth, CUT bit, and the transfer that
owns it (source peer and transfer number, with the address, flags, context and attempt of its planes; `coll` is the collective of this device
that receives it). `cur` is the plane being written into a tile on another peer, `acks` its sectors that the home has not answered. The table is
in order of creation. -/
structure VnEnt where
  tile : Nat
  fp : Bool
  lim : Nat
  d : Nat
  cut : Bool
  st : VnState
  src : BitVec 12
  xfer : Nat
  addr : BitVec 57
  mark : BitVec 64
  ctx : Ctx
  att : BitVec 16
  coll : Option Nat
  cur : Option Packet
  acks : List Nat
  deriving DecidableEq, Repr

/-! ## Glue-up and Scribe (21) -/

/-- A vote received from a child (R487). -/
structure Vote where
  rank : Nat
  k : W64
  att : BitVec 16
  vf : BitVec 5
  cnt : Nat
  deriving DecidableEq, Repr

/-- A handler program being loaded (19 R452): the next word to read and the words read. -/
structure HLoad where
  hn : BitVec 5
  adr : W64
  n : Nat
  words : List W32
  deriving DecidableEq, Repr

/-- The fabric state of a context on the device: collective groups (R461), glue-up (R485 to R494), handler programs (R452),
fabric barriers' trees (R508), Scribe log (R496 to R499). `bars` maps a fabric barrier to the children that have arrived
for the open round, `barSent` to whether this device has sent. `heard` is the cycle in which each rank was last heard, `heardFrom`
that in which GLUCFG was written; `notices` are ranks reported lost and not yet declared so; `cut` says that this device has been
silenced (R501). -/
structure GCtx where
  grp : Map W64
  nseq : Map W32
  nseqOld : Map W32
  vncfg : W64
  prog : Map (List W32)
  dwload : W64
  hload : Option HLoad
  herr : BitVec 3
  hwidx : BitVec 6
  glucfg : W64
  fillb : W64
  abrt : BitVec 16
  gdec : W64
  st : BitVec 4
  lost : List Nat
  votes : List Vote
  voted : Bool
  vetoed : Bool
  notices : List Nat
  cut : Bool
  heardFrom : Nat
  closedAt : Nat
  vfAt : Nat
  heard : Map Nat
  kaAt : Nat
  bars : Map (List (Nat × W64))
  barSent : Map Bool
  scrcfg : W64
  scrw : W64
  scrh : W64
  scrr : W64
  dkind : BitVec 8
  dunit : BitVec 8
  sfull : Bool
  sdiv : Bool
  sbar : Bool
  sheld : Map Nat
  rpl : Bool
  smark : Nat
  ssrc : Option (Nat × Nat)
  snext : Option (Nat × Nat)
  spos : Map Nat
  sord : Map Nat
  deriving DecidableEq, Repr

/-- A packet that waits aside: since when, and whether later ones of its flow wait behind it (14 R370, R361, R362), as they do not behind one
that waits for the start of a collective (22 R510) or for an entry of the Veneer table (20 R477). -/
structure Held where
  at_ : Nat
  flow : Bool
  pk : Packet
  deriving DecidableEq, Repr

/-- A sector of another peer's memory that has come for `who`, or the acknowledgement of its write: its number (address over 32), bytes,
poison, granule tags, or why it could not be read or written. -/
structure Got where
  who : Nat
  sec : Nat
  bs : Bytes
  bad : Bool
  tags : BitVec 2
  fault : Option Trap
  deriving DecidableEq, Repr

/-- A multicast flit group in the replication buffer (R447): its flits, and the copies that their branches have not taken. -/
structure McEnt where
  flits : Nat
  left : List Packet
  deriving DecidableEq, Repr

/-- The fabric state of the device. `rows` are the parts of EPIR rows that have performed here, each by its sender, context, SEQ, row and
EPIR, by which a part sent again is dropped (07 R231). `out` are packets that have left and that nothing has yet delivered, oldest first;
`held` packets that wait aside here, `got` what has come for units that access other peers' memory, `mcBuf` the replication buffer (R447), `mcWait`
whether a new multicast has waited on it in this cycle. -/
structure Fab where
  groups : BitVec 8
  members : BitVec 6
  tout : BitVec 16
  disc : BitVec 16
  spf : Nat
  links : Map Link
  out : List Packet
  seqOut : Map (BitVec 32)
  seqIn : Map (BitVec 32)
  req : Map (Option Req)
  held : List Held
  got : List Got
  rows : List (BitVec 12 × Ctx × Nat)
  dowel : Map Dowel
  mcStl : W32
  mcBuf : List McEnt
  mcWait : Bool
  colls : List Coll
  cflt : BitVec 16
  clcode : BitVec 8
  clgrp : BitVec 4
  clalg : BitVec 2
  sends : List VnSend
  vns : List VnEnt
  vdisc : BitVec 16
  vcanc : BitVec 16
  vconf : BitVec 16
  subs : List Subst
  fills : List Fill
  fillSt : W64
  gctx : Map GCtx
  deriving DecidableEq, Repr

/-! ## Mortise, Dovetail (17) -/

/-- States of an episode record (R402); a free record is not listed. -/
inductive EpSt where
  | open_ | complete | windowed
  deriving DecidableEq, Repr

/-- An episode record (R395). `seq` orders completions, `win` is the cycle in which it became windowed. -/
structure Episode where
  tid : W64
  valp : Nat
  rwdp : Nat
  rbmp : Nat
  advp : Nat
  deadline : W64
  polv : W32
  boot : W32
  bootBad : Bool
  len : Nat
  nval : Nat
  nrec : Nat
  st : EpSt
  tz : Bool
  nf : Bool
  term : Bool
  seq : Nat
  win : Nat
  deriving DecidableEq, Repr

/-- A reward message (R398). -/
structure Reward where
  tid : W64
  t : BitVec 12
  r : W32
  term : Bool
  deriving DecidableEq, Repr

/-- A commit whose release is still to come (R405): its STEPNUM, its decision cycle, and MOLAG and ICUR as they stood once it was applied. -/
structure Await where
  stepk : W64
  now : Nat
  lag : W64
  icur : W32
  deriving DecidableEq, Repr

/-- A scan that has started (R403): the place of its episode, its outputs, and the done bit of the last step. -/
structure Scan where
  at_ : Nat
  out : List (Nat × Nat)
  last : Bool
  deriving DecidableEq, Repr

/-- The Mortise (R394 to R408). `table` is keyed by 16 times the set plus the way; `await` is a commit whose release a replay (21 R498) or
a page in transit holds back, `scan` a scan whose outputs wait for such a page. -/
structure Mortise where
  cfg : W64
  ifb : W64
  parm : W64
  lag : W64
  icur : W32
  rc : W32
  dryLag : Option W64
  dryIcur : Option W32
  table : Map (Option Episode)
  orph : List Reward
  await : Option Await
  scan : Option Scan
  seq : Nat
  dup : W32
  rel : W32
  orpl : W32
  orphN : W32
  tzr : W32
  tout : W32
  refuse : W32
  stale : W32
  deriving DecidableEq, Repr

/-- The Dovetail (R409 to R420). `cur` is the launch of the entry before POS until it is early, `live` the launches not
retired with their entries, `old` what an abort restores: POS, slots, FREE of the four links; `was` says that the table has been inside the
open attempt (R418, 16 R387); `fired` is the cycle at whose end every condition of the entry at POS held (R413); `owed` are entries that a
Stash Overflow concerned and whose launch has yet to complete as faulted (R419). -/
structure Dove where
  ctx : Ctx
  code : BitVec 8
  st : BitVec 3
  ina : Bool
  n : Nat
  pos : Nat
  ents : List (BitVec 128)
  nst : BitVec 7
  lrb : W64
  links : Map W64
  slots : Map (BitVec 2)
  bub : Map W64
  cur : Option Nat
  live : List (Nat × BitVec 128)
  old : Option (Nat × Map (BitVec 2) × List (BitVec 16))
  restore : Option Nat
  was : Bool
  fired : Option Nat
  owed : List (BitVec 128)
  deriving DecidableEq, Repr

/-! ## The package (18) -/

/-- A received frame whose writes to other peers are not all answered (R432): its bytes, its priority, FL of its descriptor, and whether that
has been written back. -/
structure RxBusy where
  len : Nat
  pr : Nat
  fl : Nat
  back : Bool
  deriving DecidableEq, Repr

/-- An Ethernet ring (R429). `full`: TAIL is SIZE descriptors ahead of HEAD (R430); `stop`: it is disabled once the frame in progress is
finished; `rx`: a received frame on its way to other peers. -/
structure EthRing where
  base : W64
  size : W32
  head : W32
  tail : W32
  ctx : Ctx
  en : Bool
  ga : BitVec 8
  gv : Bool
  pri : BitVec 8
  full : Bool
  stop : Bool
  rx : Option RxBusy
  deriving DecidableEq, Repr

/-- A port (R428, R433): link, counters, priorities paused by the partner, priorities this device pauses, and the next
transmit ring by round robin. -/
structure EthPort where
  rxf : W32
  txf : W32
  fcs : BitVec 16
  drop : BitVec 16
  poi : BitVec 16
  db : BitVec 8
  flt : BitVec 8
  paused : BitVec 8
  pausing : BitVec 8
  rr : BitVec 2
  deriving DecidableEq, Repr

/-- Counters of a stack (16 R392). -/
structure Stack where
  sch : Bool
  ret : BitVec 16
  ue : BitVec 16
  ce : BitVec 16
  deriving DecidableEq, Repr

/-- A frame that a ring has taken and not yet written back (R431): its descriptors' indices, whether each takes ERR, and the bytes on the wire,
FCS included; none for a frame that is not sent. -/
structure TxBusy where
  first : Nat
  n : Nat
  err : Bool
  sent : Option Bytes
  deriving DecidableEq, Repr

/-- Entries of repair map updates that wait for the next boot (R425): spare channels that leave service, and the physical core that holds a
logical index. -/
structure RepairKept where
  outCh : BitVec 12
  cores : List (Nat × BitVec 4)
  deriving DecidableEq, Repr

/-- The package: `moved` says where the content of a retired frame now lies (16 R388), `phys` which physical core of its cluster holds a
logical index, `noSpare` the clusters whose spare core the repair map has used (11 R297). Ownership (R422): `own` are the OWNCMD writes of
this cycle, which are applied in ascending master to `ownWas`, OWNER and PEND as the cycle began; `ownDown` is an owner whose link is down
while a request of it runs. Mailbox (R423): status, the master and code of a request that is busy, and the bytes; `intr` are the functions
whose host interrupt is raised (R421), `ethdb` the window's ETHDB. Boot (R424 to R427), with the images that are being loaded; `wire` are the
frames sent by each port, `kept` what the next boot applies (R425), power (R434), stacks, tensor handles (16 R378), scrub (16 R386), Ethernet (R428 to R433), Mortise and Dovetail. `quote` is the
content of the last quote and its signature. -/
structure Pkg where
  owner : BitVec 8
  pend : BitVec 8
  own : List (Nat × Nat × BitVec 8)
  ownWas : BitVec 8 × BitVec 8
  ownDown : Option Nat
  intr : BitVec 16
  mail : BitVec 32
  req : Option (Nat × Nat)
  mbox : Bytes
  ethdb : W64
  bootst : W64
  booting : Option BootImages
  vfw : W32
  vcfg : W32
  vrm : W32
  vmin : W32
  meas : Map (BitVec 256)
  quote : Option (Bytes × BitVec 768)
  pcap : BitVec 16
  pwr : BitVec 16
  mhz : BitVec 16
  temp : Map (BitVec 16)
  off : Bool
  hbms : Map Stack
  pfree : W32
  inst : BitVec 29
  retired : Map Bool
  moved : Map (Option Nat)
  pass : W32
  seen : Map Bool
  handles : Map (BitVec 512)
  rings : Map EthRing
  ports : Map EthPort
  ethUp : BitVec 16
  ethTx : Map (List TxBusy)
  dbPend : List (Nat × W64 × Option Ctx)
  wire : List (Nat × Bytes)
  phys : Map (BitVec 4)
  noSpare : BitVec 48
  kept : RepairKept
  mo : Mortise
  dv : Dove
  deriving DecidableEq, Repr


/-- Faults of the model: points where a run cannot go on. No meaning of an instruction raises one. -/
inductive Fault where
  /-- Raised by a step whose agenda names a core that the device does not have (safe: the run stops). -/
  | noSuchCore
  deriving DecidableEq, Repr

/-- Refusals of the model. -/
inductive Refusal where
  /-- The instruction has no meaning yet; raised by its arm of exec only (safe). -/
  | notModelled (mnemonic : String)
  deriving DecidableEq, Repr

/-! ## Reset -/

/-- The null capability (04 R108). -/
def nullCap : Cap := ⟨false, 0⟩

/-- An inactive stream. -/
def Strm.reset : Strm := ⟨false, nullCap, 0, 0, 0, 0, []⟩

/-- No LOOP, handler, report or wait; every control register of the piece at its reset value (R16, R40, R63, R86, R88,
R102, R166, R193, R235, R273). LB and LE, for which the rules give none, are 0 (log entry 3). -/
def Piece.reset : Piece :=
  { run := false, pid := 0, li := 0, q := 0, wid := 0, ctx := 0, began := 0, onCore := 0, early := none, isEarly := false,
    stepIn := false, handler := false, hcl := .s, tcause := 0, taddr := 0, tpc := 0, tvec := 0,
    epc := 0, reports := [], lc := 0, lb := 0, le := 0, aloop := none, mloop := none, loopr := none, rep := none,
    vwin := 0, vwinOld := 0, vwinAt := 0, vt := 0, vtOld := 0, vtAt := 0, erchk := 0, fpst := 0, fpEv := 0, fpAt := 0, l1cfg := 0,
    l1pend := none, rngtid := 0, rngcrd := 0, rngstr := 1, rngadv := 0, rngOld := [],
    crdHist := [], mgrant := 0, csrRdy := [], bar := none, barH := none, stallFrom := 0, stallSet := 0, stallCode := [], waitl := none,
    lastLand := 0, drained := false }

/-- A core with no piece: registers, queues, tiles and slots as at piece start (R13, R188, R191). -/
def Core.reset : Core :=
  { pc := Piece.reset, cs := Strm.reset, ca := Strm.reset, cv := Strm.reset, cm := Strm.reset,
    g := Vector.replicate 32 ⟨0, false, 0⟩, a := Vector.replicate 32 ⟨nullCap, false, 0⟩,
    m := Vector.replicate 16 ⟨0, 0⟩, i := Vector.replicate 8 ⟨0, 0⟩, tiles := [], hold := [], qs := [], qr := [],
    shape := [], slot := [], slotPois := [], slotSeed := 0, use := 0, usePend := [], array := 0, epiUnit := 0,
    permute := 0, land := [], shown := [], epir := [], route := [], routePend := [], pend := [], stk := [], spOld := [], arm := [], engq := [],
    started := [], vcWait := none, lastCopy := [], copies := [], ga := [], res := .issued, bundle := ⟨false, false, false, none⟩,
    failed := false, halt := .none, debugger := false, newc := none }

/-- No step open; G = 0 and T = 1 (R102). -/
def StepSt.reset : StepSt :=
  { g := 0, t := 1, k := 0, vf := 0, open_ := false, closed := false, wait := false, stok := 0, f := 0, saved := [],
    stream := 0, pos := 0, nest := [], notes := [], lossCnt := false, lossPend := none }

/-- A context with nothing installed; LIM and RHO, seed, G and T as R79, R102 and R166 give them. The stack region
capability is null and SZ 0 until the owner supplies them (log entry 3). -/
def CtxRec.reset : CtxRec :=
  { pages := [], losslim := 0x7F800000, lossrun := 0, rngseed := 0, step := StepSt.reset, coreSet := 0, stk := nullCap,
    sz := 0, dead := [], lag := 0, knext := none }

/-- Every bank in cache mode, every gauge 0, no predicate, no round open (R298, R309, R313, R315). Two spare banks are
left in each cluster (R321: from the repair map; log entry 3). -/
def Shared.reset : Shared :=
  { banks := [], gauge := [], gaugeWr := [], gaugeHist := [], gerr := [], stops := [], bars := [], blocks := [],
    fifo := [], clerr := [], spare := [], dirty := [] }

/-- No stream described, no launch accepted (R329, R333). -/
def Die.reset : Die := { streams := [], launches := [], ptr := [], promoted := [], seq := 0, named := [] }

/-- Registers and table of the Mortise at reset (17 R394): LVER 0, MAXLAG 0x7FFF_FFFF. -/
def Mortise.reset : Mortise :=
  { cfg := 0, ifb := 0, parm := 0, lag := 0x7FFFFFFF00000000, icur := 0, rc := 0, dryLag := none, dryIcur := none,
    table := [], orph := [], await := none, scan := none, seq := 0, dup := 0, rel := 0, orpl := 0, orphN := 0, tzr := 0, tout := 0,
    refuse := 0, stale := 0 }

/-- The Dovetail at reset (17 R410): NST 64, no table. -/
def Dove.reset : Dove :=
  { ctx := 0, code := 0, st := 0, ina := false, n := 0, pos := 0, ents := [], nst := 64, lrb := 0, links := [],
    slots := [], bub := [], cur := none, live := [], old := none, restore := none, was := false, fired := none, owed := [] }

/-- The package at reset: no owner (18 R422), boot ROM (R427), cap 5,000 W and clock 1,900 MHz (R434). The spare pool, the
spare channels and the installed frames come from the images of the boot and are 0 until then (R392; log entry 3). -/
def Pkg.reset : Pkg :=
  { owner := 0xFF, pend := 0xFF, own := [], ownWas := (0xFF, 0xFF), ownDown := none, intr := 0, mail := 0, req := none,
    mbox := [], ethdb := 0, bootst := 0, booting := none, vfw := 0, vcfg := 0, vrm := 0, vmin := 0,
    meas := [], quote := none, pcap := 5000, pwr := 0, mhz := 1900, temp := [], off := false, hbms := [], pfree := 0,
    inst := 0, retired := [], moved := [], pass := 0, seen := [], handles := [], rings := [],
    ports := [], ethUp := 0, ethTx := [], dbPend := [], wire := [], phys := [], noSpare := 0,
    kept := ⟨0, []⟩, mo := Mortise.reset, dv := Dove.reset }

/-- The fabric state of a context at reset (20 R483, 21 R486, R497: LSZ 8). -/
def GCtx.reset : GCtx :=
  { grp := [], nseq := [], nseqOld := [], vncfg := 0, prog := [], dwload := 0, hload := none, herr := 0, hwidx := 0,
    glucfg := 0, fillb := 0, abrt := 0, gdec := 0, st := 0, lost := [], votes := [], voted := false, vetoed := false,
    notices := [], cut := false, heardFrom := 0, closedAt := 0, vfAt := 0, heard := [], kaAt := 0, bars := [], barSent := [], scrcfg := 8, scrw := 0,
    scrh := 0, scrr := 0, dkind := 0, dunit := 0, sfull := false, sdiv := false, sbar := false, sheld := [], rpl := false, smark := 0,
    ssrc := none, snext := none, spos := [], sord := [] }

/-- The fabric at reset (19 R438, R440, R448): sixteen spare fibres. Groups and members come from the configuration image
and are 0 until the boot (log entry 3). -/
def Fab.reset : Fab :=
  { groups := 0, members := 0, tout := 0, disc := 0, spf := 16, links := [], out := [], seqOut := [], seqIn := [],
    req := [], held := [], got := [], rows := [], dowel := [], mcStl := 0, mcBuf := [], mcWait := false, colls := [], cflt := 0, clcode := 0, clgrp := 0,
    clalg := 0, sends := [], vns := [], vdisc := 0, vcanc := 0, vconf := 0, subs := [], fills := [], fillSt := 0,
    gctx := [] }

/-- What the device held at the end of cycle `cyc`, kept while a read of a control register may still return it (R312). -/
structure Past where
  cyc : Nat
  shr : Shared
  die : Die
  ctxs : Map CtxRec
  pkg : Pkg
  fab : Fab
  deriving DecidableEq, Repr

/-- The state of the device. `k` is the package-wide logical index of the core in focus (R338). HBM of this device is
keyed by its device-local physical address, SRAM of cluster c by 2^45 + c 2^25 + offset, core scratch of core x by
2^46 + x 2^17 + offset. `turns` says, for each resource that serves one agent after another in a cycle, whose turn it is in
this cycle: agents of lower index can no longer be served in it. -/
structure State where
  cyc : Nat
  nonce : Nat
  nextId : Nat
  k : Nat
  core : Core
  others : Map Core
  agenda : List Turn
  rota : Nat
  mem : List Host.Cell
  tags : Map Bool
  pois : Map Bool
  frames : Map (Option Frame)
  leafTag : Map (BitVec 16)
  walks : List (Ctx × Nat)
  shr : Shared
  die : Die
  ctxs : Map CtxRec
  peer : BitVec 12
  pkg : Pkg
  fab : Fab
  past : List Past
  turns : Map Nat
  deriving DecidableEq, Repr

/-- The device right after reset. -/
def State.reset : State :=
  { cyc := 0, nonce := 0, nextId := 1, k := 0, core := Core.reset, others := [], agenda := [], rota := 0, mem := [],
    tags := [], pois := [], frames := [], leafTag := [], walks := [], shr := Shared.reset, die := Die.reset, ctxs := [],
    peer := 0, pkg := Pkg.reset, fab := Fab.reset, past := [], turns := [] }

end Sys2Proof.Machine
end

