-- ==== Sys2Proof/Machine/Operands.lean ====
section
/-! DEFINITION. Operand forms: the fields and bounds of a capability (04 R108 to R113), shift and carry-less products
(03 R74, R76), lanes and lane patterns of a row (05 R147, 01 R29), packed elements (02 R52), the coordinate generator
(05 R168). -/
namespace Sys2Proof.Machine

/-! ## Sparse tables -/

/-- The entry of key `k`, or the default. -/
def Map.get {α : Type} (d : α) : Map α → Nat → α
  | [], _ => d
  | (j, v) :: r, k => if j = k then v else Map.get d r k

/-- The table without key `k`. -/
def Map.erase {α : Type} : Map α → Nat → Map α
  | [], _ => []
  | (j, v) :: r, k => if j = k then Map.erase r k else (j, v) :: Map.erase r k

/-- Insertion at the key's place in the order. -/
def Map.insert {α : Type} (k : Nat) (v : α) : Map α → Map α
  | [] => [(k, v)]
  | (j, w) :: r => if k < j then (k, v) :: (j, w) :: r else (j, w) :: Map.insert k v r

/-- The table with `v` at key `k`; an entry equal to the default is not listed. -/
def Map.set {α : Type} [DecidableEq α] (d : α) (m : Map α) (k : Nat) (v : α) : Map α :=
  if v = d then m.erase k else Map.insert k v (m.erase k)

/-- A table with every value changed, in canonical form. -/
def Map.mapVals {α : Type} [DecidableEq α] (d : α) (f : α → α) (m : Map α) : Map α :=
  m.foldr (fun e r => Map.set d r e.1 (f e.2)) []

/-- The canonical form of a table. -/
def Map.wf {α : Type} [DecidableEq α] (d : α) : Map α → Bool
  | [] => true
  | [(_, v)] => v != d
  | (j, v) :: (k, w) :: r => v != d && decide (j < k) && Map.wf d ((k, w) :: r)

/-- Values in key order. -/
def Map.vals {α : Type} (m : Map α) : List α := m.map Prod.snd

/-! ## Fields -/

/-- Bits [lo + w - 1 : lo] of a 64-bit word, as a number. -/
def bitsOf (v : W64) (lo w : Nat) : Nat := v.toNat / 2 ^ lo % 2 ^ w

/-- Field `w` bits wide at `lo` of a number. -/
def nb (n lo w : Nat) : Nat := n / 2 ^ lo % 2 ^ w

/-- Byte `i` of a number. -/
def byteOf (n i : Nat) : Byte := BitVec.ofNat 8 (n / 2 ^ (8 * i))

/-- The `n` low bytes of a number, least significant first (00 R2). -/
def bytesLE (n x : Nat) : Bytes := (List.range n).map (byteOf x)

/-- A little-endian byte string as a number (00 R2). -/
def natLE : Bytes → Nat
  | [] => 0
  | b :: r => b.toNat + 256 * natLE r

end Sys2Proof.Machine

namespace Sys2Proof
open Machine

/-! ## Capabilities (R108 to R113) -/

def Cap.cur (c : Cap) : Nat := nb c.bits.toNat 0 64
def Cap.m (c : Cap) : Nat := nb c.bits.toNat 64 21
def Cap.b (c : Cap) : Nat := nb c.bits.toNat 85 21
def Cap.e (c : Cap) : Nat := nb c.bits.toNat 106 6
def Cap.prm (c : Cap) : Nat := nb c.bits.toNat 112 12
def Cap.spc (c : Cap) : Nat := nb c.bits.toNat 124 4

/-- Permission bits of R109. -/
def Cap.has (c : Cap) (bit : Nat) : Bool := c.prm / 2 ^ bit % 2 == 1

def pL : Nat := 0
def pS : Nat := 1
def pX : Nat := 2
def pLc : Nat := 3
def pSc : Nat := 4
def pAt : Nat := 5
def pEn : Nat := 6
def pRm : Nat := 7
def pVw : Nat := 8
def pGb : Nat := 9
def pBk : Nat := 10
def pSp : Nat := 11

/-- Base and limit of R110. The limit may exceed 2^64 - 1. -/
def Cap.bounds (c : Cap) : Nat × Nat :=
  if c.e > 43 then (c.cur, c.cur)
  else
    let w := c.e + 21
    let hi : Int := (c.cur / 2 ^ w : Nat)
    let hi := if c.cur / 2 ^ c.e % 2 ^ 21 < c.b then hi - 1 else hi
    let base := ((hi * 2 ^ w + c.b * 2 ^ c.e : Int) % (2 ^ 64 : Int)).toNat
    (base, base + c.m * 2 ^ c.e)

/-- Replace the cursor. -/
def Cap.withCur (c : Cap) (v : W64) : Cap := ⟨c.tag, (c.bits >>> 64 <<< 64) ||| v.zeroExtend 128⟩

/-- A cursor change under R111: the tag is kept only inside the representable window. -/
def Cap.move (c : Cap) (v : W64) : Cap :=
  let base := c.bounds.1
  let keep := c.tag && decide (base ≤ v.toNat) && decide (v.toNat < base + 2 ^ (c.e + 21))
  ⟨keep, (c.withCur v).bits⟩

/-- An untagged value with [127:64] = 0. -/
def plainCap (v : W64) : Cap := ⟨false, v.zeroExtend 128⟩

/-- Ceiling of a quotient. -/
def cdiv (a b : Nat) : Nat := (a + b - 1) / b

/-- The least exponent of R112 among `n` to 43. -/
def boundsExp (rb rl : Nat) : Nat → Nat → Option Nat
  | 0, _ => none
  | fuel + 1, e =>
    if cdiv (rb + rl) (2 ^ e) - rb / 2 ^ e ≤ 2 ^ 21 - 1 then some e else boundsExp rb rl fuel (e + 1)

/-- The grant of R112 for [rb, rb + rl): capability with the new E, B, M and cursor, and the granted bounds. -/
def Cap.request (c : Cap) (rb rl : Nat) : Option (Cap × Nat × Nat) :=
  match boundsExp rb rl 44 0 with
  | none => none
  | some e =>
    let lo := rb / 2 ^ e
    let hi := cdiv (rb + rl) (2 ^ e)
    let m := if rl = 0 then 0 else hi - lo
    let n := (c.spc * 2 ^ 12 + c.prm) * 2 ^ 112 + e * 2 ^ 106 + lo % 2 ^ 21 * 2 ^ 85 + m * 2 ^ 64 + rb
    some (⟨c.tag, BitVec.ofNat 128 n⟩, lo * 2 ^ e, (lo + m) * 2 ^ e)

end Sys2Proof

namespace Sys2Proof.Machine

/-! ## Integer forms -/

/-- Low `n` bits sign-extended (R8). -/
def exts {w : Nat} (v : BitVec w) : Int := v.toInt

/-- A cursor plus a signed offset, exact. -/
def eaOf (c : Cap) (off : Int) : Int := (c.cur : Int) + off

/-- 64-bit pattern of an integer. -/
def w64 (i : Int) : W64 := BitVec.ofInt 64 i

/-- The carry-less product (R76), over the low `n` bits of `b`. -/
def clmulAux (a b : Nat) : Nat → Nat
  | 0 => 0
  | n + 1 => clmulAux a b n ^^^ (if b.testBit n then a * 2 ^ n else 0)

def clmulNat (a b : Nat) : Nat := clmulAux a b 64

/-- Number of ones among the low `n` bits. -/
def popNat (x : Nat) : Nat → Nat
  | 0 => 0
  | n + 1 => popNat x n + (if x.testBit n then 1 else 0)

/-- Leading zeros of a 64-bit value (R74). -/
def clz64 (x : Nat) : Nat := if x = 0 then 64 else 63 - Nat.log2 x

/-- Trailing zeros: the first set bit from `i` on, within `n` bits. -/
def ctzAux (x : Nat) : Nat → Nat → Nat
  | 0, i => i
  | n + 1, i => if x.testBit i then i else ctzAux x n (i + 1)

def ctz64 (x : Nat) : Nat := ctzAux x 64 0

/-- Bit reversal of the low `n` bits. -/
def brevAux (x : Nat) : Nat → Nat
  | 0 => 0
  | n + 1 => 2 * brevAux x n + (if x.testBit n then 1 else 0)

def brev64 (x : Nat) : Nat := brevAux x 64

/-- Byte reversal. -/
def bswap64 (x : Nat) : Nat := natLE (bytesLE 8 x).reverse

/-- Rotate right of 64 bits. -/
def rotr64 (x : W64) (n : Nat) : W64 := x.rotateRight (n % 64)

/-! ## Lanes -/

/-- Lane `j` of width `w`. -/
def lane (w : Nat) (r : BitVec 2048) (j : Nat) : Nat := r.toNat / 2 ^ (w * j) % 2 ^ w

/-- Lanes packed from the lowest (R147). -/
def packLanes (w : Nat) : List Nat → Nat
  | [] => 0
  | x :: r => x % 2 ^ w + 2 ^ w * packLanes w r

/-- A row of the given lanes. -/
def rowOf (w : Nat) (ls : List Nat) : BitVec 2048 := BitVec.ofNat 2048 (packLanes w ls)

/-- The source lane of a result lane under a lane pattern (R29), within blocks of 32. -/
def patLane (mod : BitVec 4) (j : Nat) : Nat :=
  let i := j % 32
  let s :=
    match mod.toNat with
    | 0 => i
    | 1 => (i + 1) % 32
    | 2 => (i + 8) % 32
    | 3 => 31 - i
    | 4 => i ^^^ 1
    | 5 => i ^^^ 2
    | 6 => i ^^^ 4
    | 7 => i ^^^ 7
    | n => n - 8
  j - i + s

/-- Bit `j` of a mask (R15). -/
def mbit (m : BitVec 256) (j : Nat) : Bool := m.toNat.testBit j

/-- A mask from its bits, lowest first. -/
def maskOf (bs : List Bool) : BitVec 256 := BitVec.ofNat 256 (packLanes 1 (bs.map Bool.toNat))

/-- Poison bits from a list, lowest first. -/
def poisOf (bs : List Bool) : BitVec 64 := BitVec.ofNat 64 (packLanes 1 (bs.map Bool.toNat))

/-- Containers that bits [lo, lo + w) of a row touch carry poison. -/
def poisAt (p : BitVec 64) (lo w : Nat) : Bool :=
  (List.range ((lo + w - 1) / 32 - lo / 32 + 1)).any (fun k => p.toNat.testBit (lo / 32 + k))

/-! ## Packed elements (R52) -/

/-- Element `i` of `b` bits in a byte string packed by R52. -/
def elemAt (b : Nat) (bs : Bytes) (i : Nat) : Nat :=
  natLE ((bs.drop (b * i / 8)).take ((b * i % 8 + b + 7) / 8)) / 2 ^ (b * i % 8) % 2 ^ b

/-- Elements of `b` bits packed into bytes, the last byte filled with zero bits. -/
def packElems (b : Nat) (es : List Nat) : Bytes := bytesLE (cdiv (b * es.length) 8) (packLanes b es)

/-! ## The coordinate generator (05 R168) -/

def rotl32 (x : W32) (n : Nat) : W32 := x.rotateLeft n

/-- One round's mixing. -/
def kerfMix (x : W32 × W32 × W32 × W32) : W32 × W32 × W32 × W32 :=
  let (a, b, c, d) := x
  let a := a + b; let d := rotl32 (d ^^^ a) 16
  let c := c + d; let b := rotl32 (b ^^^ c) 12
  let a := a + b; let d := rotl32 (d ^^^ a) 8
  let c := c + d; let b := rotl32 (b ^^^ c) 7
  (a, b, c, d)

/-- The key addition of round `r`. -/
def kerfKey (k : Nat → W32) (r : Nat) (x : W32 × W32 × W32 × W32) : W32 × W32 × W32 × W32 :=
  (x.1 + k (r % 4), x.2.1 + k ((r + 1) % 4), x.2.2.1 + k ((r + 2) % 4), x.2.2.2 + k ((r + 3) % 4))

def kerf (seed step : W64) (tid : W32) (q : Nat) : W32 × W32 × W32 × W32 :=
  let k (i : Nat) : W32 :=
    match i with
    | 0 => seed.truncate 32
    | 1 => (seed >>> 32).truncate 32
    | 2 => step.truncate 32
    | _ => (step >>> 32).truncate 32
  let x := (BitVec.ofNat 32 q, BitVec.ofNat 32 (q / 2 ^ 32), tid, 0x6B657266#32)
  let x := kerfMix (kerfKey k 0 x)
  let x := kerfMix (kerfKey k 1 x)
  let x := kerfMix (kerfKey k 2 x)
  let x := kerfMix (kerfKey k 3 x)
  kerfKey k 4 x

/-- The draw at a coordinate (R167). -/
def kerfDraw (seed step : W64) (tid : W32) (c : Nat) : W32 :=
  let (a, b, cc, d) := kerf seed step tid (c / 4)
  match c % 4 with
  | 0 => a
  | 1 => b
  | 2 => cc
  | _ => d

/-- Whether a gauge value meets a threshold (R97, R266). -/
def reached (v tau : W32) : Bool := decide ((v - tau).toNat < 2 ^ 31)

end Sys2Proof.Machine
end

