-- ==== Sys2Proof/Machine/Digest.lean ====
section
/-! DEFINITION. Digests that the spec names by their standard: SHA-256 (18 R424, R426; FIPS 180-4) and the frame check sequence of IEEE 802.3
(18 R428). -/
namespace Sys2Proof.Machine

/-! ## SHA-256 -/

def shaK : List W32 :=
  [0x428a2f98, 0x71374491, 0xb5c0fbcf, 0xe9b5dba5, 0x3956c25b, 0x59f111f1, 0x923f82a4, 0xab1c5ed5,
   0xd807aa98, 0x12835b01, 0x243185be, 0x550c7dc3, 0x72be5d74, 0x80deb1fe, 0x9bdc06a7, 0xc19bf174] ++
  [0xe49b69c1, 0xefbe4786, 0x0fc19dc6, 0x240ca1cc, 0x2de92c6f, 0x4a7484aa, 0x5cb0a9dc, 0x76f988da,
   0x983e5152, 0xa831c66d, 0xb00327c8, 0xbf597fc7, 0xc6e00bf3, 0xd5a79147, 0x06ca6351, 0x14292967] ++
  [0x27b70a85, 0x2e1b2138, 0x4d2c6dfc, 0x53380d13, 0x650a7354, 0x766a0abb, 0x81c2c92e, 0x92722c85,
   0xa2bfe8a1, 0xa81a664b, 0xc24b8b70, 0xc76c51a3, 0xd192e819, 0xd6990624, 0xf40e3585, 0x106aa070] ++
  [0x19a4c116, 0x1e376c08, 0x2748774c, 0x34b0bcb5, 0x391c0cb3, 0x4ed8aa4a, 0x5b9cca4f, 0x682e6ff3,
   0x748f82ee, 0x78a5636f, 0x84c87814, 0x8cc70208, 0x90befffa, 0xa4506ceb, 0xbef9a3f7, 0xc67178f2]

/-- The eight words of the hash. -/
structure Sha where
  a : W32
  b : W32
  c : W32
  d : W32
  e : W32
  f : W32
  g : W32
  h : W32
  deriving DecidableEq, Repr

def Sha.start : Sha :=
  ⟨0x6a09e667, 0xbb67ae85, 0x3c6ef372, 0xa54ff53a, 0x510e527f, 0x9b05688c, 0x1f83d9ab, 0x5be0cd19⟩

def ror32 (x : W32) (n : Nat) : W32 := (x >>> n) ||| (x <<< (32 - n))

/-- One round, with its constant and its word of the schedule. -/
def Sha.round (x : Sha) (k w : W32) : Sha :=
  let s1 := ror32 x.e 6 ^^^ ror32 x.e 11 ^^^ ror32 x.e 25
  let ch := (x.e &&& x.f) ^^^ (~~~x.e &&& x.g)
  let t1 := x.h + s1 + ch + k + w
  let s0 := ror32 x.a 2 ^^^ ror32 x.a 13 ^^^ ror32 x.a 22
  let maj := (x.a &&& x.b) ^^^ (x.a &&& x.c) ^^^ (x.b &&& x.c)
  ⟨t1 + (s0 + maj), x.a, x.b, x.c, x.d + t1, x.e, x.f, x.g⟩

/-- The schedule, its newest word first: `n` more words. -/
def shaExtend : Nat → List W32 → List W32
  | 0, l => l
  | n + 1, l =>
    let s0 (x : W32) := ror32 x 7 ^^^ ror32 x 18 ^^^ (x >>> 3)
    let s1 (x : W32) := ror32 x 17 ^^^ ror32 x 19 ^^^ (x >>> 10)
    shaExtend n ((s1 (l.getD 1 0) + l.getD 6 0 + s0 (l.getD 14 0) + l.getD 15 0) :: l)

def Sha.block (x : Sha) (bs : Bytes) : Sha :=
  let ws := (List.range 16).map (fun i => BitVec.ofNat 32 (natLE ((bs.drop (4 * i)).take 4).reverse))
  let y := (shaK.zip (shaExtend 48 ws.reverse).reverse).foldl (fun y e => y.round e.1 e.2) x
  ⟨x.a + y.a, x.b + y.b, x.c + y.c, x.d + y.d, x.e + y.e, x.f + y.f, x.g + y.g, x.h + y.h⟩

/-- The message with its padding. -/
def shaPad (bs : Bytes) : Bytes :=
  bs ++ [0x80] ++ List.replicate ((119 - bs.length % 64) % 64) 0 ++ (bytesLE 8 (8 * bs.length)).reverse

/-- SHA-256 of a byte string, as the measurement registers hold it (18 R427): its first byte is the lowest. -/
def sha256 (bs : Bytes) : BitVec 256 :=
  let m := shaPad bs
  let x := (List.range (m.length / 64)).foldl (fun (x : Sha) i => x.block ((m.drop (64 * i)).take 64)) Sha.start
  BitVec.ofNat 256 (natLE ([x.a, x.b, x.c, x.d, x.e, x.f, x.g, x.h].flatMap (fun w => (bytesLE 4 w.toNat).reverse)))

/-! ## The frame check sequence of Ethernet -/

/-- One bit of the reflected CRC-32. -/
def fcsBit (c : W32) : W32 := if c.getLsbD 0 then (c >>> 1) ^^^ 0xEDB88320 else c >>> 1

/-- The FCS of a frame: four bytes, in the order of the wire. -/
def frameFcs (bs : Bytes) : Bytes :=
  let step (c : W32) (b : Byte) : W32 := (List.range 8).foldl (fun c _ => fcsBit c) (c ^^^ b.zeroExtend 32)
  bytesLE 4 (~~~(bs.foldl step 0xFFFFFFFF)).toNat

end Sys2Proof.Machine
end

