-- ==== Sys2Proof/Machine/Ops.lean ====
section
/-! DEFINITION. The named operations over registers, queues, memory, gauges, capabilities and traps that every meaning
is written with. Taking a trap (09 R274 to R278) and returning from one stand at the end. -/
namespace Sys2Proof.Machine

/-! ## Why a word does not issue -/

/-- A word that does not issue in this cycle: a queue stall (R185) on a queue code, another stall, a wait for a page
walk (04 R115), one for a sector of another peer's memory, a trap. -/
inductive Stop' where
  | queue (code : BitVec 6)
  | wait
  | walk (va : Nat)
  | ask (who pa : Nat)
  | trap (t : Trap)
  deriving DecidableEq, Repr

/-- A check or an effect that may stop the word. -/
abbrev Chk := Except Stop'

/-- Raise a trap. -/
def raise {α : Type} (c : Cause) (sub : Nat := 0) (addr : W64 := 0) : Chk α :=
  .error (.trap ⟨c, BitVec.ofNat 16 sub, addr⟩)

/-- Continue only if the condition holds. -/
def need (b : Bool) (e : Stop') : Chk Unit := if b then .ok () else .error e

/-- Code of a cause (R272). -/
def Cause.code : Cause → Nat
  | .illegalWord => 0x01 | .fetchFault => 0x02 | .bundleMismatch => 0x03 | .earlyRead => 0x04
  | .poisonConsumed => 0x05 | .capabilityFault => 0x06 | .misaligned => 0x07 | .translationFault => 0x08
  | .accessFault => 0x09 | .bankModeFault => 0x0A | .loopFault => 0x0B | .formatUnderflow => 0x0C
  | .formatInvalid => 0x0D | .shapeMismatch => 0x0E | .innerDimension => 0x0F | .scheduleMiss => 0x10
  | .routeInvalid => 0x11 | .engineStackFault => 0x12 | .engineOperandFault => 0x13 | .stopBusy => 0x14
  | .stepState => 0x15 | .barrierFault => 0x16 | .softwareTrap => 0x17 | .promiseMiss => 0x18
  | .landingConflict => 0x19 | .queueDeadlock => 0x1A | .doubleTrap => 0x1B | .watchdog => 0x1C
  | .contextTerminated => 0x1D | .stashOverflow => 0x1E | .extentOverflow => 0x1F | .skewFault => 0x20

/-- Causes that may enter a handler (R272). -/
def Cause.recoverable (c : Cause) : Bool := decide (c.code ≤ 0x1A)

/-- Code of a slot cluster in TCAUSE.CL (R273). -/
def clCode : Cl → Nat
  | .s => 0
  | .a => 1
  | .v => 2
  | .m => 3

/-! ## Parts of the state -/

def State.setCore (s : State) (c : Core) : State := { s with core := c }
def State.setPiece (s : State) (p : Piece) : State := { s with core := { s.core with pc := p } }
def State.setShr (s : State) (h : Shared) : State := { s with shr := h }
def State.setDie (s : State) (d : Die) : State := { s with die := d }

/-- A free value of `w` bits at place `k` of this step (log entry 1). -/
def State.free (s : State) (w k : Nat) : BitVec w := Config.freeBits w (s.nonce * 2 ^ 24 + k)

/-- A free choice at place `k` of this step (log entry 1). -/
def State.choice (s : State) (k : Nat) : Bool := Config.freeBool (s.nonce * 2 ^ 24 + k)

/-- A free index at place `k` of this step (log entry 1). -/
def State.freeIdx (s : State) (k : Nat) : Nat := Config.freeNat (s.nonce * 2 ^ 24 + k)

/-- The next step's free values differ. -/
def State.bump (s : State) : State := { s with nonce := s.nonce + 1 }

/-- Logical cluster of a core, 0 to 47 (R338: x = 96 die + 8 cluster + IDX). -/
def cluOf (k : Nat) : Nat := k / 8

def State.clu (s : State) : Nat := cluOf s.k

/-- Bring core `k` into focus. -/
def State.focus (s : State) (k : Nat) : State :=
  if k = s.k then s
  else { s with k := k, core := Map.get Core.reset s.others k,
                others := (Map.set Core.reset (Map.set Core.reset s.others s.k s.core) k Core.reset) }

/-- Apply a change with core `k` in focus and return to the core that was there. -/
def State.at (s : State) (k : Nat) (f : State → State) : State := (f (s.focus k)).focus s.k

/-- Core `k`. -/
def State.coreOf (s : State) (k : Nat) : Core := if k = s.k then s.core else Map.get Core.reset s.others k

/-- Every core that is not at its reset state. -/
def State.allCores (s : State) : List (Nat × Core) := (s.k, s.core) :: s.others

def State.ctx (s : State) (c : Ctx) : CtxRec := Map.get CtxRec.reset s.ctxs c.toNat
def State.setCtx (s : State) (c : Ctx) (r : CtxRec) : State :=
  { s with ctxs := Map.set CtxRec.reset s.ctxs c.toNat r }

/-- Change the step state of a context. -/
def State.setStep (s : State) (c : Ctx) (t : StepSt) : State := s.setCtx c { s.ctx c with step := t }

/-- OR vetoes into STEPVF of a context (R102, R104). -/
def State.veto (s : State) (c : Ctx) (f : BitVec 5) : State :=
  let st := (s.ctx c).step
  s.setStep c { st with vf := st.vf ||| f }

def vSpike : BitVec 5 := 1
def vOvf : BitVec 5 := 2
def vCorr : BitVec 5 := 4
def vFault : BitVec 5 := 8
def vPre : BitVec 5 := 16

/-- The stream of a cluster. -/
def Core.strm (c : Core) : Cl → Strm
  | .s => c.cs
  | .a => c.ca
  | .v => c.cv
  | .m => c.cm

def Core.setStrm (c : Core) (k : Cl) (x : Strm) : Core :=
  match k with
  | .s => { c with cs := x }
  | .a => { c with ca := x }
  | .v => { c with cv := x }
  | .m => { c with cm := x }

/-- Move a cluster's cursor. -/
def State.setPc (s : State) (k : Cl) (v : W64) : State :=
  s.setCore (s.core.setStrm k { s.core.strm k with pc := v })

/-- A fresh identifier. -/
def State.fresh (s : State) : State := { s with nextId := s.nextId + 1 }

/-! ## Order within a cycle -/

/-- Resource `r` may still serve agent `n` in this cycle: it serves agents in ascending order (04 R138; 11 R306, R307, R316; 13 R328,
R354). -/
def State.mayGo (s : State) (r n : Nat) : Bool := decide (Map.get 0 s.turns r ≤ n)

/-- Resource `r` serves agent `n`. -/
def State.went (s : State) (r n : Nat) : State := { s with turns := Map.set 0 s.turns r (max n (Map.get 0 s.turns r)) }

/-- The resources that serve in order: a bank, a FIFO bank (pops before pushes), the quarantine of a bank (11 R321: once in a cycle), the
command processor, a barrier. -/
def resBank (clu n : Nat) : Nat := 2 ^ 10 + clu * 48 + n
def resFifo (clu n : Nat) : Nat := 2 ^ 13 + clu * 48 + n
def resQuarantine (clu n : Nat) : Nat := 2 ^ 14 + clu * 48 + n
def resStreams : Nat := 2 ^ 15
def resBar (key : Nat) : Nat := 2 ^ 20 + key

/-! ## Scalar registers -/

/-- Early-read check bit of a cluster (R40). A write of ERCHK governs its own core's reads from the next word on, also of registers within
their bound (DESIGN CHOICE, log entry 41). -/
def State.checks (s : State) (k : Cl) : Bool := s.core.pc.erchk.toNat.testBit (clCode k)

/-- Read g[r] as an operand (R13, R14, R38, R40, R73): early reads are undefined or trap. Poison comes with
the value; an undefined value carries it only where the sources of the value in flight were poisoned, and then as it likes (R6). -/
def State.gRaw (s : State) (r : BitVec 5) (k : Nat) : Chk (W64 × Bool) :=
  if r = 0 then .ok (0, false)
  else
    let x := s.core.g[r.toNat]'(r.isLt)
    if s.cyc < x.rdy then (if s.checks .s then raise .earlyRead r.toNat else .ok (s.free 64 k, x.p && s.choice k))
    else .ok (x.v, x.p)

/-- Read g[r] to compute on it: poison traps (R73). -/
def State.gVal (s : State) (r : BitVec 5) (k : Nat) : Chk W64 := do
  let (v, p) ← s.gRaw r k
  if p then raise .poisonConsumed else .ok v

/-- Write g[d] with a latency bound (R13: g0 discards; R38, R39). -/
def State.putGP (s : State) (d : BitVec 5) (v : W64) (p : Bool) (lat : Nat) : State :=
  if d = 0 then s else s.setCore { s.core with g := s.core.g.set d.toNat ⟨v, p, s.cyc + lat⟩ d.isLt }

def State.putG (s : State) (d : BitVec 5) (v : W64) (lat : Nat := 1) : State := s.putGP d v false lat

/-- Read a[r] (R13, R38, R117): a0 is the null capability. An early read never carries a tag, and poison only as g's do (R6). -/
def State.aRaw (s : State) (r : BitVec 5) (k : Nat) : Chk (Cap × Bool) :=
  if r = 0 then .ok (nullCap, false)
  else
    let x := s.core.a[r.toNat]'(r.isLt)
    if s.cyc < x.rdy then
      (if s.checks .a then raise .earlyRead r.toNat else .ok (⟨false, s.free 128 (4096 + k)⟩, x.p && s.choice (4096 + k)))
    else .ok (x.c, x.p)

/-- Read a[r] to compute on it: poison traps (R117). -/
def State.aVal (s : State) (r : BitVec 5) (k : Nat) : Chk Cap := do
  let (c, p) ← s.aRaw r k
  if p then raise .poisonConsumed else .ok c

/-- The cursor of a[r]. -/
def State.aCur (s : State) (r : BitVec 5) (k : Nat) : Chk W64 := do
  let c ← s.aVal r k
  .ok (c.bits.truncate 64)

def State.putAP (s : State) (d : BitVec 5) (c : Cap) (p : Bool) (lat : Nat) : State :=
  if d = 0 then s else s.setCore { s.core with a := s.core.a.set d.toNat ⟨c, p, s.cyc + lat⟩ d.isLt }

def State.putA (s : State) (d : BitVec 5) (c : Cap) (lat : Nat := 1) : State := s.putAP d c false lat

/-- Read i[r] (R13: i0 reads 0; R38). -/
def State.iVal (s : State) (r : BitVec 3) (k : Nat) : Chk (BitVec 16) :=
  if r = 0 then .ok 0
  else
    let x := s.core.i[r.toNat]'(r.isLt)
    if s.cyc < x.rdy then (if s.checks .m then raise .earlyRead r.toNat else .ok (s.free 16 (8192 + k)))
    else .ok x.v

def State.putI (s : State) (r : BitVec 3) (v : BitVec 16) : State :=
  if r = 0 then s else s.setCore { s.core with i := s.core.i.set r.toNat ⟨v, s.cyc + 1⟩ r.isLt }

/-- Read mask m[r] (R13: m0 is all ones; R38). -/
def State.mVal (s : State) (r : BitVec 4) (k : Nat) : Chk (BitVec 256) :=
  if r = 0 then .ok (BitVec.allOnes 256)
  else
    let x := s.core.m[r.toNat]'(r.isLt)
    if s.cyc < x.rdy then (if s.checks .v then raise .earlyRead r.toNat else .ok (s.free 256 (12288 + k)))
    else .ok x.v

def State.putM (s : State) (r : BitVec 4) (v : BitVec 256) (lat : Nat := 2) : State :=
  if r = 0 then s else s.setCore { s.core with m := s.core.m.set r.toNat ⟨v, s.cyc + lat⟩ r.isLt }

/-- What a read by S of control register `n`, which holds `v`, sees: within the csr bound after a CSRW, CSRS or CSRC it is undefined
(R38). -/
def State.csrSeen (s : State) (n : Nat) (v : W64) : W64 :=
  if s.cyc < Map.get 0 s.core.pc.csrRdy n then s.free 64 (2 ^ 20 + 4096 + n) else v

/-! ## Queues (06 R183 to R187) -/

/-- The outcome queues of S, V and M stand at codes 10, 11 and 12. -/
def bqCode : Cl → Nat
  | .s => 10
  | .v => 11
  | _ => 12

def qEmpty {α : Type} : Queue α := ⟨[], 0, 0, 0, 0⟩

/-- Depth of a queue (R183). -/
def qDepth (c : Nat) : Nat := if c = 6 || c = 7 then 4 else 16

/-- Producer of a queue, where it is a slot cluster (R183). -/
def qProducer (c : Nat) : Option Cl :=
  match c with
  | 0 | 2 | 6 | 10 | 11 | 12 => some .a
  | 1 | 4 | 8 => some .s
  | 3 | 5 | 7 => some .v
  | _ => none

/-- Consumer of a queue (R183). -/
def qConsumer (c : Nat) : Cl :=
  match c with
  | 1 | 3 | 7 => .a
  | 2 | 4 | 6 | 11 => .v
  | 8 | 12 => .m
  | _ => .s

def Core.q (c : Core) (n : Nat) : Queue PV := Map.get qEmpty c.qs n
def Core.setQ (c : Core) (n : Nat) (q : Queue PV) : Core := { c with qs := Map.set qEmpty c.qs n q }
def Core.rq (c : Core) (n : Nat) : Queue RowV := Map.get qEmpty c.qr n
def Core.setRq (c : Core) (n : Nat) (q : Queue RowV) : Core := { c with qr := Map.set qEmpty c.qr n q }

/-- Occupancy at the start of cycle `now` (R184). -/
def Queue.occ {α : Type} (q : Queue α) (now : Nat) : Nat :=
  (q.ents.filter (fun e => decide (e.res < now))).length + (if q.popAt = now then q.pops else 0)

/-- The push of an entry in cycle `now`, poppable from the next (R184). -/
def Queue.push {α : Type} (q : Queue α) (v : α) (now : Nat) : Queue α :=
  { q with ents := q.ents ++ [⟨v, true, now, now + 1, 0⟩], pushed := (q.pushed + 1) % 2 ^ 32 }

/-- Reserve an entry (R125); `dflt` stands until it is filled. -/
def Queue.reserve {α : Type} (q : Queue α) (dflt : α) (id now : Nat) : Queue α :=
  { q with ents := q.ents ++ [⟨dflt, false, now, 0, id⟩] }

/-- Fill a reserved entry in cycle `now` (R125, R184); data for an entry that is gone are discarded (R186). -/
def Queue.fill {α : Type} (q : Queue α) (id : Nat) (v : α) (now : Nat) : Queue α :=
  if q.ents.any (fun e => e.id == id && !e.filled) then
    { q with ents := q.ents.map (fun e => if e.id == id && !e.filled then { e with v := v, filled := true, av := now + 1 } else e),
             pushed := (q.pushed + 1) % 2 ^ 32 }
  else q

/-- Drop `n` entries from the head in cycle `now`. -/
def Queue.drop {α : Type} (q : Queue α) (n now : Nat) : Queue α :=
  { q with ents := q.ents.drop n, popAt := now, pops := (if q.popAt = now then q.pops else 0) + n,
           popped := (q.popped + n) % 2 ^ 32 }

/-- A copy word's operands name memory outside the cluster, so the copy answers with a promise (R198, R200). -/
def Op.promises (o : Op) : Bool :=
  let far (e : StkEnt) : Bool := match e.attr with
    | .cap c => c.spc == 0 || c.spc == 3
    | _ => false
  !o.stop && (nb o.word.toNat 8 4 == 2 || nb o.word.toNat 8 4 == 3 || (o.args.take 2).any far) &&
  decide (o.word.toNat / 4096 = 5)

/-- Whether promise copies of the piece have yet to push a pq entry (R186, R200): those that wait in the command queues. A copy that has
started has its entry in pq, from the cycle of its push on. -/
def Core.owesPromise (c : Core) : Bool :=
  (Map.get [] c.engq 0 ++ Map.get [] c.engq 1).any (fun o => o.pid == c.pc.pid && o.promises)

/-- A pop that finds no poppable entry: a stall, or Queue Deadlock at once when nothing can fill the queue (R184,
R186). -/
def State.popStop (s : State) (n : Nat) (empty : Bool) : Stop' :=
  let dead := empty && (match qProducer n with
    | some p => !(s.core.strm p).act
    | none => !s.core.ca.act && !s.core.owesPromise)
  if dead then .trap ⟨.queueDeadlock, BitVec.ofNat 16 n, 0⟩ else .queue (BitVec.ofNat 6 n)

/-- The first `n` entries of a queue, if all can be popped in this cycle. -/
def State.peek (s : State) (c n : Nat) : Chk (List PV) :=
  let es := (s.core.q c).ents.take n
  if es.length = n && es.all (fun e => e.filled && decide (e.av ≤ s.cyc)) then .ok (es.map Ent.v)
  else .error (s.popStop c ((s.core.q c).ents.isEmpty))

/-- The first `n` rows of a row queue. -/
def State.peekRows (s : State) (c n : Nat) : Chk (List RowV) :=
  let es := (s.core.rq c).ents.take n
  if es.length = n && es.all (fun e => e.filled && decide (e.av ≤ s.cyc)) then .ok (es.map Ent.v)
  else .error (s.popStop c ((s.core.rq c).ents.isEmpty))

/-- Remove `n` entries (after peek). -/
def State.popN (s : State) (c n : Nat) : State := s.setCore (s.core.setQ c ((s.core.q c).drop n s.cyc))
def State.popRows (s : State) (c n : Nat) : State := s.setCore (s.core.setRq c ((s.core.rq c).drop n s.cyc))

/-- Room for a push (R184); an inactive consumer takes everything (R186). -/
def State.room (s : State) (c : Nat) : Chk Unit :=
  if !(s.core.strm (qConsumer c)).act then .ok ()
  else need (decide ((s.core.q c).occ s.cyc < qDepth c)) (.queue (BitVec.ofNat 6 c))

def State.roomRow (s : State) (c : Nat) : Chk Unit :=
  if !(s.core.strm (qConsumer c)).act then .ok ()
  else need (decide ((s.core.rq c).occ s.cyc < qDepth c)) (.queue (BitVec.ofNat 6 c))

/-- Push an entry; discarded when the consumer is inactive (R186). -/
def State.pushQ (s : State) (c : Nat) (v : PV) : State :=
  if !(s.core.strm (qConsumer c)).act then s else s.setCore (s.core.setQ c ((s.core.q c).push v s.cyc))

def State.pushRow (s : State) (c : Nat) (v : RowV) : State :=
  if !(s.core.strm (qConsumer c)).act then s else s.setCore (s.core.setRq c ((s.core.rq c).push v s.cyc))

/-- Reserve an entry under identifier `id` (R125). -/
def State.reserveQ (s : State) (c id : Nat) : State :=
  if !(s.core.strm (qConsumer c)).act then s else s.setCore (s.core.setQ c ((s.core.q c).reserve ⟨0, false⟩ id s.cyc))

def State.reserveRow (s : State) (c id : Nat) : State :=
  if !(s.core.strm (qConsumer c)).act then s else s.setCore (s.core.setRq c ((s.core.rq c).reserve ⟨0, 0⟩ id s.cyc))

def State.fillQ (s : State) (c id : Nat) (v : PV) : State := s.setCore (s.core.setQ c ((s.core.q c).fill id v s.cyc))
def State.fillRow (s : State) (c id : Nat) (v : RowV) : State :=
  s.setCore (s.core.setRq c ((s.core.rq c).fill id v s.cyc))

/-- A queue emptied in cycle `now`: what goes counts as popped, so that the equation of R286 holds (log entry 69), and its occupancy at
the start of the cycle still counts it (R187). -/
def Queue.empty {α : Type} (q : Queue α) (now : Nat) : Queue α :=
  { q with ents := [], popped := q.pushed, popAt := now, pops := q.occ now }

/-- The queues that cluster `k` consumes, emptied. -/
def emptyQueues {α : Type} [DecidableEq α] (k : Cl) (now : Nat) (m : Map (Queue α)) : Map (Queue α) :=
  m.foldr (fun e r => Map.set qEmpty r e.1 (if qConsumer e.1 = k then e.2.empty now else e.2)) []

/-- Empty the queues a cluster consumes, when it becomes inactive in cycle `now` (R186). -/
def Core.dropQueues (c : Core) (k : Cl) (now : Nat) : Core := { c with qs := emptyQueues k now c.qs, qr := emptyQueues k now c.qr }

/-! ## Memory -/

/-- What an unlisted byte reads as (log entry 4). -/
def memDefault : Byte := 0

/-- Read one byte. -/
def readByte : List Host.Cell → Nat → Byte
  | [], _ => memDefault
  | (j, v) :: r, k => if j = k then v else readByte r k

/-- The memory without address `k`. -/
def eraseByte : List Host.Cell → Nat → List Host.Cell
  | [], _ => []
  | (j, v) :: r, k => if j = k then eraseByte r k else (j, v) :: eraseByte r k

/-- Insert in address order. -/
def insertByte (k : Nat) (v : Byte) : List Host.Cell → List Host.Cell
  | [] => [(k, v)]
  | (j, w) :: r => if k < j then (k, v) :: (j, w) :: r else (j, w) :: insertByte k v r

/-- Write one byte, keeping the canonical form. -/
def writeByte (m : List Host.Cell) (k : Nat) (v : Byte) : List Host.Cell :=
  if v = memDefault then eraseByte m k else insertByte k v (eraseByte m k)

/-- Addresses strictly rising, no entry equal to what an unlisted address reads as. -/
def Memory.wf : List Host.Cell → Bool
  | [] => true
  | [(_, v)] => v != memDefault
  | (j, v) :: (k, w) :: r => v != memDefault && decide (j < k) && Memory.wf ((k, w) :: r)

/-- Write bytes from an address on. -/
def writeBytes (m : List Host.Cell) (k : Nat) : Bytes → List Host.Cell
  | [] => m
  | b :: r => writeBytes (writeByte m k b) (k + 1) r

/-- Read `n` bytes. -/
def readBytes (m : List Host.Cell) (k n : Nat) : Bytes := (List.range n).map (fun i => readByte m (k + i))

/-- Key of an SRAM offset of a cluster, and of a core scratch offset. -/
def sramKey (clu off : Nat) : Nat := 2 ^ 45 + clu * 2 ^ 25 + off
def scrKey (k off : Nat) : Nat := 2 ^ 46 + k * 2 ^ 17 + off

/-- Granules (16 bytes) and sectors (32 bytes) that [k, k + n) overlaps. -/
def unitsOf (u k n : Nat) : List Nat := if n = 0 then [] else (List.range ((k + n - 1) / u - k / u + 1)).map (k / u + ·)

/-- Clear tags of the granules a write overlaps (R114). -/
def clearTags (t : Map Bool) (k n : Nat) : Map Bool := (unitsOf 16 k n).foldl (fun t g => Map.set false t g false) t

/-- Poison of the sectors a write touches (R126): a poisoned write sets it, a clean write of a whole sector clears it. -/
def writePois (p : Map Bool) (k n : Nat) (bad : Bool) : Map Bool :=
  (unitsOf 32 k n).foldl (fun p x =>
    if bad then Map.set false p x true
    else if k ≤ 32 * x && 32 * x + 32 ≤ k + n then Map.set false p x false else p) p

/-- A write of plain data at a memory key: bytes, tags cleared, poison marked (R114, R126). -/
def State.store (s : State) (k : Nat) (bs : Bytes) (bad : Bool) : State :=
  { s with mem := writeBytes s.mem k bs, tags := clearTags s.tags k bs.length, pois := writePois s.pois k bs.length bad }

def State.load (s : State) (k n : Nat) : Bytes := readBytes s.mem k n
def State.poisAt (s : State) (k : Nat) : Bool := Map.get false s.pois (k / 32)
def State.tagAt (s : State) (k : Nat) : Bool := Map.get false s.tags (k / 16)
def State.setTag (s : State) (k : Nat) (t : Bool) : State := { s with tags := Map.set false s.tags (k / 16) t }

/-! ## Versioned lines (16 R380 to R383) -/

/-- Attempt tag of a leaf of a line of a versioned frame. -/
def State.leaf (s : State) (line l : Nat) : BitVec 16 := Map.get 0 s.leafTag (2 * line + l)

/-- A tag is at or before G (R381). -/
def atOrBefore (g x : BitVec 16) : Bool := decide ((g - x).toNat < 2 ^ 15)

/-- The leaf that a read returns (R381). -/
def State.readLeaf (s : State) (c : Ctx) (line : Nat) : Nat :=
  let r := s.ctx c
  let t0 := s.leaf line 0
  let t1 := s.leaf line 1
  if t0 = r.step.t then 0
  else if t1 = r.step.t then 1
  else
    let ok (t : BitVec 16) : Bool := (Map.get none r.dead t.toNat).isNone && atOrBefore r.step.g t
    if ok t0 && ok t1 then (if (r.step.g - t1).toNat < (r.step.g - t0).toNat then 1 else 0)
    else if ok t1 then 1 else 0

/-- The frame of an HBM key, if it is versioned. -/
def State.frame (s : State) (k : Nat) : Option Frame :=
  (Map.get none s.frames (k / 65536)).filter (fun f => f.part.toNat.testBit (k / 4096 % 16))

/-- Where leaf `l` of the byte at key `k` lies (R380). -/
def leafKey (f : Frame) (k l : Nat) : Nat := if l = 0 then k else f.shadow * 65536 + k % 65536

/-- The key that a read of HBM key `k` sees: the chosen leaf of a versioned line, else the key itself. Keys of SRAM and
core scratch lie in no frame. -/
def State.readKey (s : State) (k : Nat) : Nat :=
  if 2 ^ 45 ≤ k then k
  else match s.frame k with
    | none => k
    | some f => leafKey f k (s.readLeaf f.ctx (k / 128))

/-- Make the dry leaf of a line, if it has none (R382): the free leaf takes data, tags and poison of the set leaf. -/
def State.makeDry (s : State) (f : Frame) (line : Nat) : State :=
  let t := (s.ctx f.ctx).step.t
  if s.leaf line 0 = t || s.leaf line 1 = t then s
  else
    let l := s.readLeaf f.ctx line
    let src := leafKey f (128 * line) l
    let dst := leafKey f (128 * line) (1 - l)
    let s1 := { s with mem := writeBytes s.mem dst (readBytes s.mem src 128) }
    let s2 := (List.range 8).foldl (fun s g => s.setTag (dst + 16 * g) (s.tagAt (src + 16 * g))) s1
    let s3 := (List.range 4).foldl
      (fun s i => { s with pois := Map.set false s.pois (dst / 32 + i) (s.poisAt (src + 32 * i)) }) s2
    { s3 with leafTag := Map.set 0 s3.leafTag (2 * line + (1 - l)) t }

/-- The key that a write to HBM key `k` goes to, after the line has its dry leaf (R382). -/
def State.writeKey (s : State) (k : Nat) : State × Nat :=
  if 2 ^ 45 ≤ k then (s, k)
  else match s.frame k with
    | none => (s, k)
    | some f =>
      let s := s.makeDry f (k / 128)
      let t := (s.ctx f.ctx).step.t
      (s, leafKey f k (if s.leaf (k / 128) 0 = t then 0 else 1))

/-- Pieces of [k, k + n) that do not cross a line: (offset, key, length). Fuel counts the lines. -/
def linePieces : Nat → Nat → Nat → Nat → List (Nat × Nat × Nat)
  | 0, _, _, _ => []
  | fuel + 1, off, k, n =>
    if n = 0 then []
    else
      let m := min n (128 - k % 128)
      (off, k, m) :: linePieces fuel (off + m) (k + m) (n - m)

/-- Read `n` bytes at a key through the versions. -/
def State.vload (s : State) (k n : Nat) : Bytes :=
  (linePieces (n / 128 + 2) 0 k n).flatMap (fun p => s.load (s.readKey p.2.1) p.2.2)

def State.vpois (s : State) (k : Nat) : Bool := s.poisAt (s.readKey k)
def State.vtag (s : State) (k : Nat) : Bool := s.tagAt (s.readKey k)


/-- No record of a dirty sector. -/
def dirtyNone : Dirty := ⟨0, 0, [], 0⟩

/-- Write bytes at a key through the versions. -/
def State.vstore (s : State) (k : Nat) (bs : Bytes) (bad : Bool) : State :=
  (linePieces (bs.length / 128 + 2) 0 k bs.length).foldl (fun s p =>
    let (s, k') := s.writeKey p.2.1
    s.store k' ((bs.drop p.1).take p.2.2) bad) s

/-! ## Gauges, stops (11 R309 to R314) -/

/-- Number of a gauge in the shared tables. -/
def State.gKey (s : State) (g : Gauge) : Nat := if g.dev then 65536 + g.n.toNat else s.clu * 64 + g.n.toNat % 64

def State.gauge (s : State) (g : Gauge) : W32 := Map.get 0 s.shr.gauge (s.gKey g)

/-- Set a gauge by its number, remembering what it held (R312). -/
def State.setGaugeAt (s : State) (key : Nat) (v : W32) : State :=
  let old := Map.get 0 s.shr.gauge key
  let h := ((s.cyc, old) :: Map.get [] s.shr.gaugeHist key).filter (fun e => decide (s.cyc ≤ e.1 + 64))
  s.setShr { s.shr with gauge := Map.set 0 s.shr.gauge key v, gaugeHist := Map.set [] s.shr.gaugeHist key h }

/-- Add an amount modulo 2^32 (R310). -/
def State.addGaugeAt (s : State) (key : Nat) (x : W32) : State :=
  s.setGaugeAt key (Map.get 0 s.shr.gauge key + x)

def State.addGauge (s : State) (g : Gauge) (x : Nat) : State := s.addGaugeAt (s.gKey g) (BitVec.ofNat 32 x)

/-- A read of a gauge by CSRR (R312): any value it held from `w` cycles ago to now, a free choice. -/
def State.readGauge (s : State) (key w place : Nat) : W32 :=
  let now := Map.get 0 s.shr.gauge key
  let hist := (Map.get [] s.shr.gaugeHist key).filter (fun e => decide (s.cyc < e.1 + w)) |>.map Prod.snd
  (now :: hist).getD (s.freeIdx place % (hist.length + 1)) now

/-- A term of a predicate holds (R266). -/
def State.termHolds (s : State) (t : Term) : Bool := reached (Map.get 0 s.shr.gauge t.g) t.tau

/-- A predicate is an OR of AND groups (R266): `acc` is the group being read. -/
def State.predAux (s : State) : List Term → Bool → Bool
  | [], acc => acc
  | t :: r, acc => if t.or_ then acc || s.predAux r (s.termHolds t) else s.predAux r (acc && s.termHolds t)

/-- The value of a predicate; one that was never set is false. -/
def State.pred (s : State) (ts : List Term) : Bool :=
  match ts with
  | [] => false
  | t :: r => s.predAux r (s.termHolds t)

def stopEmpty : Stop := ⟨[], none, false, false, []⟩
def State.stopKey (s : State) (dev : Bool) (n : Nat) : Nat := if dev then 65536 + n else s.clu * 16 + n % 16
def State.stop (s : State) (key : Nat) : Stop := Map.get stopEmpty s.shr.stops key
def State.setStop (s : State) (key : Nat) (x : Stop) : State :=
  s.setShr { s.shr with stops := Map.set stopEmpty s.shr.stops key x }

/-! ## Banks and blocks -/

def bankReset : Bank := ⟨0, none, [], 0, 0⟩
def State.bank (s : State) (clu n : Nat) : Bank := Map.get bankReset s.shr.banks (clu * 48 + n)
def State.setBank (s : State) (clu n : Nat) (b : Bank) : State :=
  s.setShr { s.shr with banks := Map.set bankReset s.shr.banks (clu * 48 + n) b }

/-- A bank is switching, or a switch waits, as every core sees it in cycle `now`: a BANKSET marks it from the end of its cycle (R299,
R301). -/
def Bank.busy (b : Bank) (now : Nat) : Bool := b.cur.isSome || b.wait.any (fun w => decide (w.2.1 < now))

/-- A word that names the bank stalls (R302): from the cycle in which a switch begins to its end. In the cycle in which a switch ends, words
meet its mode although another switch waits. -/
def Bank.stalls (b : Bank) (now : Nat) : Bool := b.busy now && (b.cur.isSome || b.last != now)

/-- A bank of the cluster holds lines of the cluster cache (R303). -/
def State.cacheBanks (s : State) (clu : Nat) : List Nat :=
  (List.range 48).filter (fun n => (s.bank clu n).mode == 0 && (s.bank clu n).cur.isNone)

def State.cached (s : State) (clu : Nat) : Bool := !(s.cacheBanks clu).isEmpty

/-- Set of a line: bits [18:7] of its physical address (R303). -/
def lineSet (line : Nat) : Nat := line % 4096

/-- Dirty lines of a set of the cluster cache. -/
def State.dirtyLines (s : State) (clu t : Nat) : List Nat :=
  ((s.shr.dirty.filter (fun e => e.2.clu == clu && lineSet (e.1 / 4) == t)).map (fun e => e.1 / 4)).eraseDups

/-- A line is filled into the cluster cache (R303): where its set has a dirty line in each way one of them is replaced, else one may be; which is
not architectural, so a free choice (log entry 82). What is replaced is written back. -/
def State.fillLine (s : State) (clu line : Nat) : State :=
  let ls := s.dirtyLines clu (lineSet line)
  if ls.contains line || ls.isEmpty then s
  else if ls.length < (s.cacheBanks clu).length && !s.choice (2 ^ 22 + line % 2 ^ 21) then s
  else
    let out := ls.getD (s.freeIdx (2 ^ 22 + line % 2 ^ 21) % ls.length) 0
    s.setShr { s.shr with dirty := s.shr.dirty.filter (fun e => e.2.clu != clu || e.1 / 4 != out) }

/-- Lines of a run are filled; with no bank in cache mode, or outside HBM, none is. -/
def State.fillLines (s : State) (clu k n : Nat) : State :=
  if 2 ^ 45 ≤ k || !s.cached clu then s else (unitsOf 128 k n).foldl (fun s l => s.fillLine clu l) s

/-- A write by context `o` makes the sectors it writes dirty in the cluster cache (R303, R305): what each held before is kept, in case
it is lost (R320), and the dirty sectors that another context owns in the same line are written back first. With no bank in cache mode
the write is uncached; versioned lines are held clean (16 R385). A write for no core of this device goes to memory. -/
def State.dirty (s : State) (clu : Nat) (o : Ctx) (k n : Nat) : State :=
  if 2 ^ 45 ≤ k || (s.frame k).isSome then s
  else if 48 ≤ clu then s.setShr { s.shr with dirty := s.shr.dirty.filter (fun e => decide (e.1 / 4 ≠ k / 128)) }
  else if !s.cached clu then s
  else
    let s := s.fillLines clu k n
    let us := unitsOf 32 k n
    let stays (e : Nat × Dirty) : Bool := !(e.2.clu == clu && e.2.owner != o && us.any (fun x => e.1 / 4 == x / 4))
    let mark (d : Map Dirty) (x : Nat) : Map Dirty :=
      let old := Map.get dirtyNone d x
      if old.old ≠ [] && old.clu = clu then d
      else Map.set dirtyNone d x
        ⟨clu, o, s.load (32 * x) 32, BitVec.ofNat 2 ((s.tagAt (32 * x)).toNat + 2 * (s.tagAt (32 * x + 16)).toNat)⟩
    s.setShr { s.shr with dirty := us.foldl mark (s.shr.dirty.filter stays) }

/-- Check 11 of R115: the bank accepts the word's modes; a switching bank makes the word wait (R302). -/
def State.bankCheck (s : State) (clu off : Nat) (fifo : Bool) (addr : W64) : Chk Unit :=
  let b := s.bank clu (off / 2 ^ 19)
  if b.stalls s.cyc then .error .wait
  else need (b.mode == 1#2 || (fifo && b.mode == 2#2)) (.trap ⟨.bankModeFault, 0, addr⟩)

def blockEmpty : Block := ⟨false, 0, 0, 0, []⟩
def State.block (s : State) (clu b : Nat) : Block := Map.get blockEmpty s.shr.blocks (clu * 6144 + b)
def State.setBlock (s : State) (clu b : Nat) (x : Block) : State :=
  s.setShr { s.shr with blocks := Map.set blockEmpty s.shr.blocks (clu * 6144 + b) x }

/-! ## Addresses (04 R113, R115) -/

/-- The page of a context that holds a device-virtual address. -/
def State.page (s : State) (c : Ctx) (va : Nat) : Option Page :=
  (s.ctx c).pages.find? (fun p => decide (p.va ≤ va) && decide (va < p.va + 2 ^ p.sz))

/-- Size of core scratch (R193). -/
def Piece.scratch (p : Piece) : Nat := p.l1cfg.toNat * 32768

/-- Where a byte range of a capability lies, as the checks of R115 find it. `vers` says that the line is versioned. -/
structure Place where
  loc : Loc
  vers : Bool
  deriving DecidableEq, Repr

/-- What a memory word asks of its checks (R116): spaces, permissions, alignment, FIFO banks accepted, loads, stores. -/
structure Want where
  spaces : List Nat
  prm : List Nat
  align : Nat
  fifo : Bool := false
  ld : Bool := false
  st : Bool := false
  deriving DecidableEq, Repr

/-- Capability Fault with its detail (R272). -/
def capFault {α : Type} (sub : Nat) (addr : W64) : Chk α := raise .capabilityFault sub addr

/-- Home of a fabric physical address is another peer (R113). -/
def State.remote (s : State) (pa : Nat) : Bool := decide (pa / 2 ^ 45 ≠ s.peer.toNat)

/-- Checks 2 to 6 of R115, on a tagged capability and a range of bytes. -/
def capCheck (c : Cap) (ea : Int) (n : Nat) (w : Want) : Chk Unit := do
  let addr := w64 ea
  if !c.tag then capFault 1 addr
  else if !w.spaces.contains c.spc then capFault 2 addr
  else if !w.prm.all c.has then capFault 3 addr
  else if ea < c.bounds.1 || (c.bounds.2 : Int) < ea + n then capFault 4 addr
  else if ea.toNat % w.align ≠ 0 then raise .misaligned 0 addr
  else .ok ()

/-- The memory key of a physical address of this device: an access that was translated before its frame was retired meets the frame to
which the content moved (16 R388). -/
def State.homeKey (s : State) (pa : Nat) : Nat :=
  let k := pa % 2 ^ 45
  match Map.get none s.pkg.moved (k / 65536) with
  | some g => g * 65536 + k % 65536
  | none => k

/-- A physical address lies in a versioned line, as this device knows it: by the frame, or by the mark of a page of the context that maps
it, which may lie on another device (16 R380; log entry 68). -/
def State.versPa (s : State) (c : Ctx) (pa : Nat) : Bool :=
  (!s.remote pa && (s.frame (s.homeKey pa)).isSome) ||
    (s.ctx c).pages.any (fun p => p.vers && decide (p.pa ≤ pa) && decide (pa < p.pa + 2 ^ p.sz))

/-- Checks 9 and 10 for HBM (R115, R382): rights, an open attempt for a versioned write, `rm`, `vw`. -/
def State.hbmCheck (s : State) (c : Cap) (ctx : Ctx) (p : Option Page) (pa : Nat) (w : Want) (addr : W64) :
    Chk Place := do
  let vers := match p with
    | some p => p.vers
    | none => s.versPa ctx pa
  match p with
  | some p => if (w.ld && !p.r) || (w.st && !p.w) then raise .accessFault 0 addr
  | none => .ok ()
  if w.st && vers && !(s.ctx ctx).step.open_ then raise .accessFault 0 addr
  else if s.remote pa && !c.has pRm then capFault 3 addr
  else if w.st && vers && !c.has pVw then capFault 3 addr
  else .ok ⟨.hbm pa, vers⟩

/-- Checks 7 to 11 of R115 on a range that starts at `ea`. -/
def State.placeOf (s : State) (c : Cap) (ctx : Ctx) (ea : Int) (n : Nat) (w : Want) : Chk Place := do
  let addr := w64 ea
  let a := ea.toNat
  match c.spc with
  | 0 =>
    if 2 ^ 56 ≤ a + n - 1 then capFault 5 addr
    else match s.page ctx a with
      | none => raise .translationFault 0 addr
      | some p =>
        if p.transit then .error .wait
        else if !p.walked then .error (.walk a)
        else s.hbmCheck c ctx (some p) (p.pa + (a - p.va)) w addr
  | 1 =>
    if 24 * 2 ^ 20 ≤ a + n - 1 then capFault 5 addr
    else do
      s.bankCheck s.clu a w.fifo addr
      if (s.bank s.clu (a / 2 ^ 19)).mode = 2 then .ok ⟨.fifo (a / 2 ^ 19), false⟩ else .ok ⟨.sram a, false⟩
  | 2 =>
    if s.core.pc.l1pend.isSome then .error .wait
    else if s.core.pc.scratch < a + n then capFault 5 addr
    else .ok ⟨.scr a, false⟩
  | 3 => if 2 ^ 57 ≤ a + n - 1 then capFault 5 addr else s.hbmCheck c ctx none a w addr
  | _ => capFault 2 addr

/-- Checks 2 to 11 of R115 for a word of A. -/
def State.access (s : State) (c : Cap) (ea : Int) (n : Nat) (w : Want) : Chk Place := do
  capCheck c ea n w
  s.placeOf c s.core.pc.ctx ea n w

/-! ## Branches and the end of a word (03 R82, R86; 05 R178; 07 R224, R238) -/

/-- Completion of the word at the last place of a loop body, for a counter loop: cursor and loop afterwards. -/
def loopEnd (l : Option LoopSt) (pc nxt : W64) : W64 × Option LoopSt :=
  match l with
  | none => (nxt, none)
  | some l =>
    if pc = l.e - 4 then (if l.n = 1 then (l.e, none) else (l.b, some { l with n := l.n - 1 })) else (nxt, some l)

/-- Rotation base in VWIN. -/
def rbOf (vwin : W64) : Nat := bitsOf vwin 8 4
def withRb (vwin : W64) (rb : Nat) : W64 := BitVec.ofNat 64 (rb % 16 * 256 + bitsOf vwin 0 2)

/-- What the shift of the stage predicates copies from a mask (R178). One still in flight is read before its bound, so the copy is
undefined (R38; log entry 57). -/
def State.shifted (s : State) (m : MReg) (k : Nat) : MReg :=
  ⟨if s.cyc + 1 < m.rdy then s.free 256 (12416 + k) else m.v, s.cyc + 1⟩

/-- Shift of the stage predicates (R178): `m8` receives all ones or zeros. -/
def State.shiftMasks (s : State) (on : Bool) : Vector MReg 16 :=
  let m := s.core.m
  let f (k : Nat) (x : MReg) : MReg := s.shifted x k
  ((((((((m.set 15 (f 7 m[14])).set 14 (f 6 m[13])).set 13 (f 5 m[12])).set 12 (f 4 m[11])).set 11
    (f 3 m[10])).set 10 (f 2 m[9])).set 9 (f 1 m[8])).set 8 ⟨if on then BitVec.allOnes 256 else 0, s.cyc + 1⟩)

/-- The step at the end of a LOOPR body (R178, R180); a rotation may be lost while a write of VWIN is in its window. -/
def State.looprStep (s : State) (l : LoopR) : State :=
  let p := s.core.pc
  let kk := l.kk + 1
  let lost := decide (p.vwinAt ≠ 0) && decide (s.cyc < p.vwinAt + 2) && s.choice 1
  let vw := if lost then p.vwin else withRb p.vwin ((rbOf p.vwin + 15) % 16)
  let vo := if lost then p.vwinOld else withRb p.vwinOld ((rbOf p.vwinOld + 15) % 16)
  let c := { s.core with
    m := s.shiftMasks (decide (kk < l.cnt)),
    pc := { p with vwin := vw, vwinOld := vo, loopr := if l.left = 1 then none else some { l with kk := kk, left := l.left - 1 } } }
  (s.setCore c).setPc .v (if l.left = 1 then l.e else l.b)

/-- A word of cluster `k`, `n` bytes long, completes and is no taken branch: the cursor moves on, or a loop ends its
iteration (R86, R143, R178, R238). Under REP the cursor of M stays until the repetitions are done (R224). -/
def State.retire (s : State) (k : Cl) (n : Nat := 4) : State :=
  let pc := (s.core.strm k).pc
  let nxt := pc + BitVec.ofNat 64 n
  let p := s.core.pc
  let s := s.setCore { s.core with res := .issued }
  match k with
  | .s =>
    if p.lc ≠ 0 && pc = p.le - 4 then
      let lc := p.lc - 1
      (s.setPiece { s.core.pc with lc := lc }).setPc .s (if lc ≠ 0 then p.lb else p.le)
    else s.setPc .s nxt
  | .a =>
    let (pc2, l) := loopEnd p.aloop (if n = 8 then pc + 4 else pc) nxt
    (s.setPiece { s.core.pc with aloop := l }).setPc .a pc2
  | .v =>
    match p.loopr with
    | some l => if pc = l.e - 4 then s.looprStep l else s.setPc .v nxt
    | none => s.setPc .v nxt
  | .m =>
    match p.rep with
    | some r =>
      if r.n > 1 then s.setPiece { s.core.pc with rep := some { r with n := r.n - 1, first := false } }
      else
        let (pc2, l) := loopEnd p.mloop pc nxt
        (s.setPiece { s.core.pc with rep := none, mloop := l }).setPc .m pc2
    | none =>
      let (pc2, l) := loopEnd p.mloop pc nxt
      (s.setPiece { s.core.pc with mloop := l }).setPc .m pc2

/-- The loop buffer of a cluster is empty when a loop starts (R86, R206). -/
def State.emptyBuf (s : State) (k : Cl) : State := s.setCore (s.core.setStrm k { s.core.strm k with buf := [] })

/-- A loop survives a jump to its own body (R86). -/
def keepLoop (l : Option LoopSt) (t : W64) : Option LoopSt :=
  match l with
  | none => none
  | some l => if l.b.toNat ≤ t.toNat && t.toNat + 4 ≤ l.e.toNat then some l else none

/-- A taken branch of cluster `k` to `t`; `call` marks CALL and JALR, which always leave a loop (R82, R86, R181). -/
def State.jump (s : State) (k : Cl) (t : W64) (call : Bool := false) : State :=
  let p := s.core.pc
  let s := s.setCore { s.core with res := .issued }
  let p' :=
    match k with
    | .s =>
      let keep := !call && decide (p.lb.toNat ≤ t.toNat) && decide (t.toNat + 4 ≤ p.le.toNat)
      { s.core.pc with lc := if keep then p.lc else 0 }
    | .a => { s.core.pc with aloop := keepLoop p.aloop t }
    | .v => { s.core.pc with loopr := none }
    | .m => { s.core.pc with mloop := keepLoop p.mloop t }
  (s.setPiece p').setPc k t

/-- Branch target of the B format (R26, R82). -/
def State.target (s : State) (k : Cl) (off : BitVec 19) : W64 := (s.core.strm k).pc + w64 (4 * exts off)

/-! ## Ending a piece, taking a trap, returning from one -/

/-- A launch, if its index is in use. -/
def State.launch (s : State) (li : Nat) : Option Launch := Map.get none s.die.launches li
def State.setLaunch (s : State) (li : Nat) (l : Option Launch) : State :=
  s.setDie { s.die with launches := Map.set none s.die.launches li l }

/-- The trap by which the launch under an index was last stopped, rejected or refused: one that no piece's TCAUSE takes (R272). -/
def State.nameTrap (s : State) (li : Nat) (t : Trap) : State :=
  s.setDie { s.die with named := Map.set none s.die.named li (some t) }

/-- Freeze a launch (R350). -/
def State.freezeLaunch (s : State) (li : Nat) : State :=
  match s.launch li with
  | none => s
  | some l => s.setLaunch li (some { l with state := .frozen })

/-- An LDC that waits for its data. -/
def AccOp.isLoadCap : AccOp → Bool
  | .loadCap _ _ => true
  | _ => false

/-- The piece on the core in focus ends: queues, stacks and a pending arm are emptied (R186, R243, R269); it counts as
early at its end (R91) and as ended for its launch. Held operations and queued ones stay (R205, R268). -/
def State.endPiece (s : State) (faulted : Bool) : State :=
  let c := s.core
  let p := c.pc
  let p' := { p with run := false, reports := [], handler := false, aloop := none, mloop := none, loopr := none,
                     rep := none, lc := 0, bar := none, barH := none }
  let pend := c.pend.filter (fun a => !a.op.isLoadCap)
  let c' := { c with
    pc := p',
    cs := { c.cs with act := false }, ca := { c.ca with act := false }, cv := { c.cv with act := false },
    cm := { c.cm with act := false }, qs := [], qr := [], stk := [], spOld := [], arm := [], pend := pend }
  let s := s.setCore c'
  match s.launch p.li with
  | none => s
  | some l =>
    let l := { l with ended := l.ended + 1,
                      earlyWait := if p.isEarly then l.earlyWait else l.earlyWait ++ [(p.q, s.k, s.nextId)],
                      state := if faulted then .frozen else l.state }
    (s.setLaunch p.li (some l)).fresh

/-- A piece ends as faulted (R278), by trap `t` where a trap ends it: a piece inside a step sets FAULT (R105). -/
def State.faultPiece (s : State) (t : Option Trap) : State :=
  let p := s.core.pc
  let s := if p.stepIn then s.veto p.ctx vFault else s
  (match t with
    | some t => s.nameTrap p.li t
    | none => s).endPiece true

/-- TCAUSE of a trap (R273). -/
def tcauseOf (t : Trap) (ins asy : Bool) (cl : Nat) : W64 :=
  BitVec.ofNat 64 (t.sub.toNat * 65536 + ins.toNat * 2048 + asy.toNat * 1024 + cl * 256 + t.cause.code)

/-- The cycle in which the last result in flight in S lands (R277). -/
def Core.sLanded (c : Core) : Nat := c.g.toList.foldl (fun n r => max n r.rdy) 0

/-- The words at which the clusters stand are interrupted without issuing: a read of LANDW is made anew (R275, R280), and waits on queues
count from cycle `now` (06 R185). -/
def Piece.restart (p : Piece) (now : Nat) : Piece := { p with waitl := none, stallSet := 0, stallCode := [], stallFrom := now }

/-- TAKING A TRAP (R88, R274 to R278, R294): precise at cluster `k`, or reported (`asy`). With a handler the registers
are saved, S goes to TVEC and the other clusters stay stopped; without one the piece ends as faulted and its launch is
frozen. A trap in a handler is Double Trap, whose SUB is the code of the second cause (R272); TCAUSE, TADDR and TPC then hold their
values (R274). Every trap interrupts a read of LANDW without issuing it (R275), and what was stalled on a queue begins to wait anew (06 R185). TVEC is read as by a word of S (R38). Poison Consumed
inside a step sets CORR (R105). `ins` is STEPST.IN as it stood when the trap was raised (R273). -/
def State.takeTrap (s : State) (k : Cl) (t : Trap) (asy : Bool := false) (ins : Bool := s.core.pc.stepIn) : State :=
  let s := s.setCore { s.core with res := .trapped t, pc := s.core.pc.restart s.cyc }
  let p := s.core.pc
  let tvec := s.csrSeen 0x010 p.tvec
  let s := if p.stepIn && (t.cause == .poisonConsumed || t.cause == .contextTerminated) then s.veto p.ctx vCorr else s
  if p.handler then s.faultPiece (some ⟨.doubleTrap, BitVec.ofNat 16 t.cause.code, 0⟩)
  else if t.cause.recoverable && tvec != 0 && s.core.cs.act then
    let cl := if asy then 0 else clCode k
    let inS := asy || k == .s
    let epc := if t.cause == .softwareTrap then s.core.cs.pc + 4 else s.core.cs.pc
    let c := s.core
    s.setCore { c with
      pc := { s.core.pc with
        tcause := tcauseOf t ins asy cl, taddr := t.addr,
        tpc := if inS then 0 else (c.strm k).pc, epc := epc, handler := true, hcl := if asy then .s else k },
      cs := { c.cs with pc := tvec, start := max (s.cyc + 4) (c.sLanded + 4) } }
  else if t.cause == .softwareTrap && s.core.debugger && tvec == 0 then
    s.setCore { s.core with
      halt := .drain,
      pc := { s.core.pc with tcause := tcauseOf t ins asy 0, taddr := t.addr, epc := s.core.cs.pc + 4 },
      cs := { s.core.cs with pc := s.core.cs.pc + 4 } }
  else s.faultPiece (some t)

/-- RETURN FROM A TRAP (R89, R277): S resumes at EPC, cluster CL at TPC, as ERET reads them (R38), and no word issues within 4 cycles. A
barrier at which the handler was itself waiting is left behind, and so is one at which S waited, when EPC is no longer that word. -/
def State.trapReturn (s : State) : State :=
  let c := s.core
  let p := c.pc
  let epc := s.csrSeen 0x011 p.epc
  let c := { c with res := .issued, pc := { p with handler := false, bar := p.bar.filter (fun w => w.pc == epc), barH := none } }
  let c := { c with cs := { c.cs with pc := epc } }
  let c := if p.hcl == .s then c else c.setStrm p.hcl { c.strm p.hcl with pc := s.csrSeen 0x014 p.tpc }
  let go (x : Strm) : Strm := { x with start := max x.start (s.cyc + 4) }
  s.setCore { c with cs := go c.cs, ca := go c.ca, cv := go c.cv, cm := go c.cm }

/-- Report a trap to core `k` (R201, R258, R276): S takes it at its next word boundary. With S inactive the piece ends
as faulted when the report is taken (R88); a piece that has ended takes nothing. -/
def State.report (s : State) (k : Nat) (t : Trap) : State :=
  s.at k (fun s =>
    if s.core.pc.run then s.setPiece { s.core.pc with reports := s.core.pc.reports ++ [⟨t, s.core.pc.stepIn⟩] } else s)

/-- A report to a checkpointed piece waits in its image (R284). -/
def Saved.reported (v : Saved) (pid : Nat) (t : Trap) : Saved :=
  if v.core.pc.pid = pid then { v with core := { v.core with pc := { v.core.pc with reports := v.core.pc.reports ++ [⟨t, v.core.pc.stepIn⟩] } } }
  else v

/-- A fault of an operation that piece `pid` of launch `li` issued (R258): reported to that piece where it runs, or into its image;
when the piece has ended, to the launch, which is frozen. Of a launch that has completed the report is dropped: identifiers rise, so
a launch accepted under the same index later has a greater one than the piece. -/
def State.reportOp (s : State) (li pid : Nat) (t : Trap) : State :=
  match s.allCores.find? (fun e => e.2.pc.run && e.2.pc.pid == pid) with
  | some e => s.report e.1 t
  | none => match s.launch li with
    | none => s
    | some l =>
      if pid < l.uid then s
      else if l.saved.any (fun v => v.core.pc.pid == pid) then
        s.setLaunch li (some { l with saved := l.saved.map (fun v => v.reported pid t) })
      else s.freezeLaunch li

/-! ## Issuing a word -/

/-- Record why a word did not issue (R185). -/
def State.stalled (s : State) (q : Bool) (code : BitVec 6) : State := s.setCore { s.core with res := .stalled q code }

/-- Ask for a page walk (04 R115, 06 R196). -/
def State.walkFor (s : State) (va : Nat) : State :=
  let w := (s.core.pc.ctx, va)
  if s.walks.contains w then s else { s with walks := s.walks ++ [w] }

/-- Issue a word of cluster `k`: apply its effect, or stall, or trap with no other change (R22, R42). -/
def issue (k : Cl) (s : State) (r : Chk State) : Host.Outcome State Fault Refusal :=
  match r with
  | .ok s' => .next s'
  | .error (.queue c) => .next (s.stalled true c)
  | .error .wait => .next (s.stalled false 0)
  | .error (.walk va) => .next ((s.walkFor va).stalled false 0)
  | .error (.ask _ _) => .next (s.stalled false 0)
  | .error (.trap t) => .next (s.takeTrap k t)

/-- Issue a word that is no branch: its effect, then the end of the word. -/
def word (k : Cl) (s : State) (r : Chk State) : Host.Outcome State Fault Refusal :=
  issue k s (r.map (fun s => s.retire k))

/-- Illegal Word with the encoding as detail (R513). -/
def State.illegal {α : Type} (s : State) (k : Cl) : Chk α :=
  raise .illegalWord 0 ((s.core.strm k).iw.zeroExtend 64)

end Sys2Proof.Machine
end

