-- ==== Sys2Proof/Machine/Flags.lean ====
section
/-! DEFINITION. The sticky flags of FPST (02 R63): events set them, none clears them. -/
namespace Sys2Proof.Machine

/-- The bits that events have set in FPST in this cycle. -/
def State.fpEvents (s : State) : BitVec 6 := if s.core.pc.fpAt = s.cyc then s.core.pc.fpEv else 0

/-- OR bits into FPST, in the cycle in which the word issues or the epilogue reads; that of MMA's is R219's (DESIGN CHOICE, log entry 73). -/
def State.orFpst (s : State) (f : BitVec 6) : State :=
  s.setPiece { s.core.pc with fpst := s.core.pc.fpst ||| f, fpEv := s.fpEvents ||| f, fpAt := s.cyc }

/-- NVS [0] and OFS [1]. -/
def flS (f : Fl) : BitVec 6 := BitVec.ofNat 6 (f.nv.toNat + 2 * f.ov.toNat)

/-- NVV [2] and OFV [3]. -/
def flV (f : Fl) : BitVec 6 := BitVec.ofNat 6 (4 * f.nv.toNat + 8 * f.ov.toNat)

/-- NVM [4] and OFM [5]. -/
def flM (f : Fl) : BitVec 6 := BitVec.ofNat 6 (16 * f.nv.toNat + 32 * f.ov.toNat)

def State.flagS (s : State) (f : Fl) : State := s.orFpst (flS f)
def State.flagV (s : State) (f : Fl) : State := s.orFpst (flV f)
def State.flagM (s : State) (f : Fl) : State := s.orFpst (flM f)

end Sys2Proof.Machine
end

