-- ==== Sys2Proof/Machine/Capability.lean ====
section
/-! DEFINITION. Capability and integer forms of A (04 R119 to R123). Tagged forms keep the tag under R111; integer forms
write an untagged value. Poison is consumed except where the value only moves (R117, R123). -/
namespace Sys2Proof.Machine

/-- Cursor of a capability as a 64-bit value. -/
def curOf (c : Cap) : W64 := c.bits.truncate 64

/-- A form on two a registers. -/
def cap2 (f : Cap → Cap → Cap) (d a b : BitVec 5) (s : State) : Host.Outcome State Fault Refusal :=
  word .a s (do
    let x ← s.aVal a 1
    let y ← s.aVal b 2
    .ok (s.putA d (f x y)))

/-- An integer form on two cursors (R119). -/
def capInt (f : W64 → W64 → W64) (d a b : BitVec 5) (s : State) : Host.Outcome State Fault Refusal :=
  cap2 (fun x y => plainCap (f (curOf x) (curOf y))) d a b s

def execCadd (d a b : BitVec 5) (s : State) := cap2 (fun x y => x.move (curOf x + curOf y)) d a b s
def execCsub (d a b : BitVec 5) (s : State) := cap2 (fun x y => x.move (curOf x - curOf y)) d a b s

/-- cmov moves the whole register, tag and poison with it. -/
def execCmov (d a : BitVec 5) (s : State) : Host.Outcome State Fault Refusal :=
  word .a s (do
    let (c, p) ← s.aRaw a 1
    .ok (s.putAP d c p 1))

/-- cclr moves the register with the tag cleared. -/
def execCclr (d a : BitVec 5) (s : State) : Host.Outcome State Fault Refusal :=
  word .a s (do
    let (c, p) ← s.aRaw a 1
    .ok (s.putAP d ⟨false, c.bits⟩ p 1))

def execAIadd (d a b : BitVec 5) (s : State) := capInt (fun x y => x + y) d a b s
def execIsub (d a b : BitVec 5) (s : State) := capInt (fun x y => x - y) d a b s
def execImul (d a b : BitVec 5) (s : State) := capInt (fun x y => x * y) d a b s
def execIand (d a b : BitVec 5) (s : State) := capInt (fun x y => x &&& y) d a b s
def execIor (d a b : BitVec 5) (s : State) := capInt (fun x y => x ||| y) d a b s
def execIxor (d a b : BitVec 5) (s : State) := capInt (fun x y => x ^^^ y) d a b s
def execIsll (d a b : BitVec 5) (s : State) := capInt (fun x y => x <<< (y.toNat % 64)) d a b s
def execIsrl (d a b : BitVec 5) (s : State) := capInt (fun x y => x >>> (y.toNat % 64)) d a b s
def execIsra (d a b : BitVec 5) (s : State) := capInt (fun x y => x.sshiftRight (y.toNat % 64)) d a b s
def execIslt (d a b : BitVec 5) (s : State) := capInt (fun x y => if x.toInt < y.toInt then 1 else 0) d a b s
def execIsltz (d a b : BitVec 5) (s : State) := capInt (fun x y => if x.toNat < y.toNat then 1 else 0) d a b s

/-- AADDI moves the cursor by a signed immediate (R120). -/
def execAaddi (d a : BitVec 5) (i : BitVec 13) (s : State) : Host.Outcome State Fault Refusal :=
  word .a s (do
    let x ← s.aVal a 1
    .ok (s.putA d (x.move (curOf x + i.signExtend 64))))

def execAlih (d : BitVec 5) (i : BitVec 19) (s : State) : Host.Outcome State Fault Refusal :=
  word .a s (.ok (s.putA d (plainCap (i.signExtend 64 <<< 13))))

/-- Bounds set by R112 and R121. `ex` asks for an exact grant. TADDR of its Capability Fault is the cursor of a[a], though nothing is accessed
there (DESIGN CHOICE, log entry 72). -/
def setBounds (x : Cap) (len : Nat) (ex : Bool) : Chk Cap :=
  let addr := curOf x
  if !x.tag then capFault 1 addr
  else match x.request x.cur len with
    | none => capFault 4 addr
    | some (c, lo, hi) =>
      if lo < x.bounds.1 || x.bounds.2 < hi then capFault 4 addr
      else if ex && (lo != x.cur || hi != x.cur + len) then capFault 4 addr
      else .ok c

def execCsetb (d a b : BitVec 5) (s : State) : Host.Outcome State Fault Refusal :=
  word .a s (do
    let x ← s.aVal a 1
    let y ← s.aVal b 2
    let c ← setBounds x y.cur false
    .ok (s.putA d c))

def execCsetbx (d a b : BitVec 5) (s : State) : Host.Outcome State Fault Refusal :=
  word .a s (do
    let x ← s.aVal a 1
    let y ← s.aVal b 2
    let c ← setBounds x y.cur true
    .ok (s.putA d c))

def execCsetbi (d a : BitVec 5) (i : BitVec 13) (s : State) : Host.Outcome State Fault Refusal :=
  word .a s (do
    let x ← s.aVal a 1
    let c ← setBounds x i.toNat false
    .ok (s.putA d c))

/-- CANDP narrows the permissions (R122). -/
def execCandp (d a : BitVec 5) (p : BitVec 12) (s : State) : Host.Outcome State Fault Refusal :=
  word .a s (do
    let x ← s.aVal a 1
    let keep : BitVec 128 := ~~~((~~~p).zeroExtend 128 <<< 112)
    .ok (s.putA d ⟨x.tag, x.bits &&& keep⟩))

/-- The fields that CGET reads (R123). -/
def capField (c : Cap) (f : Nat) : W64 :=
  let (base, limit) := c.bounds
  match f with
  | 0 => BitVec.ofNat 64 base
  | 1 => BitVec.ofNat 64 (limit - base)
  | 2 => BitVec.ofNat 64 c.prm
  | 3 => BitVec.ofNat 64 c.spc
  | 4 => BitVec.ofNat 64 c.tag.toNat
  | 5 => curOf c - BitVec.ofNat 64 base
  | _ => BitVec.ofNat 64 limit

/-- CGET reads a field whatever the tag, and carries the poison bit (R117, R123). -/
def execCget (d a : BitVec 5) (f : BitVec 7) (s : State) : Host.Outcome State Fault Refusal :=
  word .a s (do
    let (c, p) ← s.aRaw a 1
    .ok (s.putAP d (plainCap (capField c f.toNat)) p 1))

/-- CTEST: `b` is no larger than `a` in region and permissions (R123). -/
def capSubset (a b : Cap) : Bool :=
  a.tag && b.tag && a.spc == b.spc && decide (a.bounds.1 ≤ b.bounds.1) && decide (b.bounds.2 ≤ a.bounds.2) &&
    (a.prm &&& b.prm) == b.prm

/-- CTEST and CTEQ read both registers as values; poison makes no difference (R123). -/
def capTest (f : Cap → Cap → Bool) (d a b : BitVec 5) (s : State) : Host.Outcome State Fault Refusal :=
  word .a s (do
    let (x, _) ← s.aRaw a 1
    let (y, _) ← s.aRaw b 2
    .ok (s.putA d (plainCap (if f x y then 1 else 0))))

def execCtest (d a b : BitVec 5) (s : State) := capTest capSubset d a b s
def execCteq (d a b : BitVec 5) (s : State) := capTest (fun x y => decide (x = y)) d a b s

/-- CSETS changes the space; the tag survives only with `sp` (R122). -/
def execCsets (d a : BitVec 5) (n : BitVec 4) (s : State) : Host.Outcome State Fault Refusal :=
  word .a s (do
    let x ← s.aVal a 1
    .ok (s.putA d ⟨x.tag && x.has pSp, (x.bits &&& 0x0FFFFFFFFFFFFFFFFFFFFFFFFFFFFFFF#128) ||| (n.zeroExtend 128 <<< 124)⟩))

end Sys2Proof.Machine
end

