-- ==== Sys2Proof/Machine/Control.lean ====
section
/-! DEFINITION. Control words: branches, calls and loops (03 R82 to R86, 04 R142 to R144, 05 R182, 07 R238), traps and ends
(R87 to R91), the queue words of S and A (R94, R95, R145), waits (R96 to R98), barriers (R99 to R101), steps (R102 to
R106). -/
namespace Sys2Proof.Machine

/-! ## Branches -/

/-- A branch word of S: note the outcome for the BFOL words of its bundle (R23), then jump or fall through. -/
def State.branchS (s : State) (taken : Bool) (t : W64) (call : Bool := false) : State :=
  let s := s.setCore { s.core with bundle := { s.core.bundle with sBranch := some taken } }
  if taken then s.jump .s t call else s.retire .s

/-- A branch word of A, V or M. -/
def State.branch (s : State) (k : Cl) (taken : Bool) (t : W64) : State := if taken then s.jump k t else s.retire k

def execSBr (o : BitVec 19) (s : State) : Host.Outcome State Fault Refusal :=
  issue .s s (.ok (s.branchS true (s.target .s o)))

def execCall (o : BitVec 19) (s : State) : Host.Outcome State Fault Refusal :=
  issue .s s (.ok ((s.putG 30 (s.core.cs.pc + 4)).branchS true (s.target .s o) true))

/-- A conditional branch of S on g[c] (R82). -/
def condS (f : W64 → Bool) (c : BitVec 5) (o : BitVec 19) (s : State) : Host.Outcome State Fault Refusal :=
  issue .s s (do
    let v ← s.gVal c 1
    .ok (s.branchS (f v) (s.target .s o)))

def execSBeqz (c : BitVec 5) (o : BitVec 19) (s : State) := condS (fun v => v == 0) c o s
def execSBnez (c : BitVec 5) (o : BitVec 19) (s : State) := condS (fun v => v != 0) c o s
def execSBltz (c : BitVec 5) (o : BitVec 19) (s : State) := condS (fun v => decide (v.toInt < 0)) c o s
def execSBgez (c : BitVec 5) (o : BitVec 19) (s : State) := condS (fun v => decide (0 ≤ v.toInt)) c o s

/-- Pop one outcome of a cluster's bq (R83). -/
def State.popBq (s : State) (k : Cl) : Chk (State × Bool) := do
  let es ← s.peek (bqCode k) 1
  .ok (s.popN (bqCode k) 1, (es.headD ⟨0, false⟩).v != 0)

def execSBqt (o : BitVec 19) (s : State) : Host.Outcome State Fault Refusal :=
  issue .s s (do
    let (s', b) ← s.popBq .s
    .ok (s'.branchS b (s.target .s o)))

def execSBqf (o : BitVec 19) (s : State) : Host.Outcome State Fault Refusal :=
  issue .s s (do
    let (s', b) ← s.popBq .s
    .ok (s'.branchS (!b) (s.target .s o)))

/-- S has BFOL only so that its maps stay uniform: Bundle Mismatch in a bundle, Illegal Word outside one (R84). -/
def execSBfol (_o : BitVec 19) (s : State) : Host.Outcome State Fault Refusal :=
  issue .s s (if s.core.bundle.on then raise .bundleMismatch else s.illegal .s)

/-- BFOL of A, V or M takes S's outcome (R23). -/
def bfol (k : Cl) (o : BitVec 19) (s : State) : Host.Outcome State Fault Refusal :=
  issue k s (
    let b := s.core.bundle
    if !b.on then s.illegal k
    else if !b.sIsBranch then raise .bundleMismatch
    else match b.sBranch with
      | none => .error .wait
      | some t => .ok (s.branch k t (s.target k o)))

def execABfol (o : BitVec 19) (s : State) := bfol .a o s
def execVBfol (o : BitVec 19) (s : State) := bfol .v o s

/-- A word that REP may not repeat is an Illegal Word after REP, and the repetition is discarded (R224). -/
def State.noRep (s : State) (r : Chk State) : Chk State := if s.core.pc.rep.isSome then s.illegal .m else r

/-- Words of M that are not repeatable. A refused word after REP also discards the repetition. -/
def issueM (s : State) (r : Chk State) : Host.Outcome State Fault Refusal :=
  if s.core.pc.rep.isSome then issue .m (s.setPiece { s.core.pc with rep := none }) (s.illegal .m) else issue .m s r

def execMBfol (o : BitVec 19) (s : State) : Host.Outcome State Fault Refusal :=
  if s.core.pc.rep.isSome then issueM s (s.illegal .m) else bfol .m o s

def execABr (o : BitVec 19) (s : State) : Host.Outcome State Fault Refusal :=
  issue .a s (.ok (s.branch .a true (s.target .a o)))

/-- A conditional branch of A on the cursor of a[c] (R142). -/
def condA (f : W64 → Bool) (c : BitVec 5) (o : BitVec 19) (s : State) : Host.Outcome State Fault Refusal :=
  issue .a s (do
    let v ← s.aCur c 1
    .ok (s.branch .a (f v) (s.target .a o)))

def execABeqz (c : BitVec 5) (o : BitVec 19) (s : State) := condA (fun v => v == 0) c o s
def execABnez (c : BitVec 5) (o : BitVec 19) (s : State) := condA (fun v => v != 0) c o s
def execABltz (c : BitVec 5) (o : BitVec 19) (s : State) := condA (fun v => decide (v.toInt < 0)) c o s
def execABgez (c : BitVec 5) (o : BitVec 19) (s : State) := condA (fun v => decide (0 ≤ v.toInt)) c o s

def execVBr (o : BitVec 19) (s : State) : Host.Outcome State Fault Refusal :=
  issue .v s (.ok (s.branch .v true (s.target .v o)))

/-- BQT and BQF of V and M (R182, R238). -/
def condQ (k : Cl) (want : Bool) (o : BitVec 19) (s : State) : Chk State := do
  let (s', b) ← s.popBq k
  .ok (s'.branch k (b == want) (s.target k o))

def execVBqt (o : BitVec 19) (s : State) : Host.Outcome State Fault Refusal := issue .v s (condQ .v true o s)
def execVBqf (o : BitVec 19) (s : State) : Host.Outcome State Fault Refusal := issue .v s (condQ .v false o s)
def execMBr (o : BitVec 19) (s : State) : Host.Outcome State Fault Refusal :=
  issueM s (.ok (s.branch .m true (s.target .m o)))
def execMBqt (o : BitVec 19) (s : State) : Host.Outcome State Fault Refusal := issueM s (condQ .m true o s)
def execMBqf (o : BitVec 19) (s : State) : Host.Outcome State Fault Refusal := issueM s (condQ .m false o s)

/-- JALR reads its target before it writes the link (R85). -/
def execJalr (d a : BitVec 5) (s : State) : Host.Outcome State Fault Refusal :=
  issue .s s (do
    let t ← s.gVal a 1
    .ok ((s.putG d (s.core.cs.pc + 4)).jump .s t true))

/-- BPUB publishes an outcome to the bq of S, V and M, then branches on it (R144). -/
def execBpub (c : BitVec 5) (o : BitVec 19) (s : State) : Host.Outcome State Fault Refusal :=
  issue .a s (do
    s.room 10
    s.room 11
    s.room 12
    let v ← s.aCur c 1
    let b := v != 0
    let e : PV := ⟨one64' b, false⟩
    .ok ((((s.pushQ 10 e).pushQ 11 e).pushQ 12 e).branch .a b (s.target .a o)))
where
  /-- 1 or 0. -/
  one64' (b : Bool) : W64 := if b then 1 else 0

/-! ## Counted loops -/

def execSLoop (c : BitVec 5) (o : BitVec 19) (s : State) : Host.Outcome State Fault Refusal :=
  issue .s s (do
    let p := s.core.pc
    if s.csrSeen 0x001 p.lc ≠ 0 then raise .loopFault
    else
      let n ← s.gVal c 1
      let pc := s.core.cs.pc
      let t := s.target .s o
      let s := (s.setCore { s.core with res := .issued }).emptyBuf .s
      if n = 0 then .ok (s.setPc .s t)
      else .ok ((s.setPiece { s.core.pc with lc := n, lb := pc + 4, le := t }).setPc .s (pc + 4)))

def execALoop (c : BitVec 5) (o : BitVec 19) (s : State) : Host.Outcome State Fault Refusal :=
  issue .a s (do
    if s.core.pc.aloop.isSome then raise .loopFault
    else
      let n ← s.aCur c 1
      let pc := s.core.ca.pc
      let t := s.target .a o
      let s := (s.setCore { s.core with res := .issued }).emptyBuf .a
      if n = 0 then .ok (s.setPc .a t)
      else .ok ((s.setPiece { s.core.pc with aloop := some ⟨n, pc + 4, t⟩ }).setPc .a (pc + 4)))

def execMLoop (c : BitVec 3) (o : BitVec 19) (s : State) : Host.Outcome State Fault Refusal :=
  issueM s (do
    if s.core.pc.mloop.isSome then raise .loopFault
    else
      let n ← s.iVal c 1
      let pc := s.core.cm.pc
      let t := s.target .m o
      let s := s.setCore { s.core with res := .issued }
      if n = 0 then .ok (s.setPc .m t)
      else .ok ((s.setPiece { s.core.pc with mloop := some ⟨n.zeroExtend 64, pc + 4, t⟩ }).setPc .m (pc + 4)))

/-! ## Ends and traps -/

/-- Operations launched from core `k` that are not complete (08 R267) and that `mine` picks: queued, taken, in flight, running as a
collective or a Veneer send, held by a stop, or fired and on their way. -/
def State.opsOpen (s : State) (k : Nat) (mine : Op → Bool) : Bool :=
  let c := s.coreOf k
  let here (o : Op) : Bool := o.core == k && mine o
  c.engq.any (fun e => e.2.any here) || c.copies.any (fun x => here x.op) || c.ga.any (fun x => here x.op) ||
  s.fab.colls.any (fun x => here x.op) || s.fab.sends.any (fun x => here x.op) ||
  s.shr.stops.any (fun e => (e.2.held.any here) || e.2.fired.any (fun f => here f.2))

/-- Engine commands and epilogues of the running piece that are not complete (R106). -/
def State.enginesBusy (s : State) : Bool :=
  let c := s.core
  s.opsOpen s.k (fun o => o.pid == c.pc.pid) || c.land.any (fun l => l.epi && decide (c.pc.began ≤ l.start)) ||
  c.epir.any (fun e => e.pid == c.pc.pid)

/-- Engine commands and epilogues issued on the core in focus, of this piece or of one before it, that are not complete (R100). -/
def State.enginesOpen (s : State) : Bool := s.opsOpen s.k (fun _ => true) || s.core.land.any Landing.epi || !s.core.epir.isEmpty

/-- An access that writes. -/
def Acc.writes (a : Acc) : Bool :=
  match a.op with
  | .store .. | .storeRow .. | .storeCap .. | .scatLane .. | .atom .. | .handler .. | .line .. => true
  | _ => false

/-- An access that reads. A posted atomic is a store, and nobody sees its read part (14 R367). -/
def Acc.reads (a : Acc) : Bool :=
  match a.op with
  | .load .. | .loadRow .. | .loadCap .. | .gathLane .. => true
  | .atom _ ret _ _ | .handler _ ret _ => ret.isSome
  | _ => false

def Acc.isFence (a : Acc) : Bool :=
  match a.op with
  | .fence .. => true
  | _ => false

/-- The quiescence that STEPEND waits for (R106). -/
def State.quiescent (s : State) : Bool := !s.enginesBusy && !s.core.pend.any (fun a => a.writes && a.vers)

/-- A cluster becomes inactive (R11, R90, R181, R186); with the last one the piece ends (R205). -/
def State.endCluster (s : State) (k : Cl) : State :=
  let c := { s.core with res := .issued }
  let c := c.setStrm k { c.strm k with act := false }
  let c := c.dropQueues k s.cyc
  let p := match k with
    | .s => { c.pc with lc := 0 }
    | .a => { c.pc with aloop := none }
    | .v => { c.pc with loopr := none }
    | .m => { c.pc with mloop := none, rep := none }
  let s := s.setCore { c with pc := p }
  if c.cs.act || c.ca.act || c.cv.act || c.cm.act then s else s.endPiece false

/-- END of S waits as STEPEND waits when the piece is inside a step (R90). -/
def execSEnd (s : State) : Host.Outcome State Fault Refusal :=
  issue .s s (if s.core.pc.stepIn && !s.quiescent then .error .wait else .ok (s.endCluster .s))

def execAEnd (s : State) : Host.Outcome State Fault Refusal := issue .a s (.ok (s.endCluster .a))
def execVEnd (s : State) : Host.Outcome State Fault Refusal := issue .v s (.ok (s.endCluster .v))
def execMEnd (s : State) : Host.Outcome State Fault Refusal := issueM s (.ok (s.endCluster .m))

/-- TRAP raises Software Trap with its code (R87). -/
def execTrap (i : BitVec 13) (s : State) : Host.Outcome State Fault Refusal :=
  issue .s s (raise .softwareTrap i.toNat)

/-- ERET outside a handler is an Illegal Word (R89). -/
def execEret (s : State) : Host.Outcome State Fault Refusal :=
  issue .s s (if s.core.pc.handler then .ok s.trapReturn else s.illegal .s)

/-- EARLY marks the early point (R91): the piece counts as early once every write issued before it has performed. -/
def execEarly (s : State) : Host.Outcome State Fault Refusal :=
  word .s s (
    let p := s.core.pc
    if p.isEarly then .ok s
    else
      let s := s.setPiece { p with isEarly := true, early := some s.nextId }
      match s.launch p.li with
      | none => .ok s
      | some l => .ok ((s.setLaunch p.li (some { l with earlyWait := l.earlyWait ++ [(p.q, s.k, s.nextId)] })).fresh))

/-! ## Queue words of S and A -/

def execSQpush (q : BitVec 6) (a : BitVec 5) (s : State) : Host.Outcome State Fault Refusal :=
  word .s s (do
    s.room q.toNat
    let (v, p) ← s.gRaw a 1
    .ok (s.pushQ q.toNat ⟨v, p⟩))

def execSQpop (d : BitVec 5) (q : BitVec 6) (s : State) : Host.Outcome State Fault Refusal :=
  word .s s (do
    let es ← s.peek q.toNat 1
    let e := es.headD ⟨0, false⟩
    .ok ((s.popN q.toNat 1).putGP d e.v e.p 1))

/-- FMTQ pushes a format word; a poisoned one traps (R95). -/
def execFmtq (a : BitVec 5) (s : State) : Host.Outcome State Fault Refusal :=
  word .s s (do
    s.room 8
    let v ← s.gVal a 1
    .ok (s.pushQ 8 ⟨v &&& 0xFFFFFFFF#64, false⟩))

def execAQpush (q : BitVec 6) (a : BitVec 5) (s : State) : Host.Outcome State Fault Refusal :=
  word .a s (do
    s.room q.toNat
    let (c, p) ← s.aRaw a 1
    .ok (s.pushQ q.toNat ⟨c.bits.truncate 64, p⟩))

def execAQpop (d : BitVec 5) (q : BitVec 6) (s : State) : Host.Outcome State Fault Refusal :=
  word .a s (do
    let es ← s.peek q.toNat 1
    let e := es.headD ⟨0, false⟩
    .ok ((s.popN q.toNat 1).putAP d (plainCap e.v) e.p 1))

/-! ## Waits -/

/-- WAITC (R96). -/
def execWaitc (a : BitVec 5) (s : State) : Host.Outcome State Fault Refusal :=
  word .s s (do
    let v ← s.gVal a 1
    if v.toNat ≤ s.cyc then .ok s else .error .wait)

/-- WAITG proceeds once the gauge has reached the target, and writes the gauge as observed (R97). -/
def execWaitg (d a : BitVec 5) (e : Bool) (g : BitVec 8) (s : State) : Host.Outcome State Fault Refusal :=
  word .s s (do
    let v ← s.gVal a 1
    let x := s.gauge ⟨e, g⟩
    if reached x (v.truncate 32) then .ok (s.putG d (x.zeroExtend 64)) else .error .wait)

/-- Promise copies of the core whose ENG issued before place `n` of the program order and that have not landed (R280). -/
def Core.promisesOpen (c : Core) (n : Nat) : Bool :=
  c.copies.any (fun x => !x.incl && !x.op.stop && decide (x.op.eid < n)) ||
  c.engq.any (fun e => e.1 < 2 && e.2.any (fun o => o.promises && decide (o.eid < n)))

/-- WAITL, a CSRR of LANDW (R280): waits until every promise copy has landed whose ENG issued before it. Its place is kept while it
stalls; a trap, a checkpoint and a halt forget it (R275, `Piece.restart`). -/
def execWaitl (d : BitVec 5) (s : State) : Host.Outcome State Fault Refusal :=
  let n := s.core.pc.waitl.getD s.nextId
  if s.core.promisesOpen n then .next ((s.setPiece { s.core.pc with waitl := some n }).stalled false 0)
  else
    let v := if s.core.pc.waitl.isSome then s.core.pc.lastLand + 1 else s.cyc
    word .s s (.ok ((s.setPiece { s.core.pc with waitl := none }).putG d (BitVec.ofNat 64 v) 3))

/-! ## Barriers (R99 to R101, 11 R316, 13 R354) -/

def barEmpty : Barrier := ⟨0, 0, false, 0, 0⟩

/-- Number of a barrier in the shared table: cluster, device, or fabric (per context, 21 R508). -/
def State.barKey (s : State) (sc : BitVec 2) (n : BitVec 6) : Nat :=
  match sc.toNat with
  | 0 => s.clu * 16 + n.toNat % 16
  | 1 => 65536 + n.toNat
  | _ => 131072 + s.core.pc.ctx.toNat * 8 + n.toNat % 8

def State.barrier (s : State) (key : Nat) : Barrier := Map.get barEmpty s.shr.bars key
def State.setBarrier (s : State) (key : Nat) (b : Barrier) : State :=
  s.setShr { s.shr with bars := Map.set barEmpty s.shr.bars key b }

/-- One arrival (R316): the first fixes count and context, the last completes the round. A fabric barrier's round stays
open until the tree returns (21 R508). -/
def Barrier.arrive (b : Barrier) (fabric : Bool) (ctx : Ctx) (n : BitVec 9) : Barrier :=
  let b := if b.open_ then b else { b with open_ := true, ctx := ctx, fix := n, arr := 0 }
  let b := { b with arr := b.arr + 1 }
  if b.arr = b.fix && !fabric then ⟨b.round + 1, 0, false, 0, 0⟩ else b

/-- Whether an arrival is refused with Barrier Fault (R99, R316). A further arrival at a fabric barrier whose count has arrived while the
tree has not returned is refused too (DESIGN CHOICE, log entry 74). -/
def Barrier.refuses (b : Barrier) (sc : BitVec 2) (ctx : Ctx) (n : Nat) : Bool :=
  n = 0 || decide ((if sc = 0 then 8 else 384) < n) || (b.open_ && (b.ctx != ctx || b.fix.toNat != n || b.arr == b.fix))

/-- The wait of the program, or of the handler that runs (R275). -/
def Piece.wait (p : Piece) : Option BarWait := if p.handler then p.barH else p.bar
def Piece.setWait (p : Piece) (w : Option BarWait) : Piece := if p.handler then { p with barH := w } else { p with bar := w }

/-- The arrival that the BAR at which S stands has made already: same word, scope and number (R101). -/
def State.arrived (s : State) (sc : BitVec 2) (n : BitVec 6) : Option BarWait :=
  s.core.pc.wait.filter (fun w => w.pc == s.core.cs.pc && w.sc == sc && w.n == n)

/-- The common part of BAR and BAR_F once the arrival may count. Arrivals of one cycle are counted in ascending index of their cores
(11 R316, 13 R354). -/
def barrierWord (a : BitVec 5) (sc : BitVec 2) (n : BitVec 6) (s : State) : Host.Outcome State Fault Refusal :=
  match s.arrived sc n with
  | some w =>
    if w.fail then issue .s (s.setPiece (s.core.pc.setWait none)) (raise .barrierFault n.toNat)
    else if w.done then word .s s (.ok (s.setPiece (s.core.pc.setWait none))) else .next (s.stalled false 0)
  | none =>
    match s.gVal a 1 with
    | .error e => issue .s s (.error e)
    | .ok v =>
      let cnt := nb v.toNat 0 16
      let key := s.barKey sc n
      let b := s.barrier key
      if !s.mayGo (resBar key) s.k then .next (s.stalled false 0)
      else if b.refuses sc s.core.pc.ctx cnt then issue .s s (raise .barrierFault n.toNat)
      else
        let s' := (s.setBarrier key (b.arrive (sc == 2) s.core.pc.ctx (BitVec.ofNat 9 cnt))).went (resBar key) s.k
        .next ((s'.setPiece (s'.core.pc.setWait (some ⟨s.core.cs.pc, sc, n, b.round, false, false⟩))).stalled false 0)

def execBar (a : BitVec 5) (sc : BitVec 2) (n : BitVec 6) (s : State) : Host.Outcome State Fault Refusal :=
  barrierWord a sc n s

/-- An access has performed at a scope of R356 although its answer has not come (R357): a remote one that has left, below fabric scope,
except that at device scope a write to a versioned line must have performed at its home. -/
def Acc.leftAt (x : Acc) (sc : BitVec 2) : Bool := x.rid.isSome && sc != 3 && !(sc == 2 && x.vers && x.writes)

/-- Every access of this core's A has performed at a barrier's scope (R99, R100): cluster, device or fabric. -/
def Core.performedAt (c : Core) (sc : BitVec 2) : Bool := c.pend.all (fun a => a.isFence || a.leftAt (sc + 1))

/-- BAR_F: its bundle must have an A member; the arrival counts only once A's accesses and the writes of earlier engine
commands have performed (R100). -/
def execBarF (a : BitVec 5) (sc : BitVec 2) (n : BitVec 6) (s : State) : Host.Outcome State Fault Refusal :=
  if !s.core.bundle.on then issue .s s (s.illegal .s)
  else if !s.core.bundle.hasA then issue .s s (raise .bundleMismatch)
  else if (s.arrived sc n).isNone && (!s.core.performedAt sc || s.enginesOpen) then
    match s.gVal a 1 with
    | .error e => issue .s s (.error e)
    | .ok _ => .next (s.stalled false 0)
  else barrierWord a sc n s

/-! ## Steps (R102 to R106) -/

def execStepbeg (d : BitVec 5) (s : State) : Host.Outcome State Fault Refusal :=
  word .s s (
    let p := s.core.pc
    let t := (s.ctx p.ctx).step
    if !t.open_ || t.closed || p.stepIn then raise .stepState
    else .ok ((s.setPiece { p with stepIn := true }).putG d
      (BitVec.ofNat 64 (nb t.k.toNat 0 48 * 65536 + t.t.toNat))))

/-- A poisoned g[a] is found before the state of the step (log entry 58). -/
def execStepvote (a : BitVec 5) (u : Bool) (f : BitVec 5) (s : State) : Host.Outcome State Fault Refusal :=
  word .s s (do
    let v ← s.gVal a 1
    if !s.core.pc.stepIn then raise .stepState
    else
      let auto := if u && (s.csrSeen 0x082 (s.core.pc.fpst.zeroExtend 64)).toNat % 64 != 0 then vOvf else 0
      .ok (s.veto s.core.pc.ctx (f ||| v.truncate 5 ||| auto)))

def execStepend (d : BitVec 5) (s : State) : Host.Outcome State Fault Refusal :=
  word .s s (
    if !s.core.pc.stepIn then raise .stepState
    else if !s.quiescent then .error .wait
    else .ok ((s.setPiece { s.core.pc with stepIn := false }).putG d
      ((s.ctx s.core.pc.ctx).step.t.zeroExtend 64)))

end Sys2Proof.Machine
end

