-- ==== Sys2Proof/Machine/Access.lean ====
section
/-! DEFINITION. The memory words of A as they issue (04 R124 to R141): checks, queue entries, and the access that then
waits to perform (14 R358). How an access performs stands in Perform.lean. -/
namespace Sys2Proof.Machine

/-! ## Order among A's accesses (14 R361 to R363, 04 R131) -/

/-- Where a fabric physical address lies now: on this device in the frame to which its content has moved (16 R388). -/
def State.nowAt (s : State) (pa : Nat) : Nat := if s.remote pa then pa else s.peer.toNat * 2 ^ 45 + s.homeKey pa

/-- The bytes of an access as runs in one memory: offset in the access, space, address, length. In HBM the runs end with the 64 KiB frames. -/
def State.accRuns (s : State) (x : Acc) : List (Nat × Nat × Nat × Nat) :=
  match x.loc with
  | .hbm a =>
    let m := min x.n (65536 - a % 65536)
    if m = x.n then [(0, 0, s.nowAt a, m)] else [(0, 0, s.nowAt a, m), (m, 0, s.nowAt (a + m), x.n - m)]
  | .sram o => [(0, 1, o, x.n)]
  | .scr o => [(0, 2, o, x.n)]
  | .fifo b => [(0, 3, b, 1)]

/-- Two accesses share a byte. -/
def Acc.overlaps (s : State) (x y : Acc) : Bool :=
  (s.accRuns x).any (fun p => (s.accRuns y).any (fun q =>
    p.2.1 == q.2.1 && decide (p.2.2.1 < q.2.2.1 + q.2.2.2) && decide (q.2.2.1 < p.2.2.1 + p.2.2.2)))

/-- Home of an access: a peer, this device for SRAM and scratch (R362). -/
def Acc.home (s : State) (x : Acc) : Nat :=
  match x.loc with
  | .hbm a => a / 2 ^ 45
  | _ => s.peer.toNat

/-- A row access, whose sectors perform one by one (R359). -/
def Acc.isRow (x : Acc) : Bool :=
  match x.op with
  | .loadRow .. | .storeRow .. => true
  | _ => false

/-- The two parts of one row access (R359: its sectors are separate units). -/
def Acc.sameRow (x y : Acc) : Bool :=
  match x.op, y.op with
  | .loadRow i _, .loadRow j _ => i == j
  | .storeRow i _, .storeRow j _ => i == j
  | _, _ => false

/-- A store that takes an entry of the forwarding table: of a row in two parts only the first. -/
def Acc.inTable (x : Acc) : Bool :=
  match x.op with
  | .storeRow i _ => x.id == i
  | _ => x.writes

/-- `x`, earlier in program order and not performed, holds back `y` (R131, R361, R362): all accesses to a byte perform in program order.
An earlier remote access that has left the device holds back nothing of the same flow at its bytes, and a store that has left nothing
at its home (R357). -/
def Acc.blocks (s : State) (x y : Acc) : Bool :=
  match x.op with
  | .fence _ mask => mask.toNat.testBit y.cls.toNat && !y.isFence
  | _ =>
    if y.isFence || x.sameRow y then false
    else x.overlaps s y && !(x.rid.isSome && x.home s == y.home s) ||
      (x.cls == y.cls &&
        (x.reads || (x.writes && y.writes && x.home s == y.home s && x.rid.isNone)))

/-- The accesses before `id`. -/
def accBefore (ps : List Acc) (id : Nat) : List Acc := ps.takeWhile (fun x => x.id != id)

/-- An access may perform now: nothing before it holds it back, and a store has its entry in the forwarding table (06 R195). -/
def State.mayPerform (s : State) (y : Acc) : Bool :=
  let ps := accBefore s.core.pend y.id
  !ps.any (fun x => x.blocks s y) && !(y.inTable && decide (32 ≤ (ps.filter Acc.inTable).length))

/-- A fence is satisfied when every earlier access of its classes has performed at its scope (R131, R357). -/
def State.fenceDone (s : State) (f : Acc) : Bool :=
  match f.op with
  | .fence sc mask => (accBefore s.core.pend f.id).all (fun x =>
      x.isFence || !mask.toNat.testBit x.cls.toNat || x.leftAt sc)
  | _ => true

/-- Fences whose classes are done leave the list (R131). Fuel is the number of accesses. -/
def dropFences (s : State) : Nat → State
  | 0 => s
  | n + 1 =>
    match s.core.pend.find? (fun x => x.isFence && s.fenceDone x) with
    | none => s
    | some f => dropFences (s.setCore { s.core with pend := s.core.pend.filter (fun x => x.id != f.id) }) n

def State.settleFences (s : State) : State := dropFences s (s.core.pend.length)

/-- The forwarding table has no free entry for another store (06 R195). The lanes of a SCAT take its entries in ascending order as they
become free, and A stalls until the last has one. -/
def State.tableFull (s : State) : Bool := decide (32 ≤ (s.core.pend.filter Acc.inTable).length)

/-- A new access. -/
def State.newAcc (s : State) (cls : BitVec 4) (p : Place) (n : Nat) (op : AccOp) (c : Cap) : Acc :=
  let t := (s.ctx s.core.pc.ctx).step
  { id := s.nextId, cls := cls, loc := p.loc, n := n, op := op, ctx := s.core.pc.ctx, li := s.core.pc.li,
    pid := s.core.pc.pid, att := t.t, stepOpen := t.open_, vers := p.vers, vw := c.has pVw, rid := none,
    left := List.range (cdiv n 32), was := [] }

/-- Queue the access behind the others. -/
def State.addAcc (s : State) (a : Acc) : State := ({ s with core := { s.core with pend := s.core.pend ++ [a] } } : State).fresh

/-- Base register of a memory word: check 1 of R115. -/
def State.baseReg (s : State) (b : BitVec 5) (off : Int) : Chk Cap := do
  let (c, p) ← s.aRaw b 1
  if p then raise .poisonConsumed 0 (w64 (eaOf c off)) else .ok c

/-! ## FIFO banks (R129, 11 R307) -/

def State.fifo (s : State) (bank : Nat) : List (Byte × Bool) := Map.get [] s.shr.fifo (s.clu * 48 + bank)
def State.setFifo (s : State) (bank : Nat) (l : List (Byte × Bool)) : State :=
  s.setShr { s.shr with fifo := Map.set [] s.shr.fifo (s.clu * 48 + bank) l }

/-- Pop `n` bytes from the head; A stalls until they are held. Within a cycle cores are served in ascending index, pops before pushes. -/
def State.fifoPop (s : State) (bank n : Nat) (a : Acc) (code : Nat) : Chk (State × List (Byte × Bool)) :=
  if !s.mayPerform a then .error .wait
  else if (s.fifo bank).length < n || !s.mayGo (resFifo s.clu bank) s.k then .error (.queue (BitVec.ofNat 6 code))
  else .ok ((s.setFifo bank ((s.fifo bank).drop n)).went (resFifo s.clu bank) s.k, (s.fifo bank).take n)

/-- Push bytes at the tail; A stalls until there is room. -/
def State.fifoPush (s : State) (bank : Nat) (l : List (Byte × Bool)) (a : Acc) (code : Nat) : Chk State :=
  if !s.mayPerform a then .error .wait
  else if 524288 < (s.fifo bank).length + l.length || !s.mayGo (resFifo s.clu bank) (384 + s.k) then .error (.queue (BitVec.ofNat 6 code))
  else .ok ((s.setFifo bank (s.fifo bank ++ l)).went (resFifo s.clu bank) (384 + s.k))

/-! ## Rows that fill piece by piece -/

/-- Change a reserved entry that is not yet filled. -/
def Queue.patch {α : Type} (q : Queue α) (id : Nat) (f : α → α) : Queue α :=
  { q with ents := q.ents.map (fun e => if e.id == id && !e.filled then { e with v := f e.v } else e) }

/-- Set `n` lanes of a row from lane `lo` on, and their poison. -/
def RowV.setLanes (r : RowV) (lo n v : Nat) (bad : Bool) : RowV :=
  let m : BitVec 2048 := BitVec.ofNat 2048 ((2 ^ (32 * n) - 1) * 2 ^ (32 * lo))
  let pm : BitVec 64 := BitVec.ofNat 64 ((2 ^ n - 1) * 2 ^ lo)
  ⟨(r.bits &&& ~~~m) ||| (BitVec.ofNat 2048 (v * 2 ^ (32 * lo)) &&& m), if bad then r.p ||| pm else r.p &&& ~~~pm⟩

def State.patchRow (s : State) (id : Nat) (f : RowV → RowV) : State :=
  s.setCore (s.core.setRq 6 ((s.core.rq 6).patch id f))

/-- The row is complete: what stands in the reserved entry is its value. -/
def State.sealRow (s : State) (id : Nat) : State :=
  match (s.core.rq 6).ents.find? (fun e => e.id == id && !e.filled) with
  | some e => s.fillRow 6 id e.v
  | none => s

/-- Another lane of the gather, or the other part of the row load, whose row is `id` has still to perform. -/
def Core.gathering (c : Core) (id me : Nat) : Bool :=
  c.pend.any (fun a => a.id != me && (match a.op with
    | .gathLane i _ => i == id
    | .loadRow i _ => i == id
    | _ => false))

/-! ## Rows in two places: a row that meets two pages, two frames or two banks (R113, R115, 06 R196) -/

/-- A part of a row: offset in the row, bytes, place. -/
abbrev RowPart := Nat × Nat × Place

/-- Bytes from address `a` to the end of the page, the bank or the frame that holds it. -/
def State.placeEnd (s : State) (c : Cap) (a : Nat) : Nat :=
  match c.spc with
  | 0 => match s.page s.core.pc.ctx a with
    | some p => p.va + 2 ^ p.sz - a
    | none => 256
  | 1 => 524288 - a % 524288
  | 3 => 65536 - a % 65536
  | _ => 256

/-- Place of a failed check in the order of R115. -/
def checkRank (t : Trap) : Nat :=
  match t.cause with
  | .capabilityFault => if t.sub = 5 then 7 else 10
  | .translationFault => 8
  | .accessFault => 9
  | _ => 11

/-- A Capability Fault of a row names the effective address of the word (09 R272). -/
def rowTrap (ea : W64) (t : Trap) : Trap := if t.cause = .capabilityFault then { t with addr := ea } else t

/-- Two places that follow one another in the same memory, of one home and of one kind. -/
def Place.joins (p q : Place) (k : Nat) : Bool :=
  p.vers == q.vers && (match p.loc, q.loc with
    | .hbm x, .hbm y => decide (y = x + k) && decide (x / 2 ^ 45 = y / 2 ^ 45)
    | .sram x, .sram y => decide (y = x + k)
    | _, _ => false)

/-- Both parts of a row checked: while one of them waits the word stalls; of two failures that of the earlier check is raised (R115);
one piece of memory is one part. -/
def rowJoin (ea : W64) (k : Nat) (r q : Chk Place) : Chk (List RowPart) :=
  match r, q with
  | .ok p, .ok p2 => .ok (if p.joins p2 k then [(0, 256, p)] else [(0, k, p), (k, 256 - k, p2)])
  | .error (.trap t), .error (.trap u) => .error (.trap (rowTrap ea (if checkRank u < checkRank t then u else t)))
  | .error (.trap t), .ok _ => .error (.trap (rowTrap ea t))
  | .ok _, .error (.trap u) => .error (.trap (rowTrap ea u))
  | .error (.trap _), .error e => .error e
  | .error e, _ => .error e
  | .ok _, .error e => .error e

/-- Checks 2 to 11 of R115 on the 256 bytes of a row, every byte of which is translated and checked. -/
def State.rowPlaces (s : State) (c : Cap) (ea : Int) (w : Want) : Chk (List RowPart) := do
  capCheck c ea 256 w
  let k := s.placeEnd c ea.toNat
  if 256 ≤ k then
    let p ← s.placeOf c s.core.pc.ctx ea 256 w
    .ok [(0, 256, p)]
  else
    rowJoin (w64 ea) k (s.placeOf c s.core.pc.ctx ea k w) (s.placeOf c s.core.pc.ctx (ea + k) (256 - k) w)

/-! ## Forwarding (06 R195) -/

/-- Space and address of the byte of an access at offset `off`. -/
def State.accPos (s : State) (x : Acc) (off : Nat := 0) : Nat × Nat :=
  match x.loc with
  | .hbm a => (0, s.nowAt (a + off))
  | .sram o => (1, o + off)
  | .scr o => (2, o + off)
  | .fifo b => (3, b)

/-- The bytes that a plain store writes, each with its poison. -/
def AccOp.plain : AccOp → Option (List (Byte × Bool))
  | .store bs p => some (bs.map (fun b => (b, p)))
  | .scatLane bs p => some (bs.map (fun b => (b, p)))
  | .storeCap c p => some ((bytesLE 16 c.bits.toNat).map (fun b => (b, p)))
  | .storeRow _ r => some ((bytesLE 256 r.bits.toNat).zip ((List.range 256).map (fun j => r.p.toNat.testBit (j / 4))))
  | _ => none

/-- The byte at address `a` that a store not yet performed would write. -/
def State.byteOf (s : State) (x : Acc) (a : Nat × Nat) : Option (Byte × Bool) :=
  match x.op.plain, (s.accRuns x).find? (fun p => p.2.1 == a.1 && decide (p.2.2.1 ≤ a.2) && decide (a.2 < p.2.2.1 + p.2.2.2)) with
  | some bs, some p =>
    let off := p.1 + (a.2 - p.2.2.1)
    if !x.isRow || x.left.contains (off / 32) then bs[off]? else none
  | _, _ => none

/-- The latest of the earlier stores to a byte. -/
def State.forwardByte (s : State) (ps : List Acc) (a : Nat × Nat) : Option (Byte × Bool) :=
  ps.foldl (fun r x => match s.byteOf x a with
    | some b => some b
    | none => r) none

/-- Poison of a sector once the earlier stores have performed (04 R126). -/
def State.forwardPois (s : State) (ps : List Acc) (sp sec : Nat) (p0 : Bool) : Bool :=
  ps.foldl (fun p x =>
    let hit := ((List.range 32).map (fun i => s.byteOf x (sp, 32 * sec + i))).filterMap id
    if hit.any Prod.snd then true else if hit.length = 32 then false else p) p0

/-- `x` holds back a load `y` that takes forwarded data: order within the class, fences, atomics on its bytes. -/
def Acc.blocksForward (s : State) (x y : Acc) : Bool := if x.op.plain.isSome then false else x.blocks s y

/-- The memory key of the byte at offset `off` of an access that stays on this device. -/
def State.accKey (s : State) (a : Acc) (off : Nat := 0) : Nat :=
  match a.loc with
  | .hbm pa => s.homeKey (pa + off)
  | .sram o => sramKey s.clu (o + off)
  | .scr o => scrKey s.k (o + off)
  | .fifo b => sramKey s.clu (b * 2 ^ 19)

/-- The access goes to another peer. -/
def State.isFar (s : State) (a : Acc) : Bool :=
  match a.loc with
  | .hbm pa => s.remote pa
  | _ => false

/-- `n` bytes of load `y` from offset `off` on, with the poison of their sectors, if stores that have not performed cover them all. What
else poisons a sector of another peer's memory that they cover in part is not known here (log entry 14). -/
def State.forwarded (s : State) (y : Acc) (off n : Nat) : Option (Bytes × Bool) :=
  let k := s.accKey y off
  let ps := accBefore s.core.pend y.id
  let p := s.accPos y off
  let bs := (List.range n).map (fun i => s.forwardByte ps (p.1, p.2 + i))
  if ps.any (fun x => x.blocksForward s y) || bs.any Option.isNone then none
  else
    let p0 (u : Nat) : Bool := if s.isFar y then s.choice (4096 + u % 16) else s.vpois (k - k % 32)
    some ((bs.filterMap id).map Prod.fst, (unitsOf 32 p.2 n).any (fun u => s.forwardPois ps p.1 u (p0 u)))

/-- Tag of the granule at `a` once the earlier stores have performed: that of the last one to it, where it is an STC (04 R114). -/
def State.forwardTag (s : State) (ps : List Acc) (a : Nat × Nat) : Bool :=
  ps.foldl (fun t x =>
    let hit := (List.range 16).any (fun i => (s.byteOf x (a.1, a.2 + i)).isSome)
    if !hit then t else match x.op with
      | .storeCap c bad => c.tag && !bad
      | _ => false) false

/-! ## Loads -/

/-- A value of `n` bytes extended to 64 bits (R124). -/
def extend (n : Nat) (sx : Bool) (v : Nat) : W64 := w64 (bitsInt (8 * n) sx v)

/-- LD of `n` bytes (R124, R125). -/
def loadWord (n : Nat) (sx : Bool) (b : BitVec 5) (q : BitVec 3) (cl : BitVec 4) (i : BitVec 13) (s : State) :
    Host.Outcome State Fault Refusal :=
  word .a s (do
    let off := exts i * n
    s.room q.toNat
    let c ← s.baseReg b off
    let p ← s.access c (eaOf c off) n { spaces := [0, 1, 2, 3], prm := [pL], align := n, fifo := true, ld := true }
    let a := s.newAcc cl p n (.load (q.zeroExtend 6) s.nextId sx) c
    match p.loc with
    | .fifo bank =>
      let (s, bs) ← s.fifoPop bank n a q.toNat
      .ok (s.pushQ q.toNat ⟨extend n sx (natLE (bs.map Prod.fst)), bs.any Prod.snd⟩)
    | _ => .ok ((s.reserveQ q.toNat s.nextId).addAcc a))

def execLdS8 (b : BitVec 5) (q : BitVec 3) (cl : BitVec 4) (i : BitVec 13) (s : State) := loadWord 1 true b q cl i s
def execLdZ8 (b : BitVec 5) (q : BitVec 3) (cl : BitVec 4) (i : BitVec 13) (s : State) := loadWord 1 false b q cl i s
def execLdS16 (b : BitVec 5) (q : BitVec 3) (cl : BitVec 4) (i : BitVec 13) (s : State) := loadWord 2 true b q cl i s
def execLdZ16 (b : BitVec 5) (q : BitVec 3) (cl : BitVec 4) (i : BitVec 13) (s : State) := loadWord 2 false b q cl i s
def execLdS32 (b : BitVec 5) (q : BitVec 3) (cl : BitVec 4) (i : BitVec 13) (s : State) := loadWord 4 true b q cl i s
def execLdZ32 (b : BitVec 5) (q : BitVec 3) (cl : BitVec 4) (i : BitVec 13) (s : State) := loadWord 4 false b q cl i s
def execLd64 (b : BitVec 5) (q : BitVec 3) (cl : BitVec 4) (i : BitVec 13) (s : State) := loadWord 8 false b q cl i s

/-- Poison of the 64 lanes of a row from the poison of its 256 bytes. -/
def lanePois (bs : List Bool) : BitVec 64 := poisOf ((List.range 64).map (fun j => ((bs.drop (4 * j)).take 4).any id))

/-- The parts of a row load in two places: a part in a FIFO bank is popped at once, another waits to perform. The row is complete when no
part waits. -/
def State.loadParts (s : State) (cl : BitVec 4) (c : Cap) (id : Nat) : List RowPart → Chk State
  | [] => .ok (if s.core.gathering id s.nextId then s else s.sealRow id)
  | (o, m, p) :: r =>
    let a := s.newAcc cl p m (.loadRow id (o / 32)) c
    match p.loc with
    | .fifo bank => do
      let (s, bs) ← s.fifoPop bank m a 6
      let s := (List.range (m / 4)).foldl (fun s j =>
        let l := (bs.drop (4 * j)).take 4
        s.patchRow id (fun r => r.setLanes (o / 4 + j) 1 (natLE (l.map Prod.fst)) (l.any Prod.snd))) s
      s.loadParts cl c id r
    | _ => (s.addAcc a).loadParts cl c id r

def execLdrow (b : BitVec 5) (cl : BitVec 4) (i : BitVec 13) (s : State) : Host.Outcome State Fault Refusal :=
  word .a s (do
    let off := exts i * 256
    s.roomRow 6
    let c ← s.baseReg b off
    let ps ← s.rowPlaces c (eaOf c off) { spaces := [0, 1, 2, 3], prm := [pL], align := 32, fifo := true, ld := true }
    match ps with
    | [(_, _, p)] =>
      let a := s.newAcc cl p 256 (.loadRow s.nextId 0) c
      match p.loc with
      | .fifo bank =>
        let (s, bs) ← s.fifoPop bank 256 a 6
        .ok (s.pushRow 6 ⟨BitVec.ofNat 2048 (natLE (bs.map Prod.fst)), lanePois (bs.map Prod.snd)⟩)
      | _ => .ok ((s.reserveRow 6 s.nextId).addAcc a)
    | _ => (s.reserveRow 6 s.nextId).fresh.loadParts cl c s.nextId ps)

/-! ## Stores -/

/-- ST of `n` bytes from q1 or q3 (R124). -/
def storeWord (n : Nat) (b : BitVec 5) (q : BitVec 3) (cl : BitVec 4) (i : BitVec 13) (s : State) :
    Host.Outcome State Fault Refusal :=
  word .a s (do
    let off := exts i * n
    let es ← s.peek q.toNat 1
    let e := es.headD ⟨0, false⟩
    if s.tableFull then .error .wait
    else
      let c ← s.baseReg b off
      let p ← s.access c (eaOf c off) n { spaces := [0, 1, 2, 3], prm := [pS], align := n, fifo := true, st := true }
      let bs := bytesLE n e.v.toNat
      let a := s.newAcc cl p n (.store bs e.p) c
      match p.loc with
      | .fifo bank =>
        let s ← s.fifoPush bank (bs.map (fun x => (x, e.p))) a q.toNat
        .ok (s.popN q.toNat 1)
      | _ => .ok ((s.popN q.toNat 1).addAcc a))

def execSt8 (b : BitVec 5) (q : BitVec 3) (cl : BitVec 4) (i : BitVec 13) (s : State) := storeWord 1 b q cl i s
def execSt16 (b : BitVec 5) (q : BitVec 3) (cl : BitVec 4) (i : BitVec 13) (s : State) := storeWord 2 b q cl i s
def execSt32 (b : BitVec 5) (q : BitVec 3) (cl : BitVec 4) (i : BitVec 13) (s : State) := storeWord 4 b q cl i s
def execSt64 (b : BitVec 5) (q : BitVec 3) (cl : BitVec 4) (i : BitVec 13) (s : State) := storeWord 8 b q cl i s

/-- The part of a row from offset `o` on. -/
def RowV.part (r : RowV) (o : Nat) : RowV := ⟨r.bits >>> (8 * o), r.p >>> (o / 4)⟩

/-- The first `m` bytes of a row with their poison, for a FIFO bank. -/
def RowV.fifoBytes (r : RowV) (m : Nat) : List (Byte × Bool) :=
  (bytesLE m r.bits.toNat).zip ((List.range m).map (fun j => r.p.toNat.testBit (j / 4)))

/-- The parts of a row store in two places. -/
def State.storeParts (s : State) (cl : BitVec 4) (c : Cap) (id : Nat) (r : RowV) : List RowPart → Chk State
  | [] => .ok s
  | (o, m, p) :: ps =>
    let a := s.newAcc cl p m (.storeRow id (r.part o)) c
    match p.loc with
    | .fifo bank => do
      let s ← s.fifoPush bank ((r.part o).fifoBytes m) a 7
      s.storeParts cl c id r ps
    | _ => (s.addAcc a).storeParts cl c id r ps

def execStrow (b : BitVec 5) (cl : BitVec 4) (i : BitVec 13) (s : State) : Host.Outcome State Fault Refusal :=
  word .a s (do
    let off := exts i * 256
    let rs ← s.peekRows 7 1
    let r := rs.headD ⟨0, 0⟩
    if s.tableFull then .error .wait
    else
      let c ← s.baseReg b off
      let ps ← s.rowPlaces c (eaOf c off) { spaces := [0, 1, 2, 3], prm := [pS], align := 32, fifo := true, st := true }
      match ps with
      | [(_, _, p)] =>
        let a := s.newAcc cl p 256 (.storeRow s.nextId r) c
        match p.loc with
        | .fifo bank =>
          let s ← s.fifoPush bank (r.fifoBytes 256) a 7
          .ok (s.popRows 7 1)
        | _ => .ok ((s.popRows 7 1).addAcc a)
      | _ => (s.popRows 7 1).storeParts cl c s.nextId r ps)

/-! ## Capabilities in memory (R127, R128) -/

/-- The 16 bytes at a key, with their tag if the authority may keep it, as LDC delivers them (R127). -/
def State.readCap (s : State) (k : Nat) (lc : Bool) : Cap × Bool :=
  let bad := s.vpois k
  (⟨lc && s.vtag k && !bad, BitVec.ofNat 128 (natLE (s.vload k 16))⟩, bad)

/-- LDC. From core scratch it completes in order with latency 12, with the data of stores that have yet to perform where they cover it
(06 R195); from the other spaces A waits for the data, and the latency counts from their return (R38). -/
def execLdc (d b : BitVec 5) (cl : BitVec 4) (i : BitVec 11) (s : State) : Host.Outcome State Fault Refusal :=
  word .a s (do
    let off := exts i * 16
    let c ← s.baseReg b off
    let p ← s.access c (eaOf c off) 16 { spaces := [0, 1, 2, 3], prm := [pL], align := 16, ld := true }
    let lc := c.has pLc && (c.spc == 0 || c.spc == 1)
    let a := s.newAcc cl p 16 (.loadCap d lc) c
    match p.loc with
    | .scr o =>
      if s.mayPerform a then
        let (v, bad) := s.readCap (scrKey s.k o) false
        .ok (s.putAP d v bad 12)
      else match s.forwarded a 0 16 with
        | some (bs, bad) => .ok (s.putAP d ⟨false, BitVec.ofNat 128 (natLE bs)⟩ bad 12)
        | none => .error .wait
    | _ => .ok (s.addAcc a))

/-- STC (R128). A tagged value whose target turns out to lie on another peer is refused with Capability Fault, space, after checks 2 to
11 (log entry 13). -/
def execStc (d b : BitVec 5) (cl : BitVec 4) (i : BitVec 11) (s : State) : Host.Outcome State Fault Refusal :=
  word .a s (do
    let off := exts i * 16
    if s.tableFull then .error .wait
    else
      let c ← s.baseReg b off
      let (v, bad) ← s.aRaw d 2
      let addr := w64 (eaOf c off)
      let lack := v.tag && (!c.has pSc || (c.spc == 0 && !v.has pGb))
      let p0 := capCheck c (eaOf c off) 16 { spaces := if v.tag then [0, 1] else [0, 1, 2, 3], prm := [pS], align := 16 }
      match p0 with
      | .error (.trap t) =>
        if lack && c.tag && (c.spc == 0 || c.spc == 1) && t.sub.toNat != 2 then capFault 3 addr else .error (.trap t)
      | .error e => .error e
      | .ok _ =>
        if lack then capFault 3 addr
        else
          let p ← s.placeOf c s.core.pc.ctx (eaOf c off) 16 { spaces := [], prm := [], align := 16, st := true }
          match p.loc with
          | .hbm pa =>
            if v.tag && s.remote pa then capFault 2 addr
            else .ok (s.addAcc (s.newAcc cl p 16 (.storeCap v bad) c))
          | _ => .ok (s.addAcc (s.newAcc cl p 16 (.storeCap v bad) c)))

/-! ## Prefetch (R139): no architectural effect, no check, no trap -/

def execPrefL1 (_b : BitVec 5) (_cl : BitVec 4) (_i : BitVec 13) (s : State) : Host.Outcome State Fault Refusal :=
  word .a s (.ok s)
def execPrefCc (_b : BitVec 5) (_cl : BitVec 4) (_i : BitVec 13) (s : State) : Host.Outcome State Fault Refusal :=
  word .a s (.ok s)
def execPrefDc (_b : BitVec 5) (_cl : BitVec 4) (_i : BitVec 13) (s : State) : Host.Outcome State Fault Refusal :=
  word .a s (.ok s)

/-! ## Gather and scatter (R132, R133) -/

/-- Index of a lane, none when inactive (R132). -/
def laneIdx (r : BitVec 2048) (j : Nat) : Option Int :=
  let x := lane 32 r j
  if x = 0x80000000 then none else some (bitsInt 32 true x)

/-- The lane index in SUB [15:10] of a trap raised at a lane (R132). -/
def laneTrap (j : Nat) : Chk Place → Chk Place
  | .error (.trap t) => .error (.trap { t with sub := BitVec.ofNat 16 (j * 1024 + t.sub.toNat % 1024) })
  | r => r

/-- Places of the active lanes, every one checked before issue; the lowest failing lane traps (R132). A poisoned base (`pb`) fails check 1
of every active lane; the poison of a lane's index comes behind checks 2 to 11 of that lane (R115). Without an active lane nothing of the
base is checked but its poison (log entry 60). -/
def State.lanePlaces (s : State) (c : Cap) (pb : Bool) (i : BitVec 13) (idx : RowV) (w : Want) : List Nat → Chk (List (Nat × Place))
  | [] => if pb then raise .poisonConsumed 0 (w64 (eaOf c (4 * exts i))) else .ok []
  | j :: r => do
    let bad : Chk Unit :=
      need (!idx.p.toNat.testBit j)
        (.trap ⟨.poisonConsumed, BitVec.ofNat 16 (j * 1024), w64 (eaOf c (4 * (exts i + bitsInt 32 true (lane 32 idx.bits j))))⟩)
    match laneIdx idx.bits j with
    | none => do
      bad
      s.lanePlaces c pb i idx w r
    | some x => do
      let ea := eaOf c (4 * (exts i + x))
      let p ← laneTrap j (if pb then raise .poisonConsumed 0 (w64 ea) else s.access c ea 4 w)
      bad
      let l ← s.lanePlaces c pb i idx w r
      .ok ((j, p) :: l)

/-- Queue one access for each lane, in ascending order (R130). -/
def State.addLanes (s : State) (cl : BitVec 4) (c : Cap) (f : Nat → AccOp) : List (Nat × Place) → State
  | [] => s
  | (j, p) :: r => (s.addAcc (s.newAcc cl p 4 (f j) c)).addLanes cl c f r

def execGath (b : BitVec 5) (cl : BitVec 4) (i : BitVec 13) (s : State) : Host.Outcome State Fault Refusal :=
  word .a s (do
    let rs ← s.peekRows 7 1
    let idx := rs.headD ⟨0, 0⟩
    s.roomRow 6
    let (c, pb) ← s.aRaw b 1
    let ls ← s.lanePlaces c pb i idx { spaces := [0, 1, 2, 3], prm := [pL], align := 4, ld := true } (List.range 64)
    let id := s.nextId
    let s := (s.popRows 7 1).reserveRow 6 id
    if ls.isEmpty then .ok ((s.fillRow 6 id ⟨0, 0⟩).fresh)
    else .ok (s.fresh.addLanes cl c (fun j => .gathLane id j) ls))

def execScat (b : BitVec 5) (cl : BitVec 4) (i : BitVec 13) (s : State) : Host.Outcome State Fault Refusal :=
  word .a s (do
    let rs ← s.peekRows 7 2
    let idx := rs.headD ⟨0, 0⟩
    let dat := (rs.drop 1).headD ⟨0, 0⟩
    if s.tableFull then .error .wait
    else
      let (c, pb) ← s.aRaw b 1
      let ls ← s.lanePlaces c pb i idx { spaces := [0, 1, 2, 3], prm := [pS], align := 4, st := true } (List.range 64)
      .ok ((s.popRows 7 2).addLanes cl c
        (fun j => .scatLane (bytesLE 4 (lane 32 dat.bits j)) (dat.p.toNat.testBit j)) ls))

/-! ## Atomics (R134 to R137) -/

/-- Operand width in bytes of sz 2 or 3. -/
def atomBytes (z : BitVec 2) : Nat := if z = 2 then 4 else 8

/-- Source queue of an atomic: q1, or q3 with src = 1 (R134). -/
def atomSrc (src : Bool) : Nat := if src then 3 else 1

/-- ATOM and the built-in RATOM differ in where they may go (R116). -/
def atomic (spaces : List Nat) (b : BitVec 5) (q : BitVec 3) (cl : BitVec 4) (o : BitVec 5) (z : BitVec 2) (src : Bool)
    (s : State) : Host.Outcome State Fault Refusal :=
  word .a s (do
    let op : BitVec 4 := o.truncate 4
    let ret := o.toNat < 16
    let n := if op = 6 then 2 else 1
    let es ← s.peek (atomSrc src) n
    if ret then s.room q.toNat else .ok ()
    if s.tableFull then .error .wait
    else
      let w := atomBytes z
      let c ← s.baseReg b 0
      let p ← s.access c c.cur w { spaces := spaces, prm := [pAt], align := w, ld := true, st := true }
      if es.any PV.p then raise .poisonConsumed 0 (curOf c)
      else
        let x := es.headD ⟨0, false⟩
        let y := (es.drop 1).headD ⟨0, false⟩
        let id := s.nextId
        let a := s.newAcc cl p w (.atom op (if ret then some (q.zeroExtend 6, id) else none) x.v y.v) c
        let s := s.popN (atomSrc src) n
        .ok ((if ret then s.reserveQ q.toNat id else s).addAcc a))

def execAtom (b : BitVec 5) (q : BitVec 3) (cl : BitVec 4) (o : BitVec 5) (z : BitVec 2) (src : Bool) (s : State) :=
  atomic [1, 2] b q cl o z src s
def execRatom (b : BitVec 5) (q : BitVec 3) (cl : BitVec 4) (o : BitVec 5) (z : BitVec 2) (src : Bool) (s : State) :=
  atomic [0, 3] b q cl o z src s

/-- A handler RATOM pops a header and its arguments (R136). `ret` says that it returns a result. The count of a poisoned header is read like
any other before its poison is found (log entry 61). -/
def execRatomH (b : BitVec 5) (q : BitVec 3) (cl : BitVec 4) (n : BitVec 5) (ret : Bool) (src : Bool) (s : State) :
    Host.Outcome State Fault Refusal :=
  word .a s (do
    let h ← s.peek (atomSrc src) 1
    let cnt := nb (h.headD ⟨0, false⟩).v.toNat 0 3
    let es ← s.peek (atomSrc src) (1 + cnt)
    if ret then s.room q.toNat else .ok ()
    if s.tableFull then .error .wait
    else
      let c ← s.baseReg b 0
      let p ← s.access c c.cur 8 { spaces := [0, 3], prm := [pAt], align := 8, ld := true, st := true }
      if es.any PV.p then raise .poisonConsumed 0 (curOf c)
      else
        let id := s.nextId
        let a := s.newAcc cl p 8 (.handler n (if ret then some (q.zeroExtend 6, id) else none) ((es.drop 1).map PV.v)) c
        let s := s.popN (atomSrc src) (1 + cnt)
        .ok ((if ret then s.reserveQ q.toNat id else s).addAcc a))

/-- LATOM adds a row, or its first half, onto lines in memory (R137). -/
def execLatom (b : BitVec 5) (cl : BitVec 4) (z : BitVec 2) (oneLine : Bool) (s : State) :
    Host.Outcome State Fault Refusal :=
  word .a s (do
    let rs ← s.peekRows 7 1
    let r := rs.headD ⟨0, 0⟩
    if s.tableFull then .error .wait
    else
      let n := if oneLine then 128 else 256
      let c ← s.baseReg b 0
      let p ← s.access c c.cur n { spaces := [0, 3], prm := [pAt], align := n, ld := true, st := true }
      if nb r.p.toNat 0 (n / 4) ≠ 0 then raise .poisonConsumed 0 (curOf c)
      else
        let bs := bytesLE n r.bits.toNat
        let lineAcc (s : State) (i : Nat) : Acc :=
          let loc := match p.loc with
            | .hbm pa => .hbm (pa + 128 * i)
            | l => l
          s.newAcc cl { p with loc := loc } 128 (.line (z == 2#2) ((bs.drop (128 * i)).take 128)) c
        let s := s.popRows 7 1
        let s := s.addAcc (lineAcc s 0)
        .ok (if oneLine then s else s.addAcc (lineAcc s 1)))

/-! ## Fence, banks and blocks -/

/-- FENCE.C enters the order of A's accesses (R131). -/
def execFenceC (sc : BitVec 2) (mask : BitVec 16) (s : State) : Host.Outcome State Fault Refusal :=
  word .a s (.ok ((s.addAcc (s.newAcc 0 ⟨.scr 0, false⟩ 0 (.fence sc mask) nullCap)).settleFences))

/-- BANKSET: the switch waits in the bank, behind those of earlier cycles and those of this cycle from cores of lower index; one to a
retired bank has no effect (11 R321), and one that meets its own mode when its turn comes is dropped there (R140, `dropIdle`). TADDR of a
Capability Fault is the cursor of a[a], though nothing is accessed there (DESIGN CHOICE, log entry 72). -/
def execBankset (a : BitVec 5) (m : BitVec 2) (n : BitVec 6) (s : State) : Host.Outcome State Fault Refusal :=
  word .a s (do
    let c ← s.aVal a 1
    if !c.tag then capFault 1 (curOf c)
    else if c.spc ≠ 1 then capFault 2 (curOf c)
    else if !c.has pBk then capFault 3 (curOf c)
    else
      let b := s.bank s.clu n.toNat
      if b.mode = 3 then .ok s
      else
        let first (w : BitVec 2 × Nat × Nat) : Bool := decide (w.2.1 < s.cyc) || decide (w.2.2 ≤ s.k)
        .ok (s.setBank s.clu n.toNat { b with wait := b.wait.filter first ++ (m, s.cyc, s.k) :: b.wait.filter (fun w => !first w) }))

/-- The banks of a range of blocks must all be scratchpads (R116, R141). -/
def State.banksCheck (s : State) (addr : W64) : List Nat → Chk Unit
  | [] => .ok ()
  | b :: r => do
    s.bankCheck s.clu (b * 2 ^ 19) false addr
    s.banksCheck addr r

/-- BUSY and IDLE: the bit takes effect at the end of cycle c + 2 (R141, 06 R203). -/
def blocksWord (set : Bool) (a : BitVec 5) (n : BitVec 13) (s : State) : Host.Outcome State Fault Refusal :=
  word .a s (do
    let c ← s.baseReg a 0
    let cnt := n.toNat + 1
    capCheck c c.cur (4096 * cnt) { spaces := [1], prm := [pS], align := 4096 }
    if 24 * 2 ^ 20 < c.cur + 4096 * cnt then capFault 5 (curOf c)
    else
      s.banksCheck (curOf c) (unitsOf (2 ^ 19) c.cur (4096 * cnt))
      let e := (s.cyc + 3, set, s.k, s.core.pc.pid, s.core.pc.li)
      .ok ((List.range cnt).foldl (fun s j =>
        let b := s.block s.clu (c.cur / 4096 + j)
        s.setBlock s.clu (c.cur / 4096 + j) { b with pend := b.pend ++ [e] }) s))

def execBusy (a : BitVec 5) (n : BitVec 13) (s : State) := blocksWord true a n s
def execIdle (a : BitVec 5) (n : BitVec 13) (s : State) := blocksWord false a n s

end Sys2Proof.Machine
end

