-- ==== Sys2Proof/Machine/Scalar.lean ====
section
/-! DEFINITION. Scalar arithmetic of S: the ALU forms (03 R74 to R76), the immediate forms (R77), the FP32 forms (R78)
and the loss check (R79 to R81). A poisoned or early operand is dealt with by gVal (R73, R38, R40). -/
namespace Sys2Proof.Machine

/-! ## Shapes -/

/-- A form with two g operands. -/
def alu2 (f : W64 → W64 → W64) (lat : Nat) (d a b : BitVec 5) (s : State) : Host.Outcome State Fault Refusal :=
  word .s s (do
    let x ← s.gVal a 1
    let y ← s.gVal b 2
    .ok (s.putG d (f x y) lat))

/-- A form with one g operand. -/
def alu1 (f : W64 → W64) (lat : Nat) (d a : BitVec 5) (s : State) : Host.Outcome State Fault Refusal :=
  word .s s (do
    let x ← s.gVal a 1
    .ok (s.putG d (f x) lat))

/-- 1 or 0. -/
def one64 (b : Bool) : W64 := if b then 1 else 0

/-! ## The functions of R74 -/

def fSll (x y : W64) : W64 := x <<< (y.toNat % 64)
def fSrl (x y : W64) : W64 := x >>> (y.toNat % 64)
def fSra (x y : W64) : W64 := x.sshiftRight (y.toNat % 64)
def fRotr (x y : W64) : W64 := rotr64 x y.toNat
def fSlt (x y : W64) : W64 := one64 (decide (x.toInt < y.toInt))
def fSltz (x y : W64) : W64 := one64 (decide (x.toNat < y.toNat))
def fMin (x y : W64) : W64 := if x.toInt ≤ y.toInt then x else y
def fMax (x y : W64) : W64 := if x.toInt ≤ y.toInt then y else x
def fMinz (x y : W64) : W64 := if x.toNat ≤ y.toNat then x else y
def fMaxz (x y : W64) : W64 := if x.toNat ≤ y.toNat then y else x
def fMulh (x y : W64) : W64 := w64 (x.toInt * y.toInt / 2 ^ 64)
def fMulhz (x y : W64) : W64 := BitVec.ofNat 64 (x.toNat * y.toNat / 2 ^ 64)
def fMulhsz (x y : W64) : W64 := w64 (x.toInt * (y.toNat : Int) / 2 ^ 64)

/-- Quotients and remainders of R75. -/
def fDiv (x y : W64) : W64 := if y = 0 then BitVec.allOnes 64 else w64 (x.toInt.tdiv y.toInt)
def fDivz (x y : W64) : W64 := if y = 0 then BitVec.allOnes 64 else BitVec.ofNat 64 (x.toNat / y.toNat)
def fRem (x y : W64) : W64 := if y = 0 then x else w64 (x.toInt.tmod y.toInt)
def fRemz (x y : W64) : W64 := if y = 0 then x else BitVec.ofNat 64 (x.toNat % y.toNat)

/-- Carry-less products (R76). -/
def fClmul (x y : W64) : W64 := BitVec.ofNat 64 (clmulNat x.toNat y.toNat)
def fClmulh (x y : W64) : W64 := BitVec.ofNat 64 (clmulNat x.toNat y.toNat / 2 ^ 64)

def execAdd (d a b : BitVec 5) (s : State) := alu2 (fun x y => x + y) 1 d a b s
def execSub (d a b : BitVec 5) (s : State) := alu2 (fun x y => x - y) 1 d a b s
def execAnd (d a b : BitVec 5) (s : State) := alu2 (fun x y => x &&& y) 1 d a b s
def execOr (d a b : BitVec 5) (s : State) := alu2 (fun x y => x ||| y) 1 d a b s
def execXor (d a b : BitVec 5) (s : State) := alu2 (fun x y => x ^^^ y) 1 d a b s
def execAndn (d a b : BitVec 5) (s : State) := alu2 (fun x y => x &&& ~~~y) 1 d a b s
def execSll (d a b : BitVec 5) (s : State) := alu2 fSll 1 d a b s
def execSrl (d a b : BitVec 5) (s : State) := alu2 fSrl 1 d a b s
def execSra (d a b : BitVec 5) (s : State) := alu2 fSra 1 d a b s
def execRotr (d a b : BitVec 5) (s : State) := alu2 fRotr 1 d a b s
def execSlt (d a b : BitVec 5) (s : State) := alu2 fSlt 1 d a b s
def execSltz (d a b : BitVec 5) (s : State) := alu2 fSltz 1 d a b s
def execMin (d a b : BitVec 5) (s : State) := alu2 fMin 1 d a b s
def execMax (d a b : BitVec 5) (s : State) := alu2 fMax 1 d a b s
def execMinz (d a b : BitVec 5) (s : State) := alu2 fMinz 1 d a b s
def execMaxz (d a b : BitVec 5) (s : State) := alu2 fMaxz 1 d a b s
def execMul (d a b : BitVec 5) (s : State) := alu2 (fun x y => x * y) 4 d a b s
def execMulh (d a b : BitVec 5) (s : State) := alu2 fMulh 4 d a b s
def execMulhz (d a b : BitVec 5) (s : State) := alu2 fMulhz 4 d a b s
def execMulhsz (d a b : BitVec 5) (s : State) := alu2 fMulhsz 4 d a b s
def execDiv (d a b : BitVec 5) (s : State) := alu2 fDiv 36 d a b s
def execDivz (d a b : BitVec 5) (s : State) := alu2 fDivz 36 d a b s
def execRem (d a b : BitVec 5) (s : State) := alu2 fRem 36 d a b s
def execRemz (d a b : BitVec 5) (s : State) := alu2 fRemz 36 d a b s
def execClmul (d a b : BitVec 5) (s : State) := alu2 fClmul 4 d a b s
def execClmulh (d a b : BitVec 5) (s : State) := alu2 fClmulh 4 d a b s
def execClz (d a : BitVec 5) (s : State) := alu1 (fun x => BitVec.ofNat 64 (clz64 x.toNat)) 1 d a s
def execCtz (d a : BitVec 5) (s : State) := alu1 (fun x => BitVec.ofNat 64 (ctz64 x.toNat)) 1 d a s
def execPopc (d a : BitVec 5) (s : State) := alu1 (fun x => BitVec.ofNat 64 (popNat x.toNat 64)) 1 d a s
def execBrev (d a : BitVec 5) (s : State) := alu1 (fun x => BitVec.ofNat 64 (brev64 x.toNat)) 1 d a s
def execBswap (d a : BitVec 5) (s : State) := alu1 (fun x => BitVec.ofNat 64 (bswap64 x.toNat)) 1 d a s

/-! ## Immediate forms (R77) -/

/-- The sign-extended 13-bit immediate. -/
def imm13 (i : BitVec 13) : W64 := i.signExtend 64

def execAddi (d a : BitVec 5) (i : BitVec 13) (s : State) := alu1 (fun x => x + imm13 i) 1 d a s
def execAndi (d a : BitVec 5) (i : BitVec 13) (s : State) := alu1 (fun x => x &&& imm13 i) 1 d a s
def execOri (d a : BitVec 5) (i : BitVec 13) (s : State) := alu1 (fun x => x ||| imm13 i) 1 d a s
def execXori (d a : BitVec 5) (i : BitVec 13) (s : State) := alu1 (fun x => x ^^^ imm13 i) 1 d a s
def execSlli (d a : BitVec 5) (n : BitVec 6) (s : State) := alu1 (fun x => x <<< n.toNat) 1 d a s
def execSrli (d a : BitVec 5) (n : BitVec 6) (s : State) := alu1 (fun x => x >>> n.toNat) 1 d a s
def execSrai (d a : BitVec 5) (n : BitVec 6) (s : State) := alu1 (fun x => x.sshiftRight n.toNat) 1 d a s
def execRotri (d a : BitVec 5) (n : BitVec 6) (s : State) := alu1 (fun x => rotr64 x n.toNat) 1 d a s
def execSlti (d a : BitVec 5) (i : BitVec 13) (s : State) := alu1 (fun x => fSlt x (imm13 i)) 1 d a s
def execSltiz (d a : BitVec 5) (i : BitVec 13) (s : State) := alu1 (fun x => fSltz x (imm13 i)) 1 d a s

/-- exts(imm19, 19) 2^13 modulo 2^64 (R77, R120). -/
def lihVal (i : BitVec 19) : W64 := i.signExtend 64 <<< 13

def execLih (d : BitVec 5) (i : BitVec 19) (s : State) : Host.Outcome State Fault Refusal :=
  word .s s (.ok (s.putG d (lihVal i)))

/-! ## FP32 (R54, R55, R78) -/

/-- The FP32 value in [31:0]. -/
def f32Of (x : W64) : Fv := decodeF f32 (nb x.toNat 0 32)

/-- A result of an FP32 operation: bits and flags from an exact value, whether digits were cut off, and whether the
operation has no numeric result. -/
def f32Res (v : Fv) (cut inv : Bool) : W64 × Fl :=
  let (x, fl) := rne f32 v cut
  (BitVec.ofNat 64 x, fl.or ⟨inv, false⟩)

/-- An FP form with two operands. -/
def fpu2 (f : W64 → W64 → W64 × Fl) (lat : Nat) (d a b : BitVec 5) (s : State) : Host.Outcome State Fault Refusal :=
  word .s s (do
    let x ← s.gVal a 1
    let y ← s.gVal b 2
    let (r, fl) := f x y
    .ok ((s.flagS fl).putG d r lat))

/-- An FP form with one operand. -/
def fpu1 (f : W64 → W64 × Fl) (lat : Nat) (d a : BitVec 5) (s : State) : Host.Outcome State Fault Refusal :=
  word .s s (do
    let x ← s.gVal a 1
    let (r, fl) := f x
    .ok ((s.flagS fl).putG d r lat))

def fAdd (x y : W64) : W64 × Fl := let (v, i) := (f32Of x).add (f32Of y); f32Res v false i
def fSub (x y : W64) : W64 × Fl := let (v, i) := (f32Of x).add (f32Of y).neg; f32Res v false i
def fMul (x y : W64) : W64 × Fl := let (v, i) := (f32Of x).mul (f32Of y); f32Res v false i
def fFma (x y z : W64) : W64 × Fl := let (v, i) := (f32Of x).fma (f32Of y) (f32Of z); f32Res v false i
def fDivF (x y : W64) : W64 × Fl := let (v, i, c) := (f32Of x).div (f32Of y); f32Res v c i
def fSqrt (x : W64) : W64 × Fl := let (v, i, c) := (f32Of x).sqrt; f32Res v c i

/-- The lesser or greater of two encodings, -0 below +0; a NaN gives the canonical NaN (R78, R152). -/
def fvMin (f : Fmt) (x y : Nat) : Nat :=
  let a := decodeF f x; let b := decodeF f y
  if a.isNan || b.isNan then f.qnan else if b.ltZ a then y else x
def fvMax (f : Fmt) (x y : Nat) : Nat :=
  let a := decodeF f x; let b := decodeF f y
  if a.isNan || b.isNan then f.qnan else if a.ltZ b then y else x

def fMinF (x y : W64) : W64 × Fl := (BitVec.ofNat 64 (fvMin f32 (nb x.toNat 0 32) (nb y.toNat 0 32)), {})
def fMaxF (x y : W64) : W64 × Fl := (BitVec.ofNat 64 (fvMax f32 (nb x.toNat 0 32) (nb y.toNat 0 32)), {})
def fEq (x y : W64) : W64 × Fl := (one64 ((f32Of x).eq (f32Of y)), {})
def fLt (x y : W64) : W64 × Fl := (one64 ((f32Of x).lt (f32Of y)), ⟨(f32Of x).isNan || (f32Of y).isNan, false⟩)
def fLe (x y : W64) : W64 × Fl := (one64 ((f32Of x).le (f32Of y)), ⟨(f32Of x).isNan || (f32Of y).isNan, false⟩)
def fAbs (x : W64) : W64 × Fl := (x &&& 0x7FFFFFFF#64, {})
def fNeg (x : W64) : W64 × Fl := ((x &&& 0xFFFFFFFF#64) ^^^ 0x80000000#64, {})

/-- FP32 to a 64-bit integer (R61). -/
def fToInt (signed : Bool) (m : BitVec 3) (x : W64) : W64 × Fl :=
  let (v, fl) := toIntClamp (rmOf m.toNat 0) (intLo 64 signed) (intHi 64 signed) (f32Of x)
  (w64 v, fl)

/-- A 64-bit integer to FP32 (R61). -/
def fOfInt (signed : Bool) (m : BitVec 3) (x : W64) : W64 × Fl :=
  let (r, fl) := narrow f32 (rmOf m.toNat 0) false (Fv.ofInt (if signed then x.toInt else x.toNat))
  (BitVec.ofNat 64 r, fl)

/-- A 16-bit format to FP32 (R60: exact). -/
def fWiden (f : Fmt) (x : W64) : W64 × Fl :=
  let (r, fl) := narrow f32 .rne false (decodeF f (nb x.toNat 0 16))
  (BitVec.ofNat 64 r, fl)

/-- FP32 to a 16-bit format, non-saturating form (R60). -/
def fNarrow (f : Fmt) (m : BitVec 3) (x : W64) : W64 × Fl :=
  let (r, fl) := narrow f (rmOf m.toNat 0) false (f32Of x)
  (BitVec.ofNat 64 r, fl)

def execFaddF32 (d a b : BitVec 5) (s : State) := fpu2 fAdd 5 d a b s
def execFsubF32 (d a b : BitVec 5) (s : State) := fpu2 fSub 5 d a b s
def execFmulF32 (d a b : BitVec 5) (s : State) := fpu2 fMul 5 d a b s

/-- fma.f32 reads the old g[d] as its addend. -/
def execFmaF32 (d a b : BitVec 5) (s : State) : Host.Outcome State Fault Refusal :=
  word .s s (do
    let x ← s.gVal a 1
    let y ← s.gVal b 2
    let z ← s.gVal d 3
    let (r, fl) := fFma x y z
    .ok ((s.flagS fl).putG d r 5))

def execFdivF32 (d a b : BitVec 5) (s : State) := fpu2 fDivF 24 d a b s
def execFsqrtF32 (d a : BitVec 5) (s : State) := fpu1 fSqrt 24 d a s
def execFminF32 (d a b : BitVec 5) (s : State) := fpu2 fMinF 5 d a b s
def execFmaxF32 (d a b : BitVec 5) (s : State) := fpu2 fMaxF 5 d a b s
def execFeqF32 (d a b : BitVec 5) (s : State) := fpu2 fEq 5 d a b s
def execFltF32 (d a b : BitVec 5) (s : State) := fpu2 fLt 5 d a b s
def execFleF32 (d a b : BitVec 5) (s : State) := fpu2 fLe 5 d a b s
def execFabsF32 (d a : BitVec 5) (s : State) := fpu1 fAbs 5 d a s
def execFnegF32 (d a : BitVec 5) (s : State) := fpu1 fNeg 5 d a s
def execFcvtS64F32 (d a : BitVec 5) (m : BitVec 3) (s : State) := fpu1 (fToInt true m) 5 d a s
def execFcvtZ64F32 (d a : BitVec 5) (m : BitVec 3) (s : State) := fpu1 (fToInt false m) 5 d a s
def execFcvtF32S64 (d a : BitVec 5) (m : BitVec 3) (s : State) := fpu1 (fOfInt true m) 5 d a s
def execFcvtF32Z64 (d a : BitVec 5) (m : BitVec 3) (s : State) := fpu1 (fOfInt false m) 5 d a s
def execFcvtF32Bf16 (d a : BitVec 5) (s : State) := fpu1 (fWiden bf16) 5 d a s
def execFcvtBf16F32 (d a : BitVec 5) (m : BitVec 3) (s : State) := fpu1 (fNarrow bf16 m) 5 d a s
def execFcvtF32F16 (d a : BitVec 5) (s : State) := fpu1 (fWiden f16) 5 d a s
def execFcvtF16F32 (d a : BitVec 5) (m : BitVec 3) (s : State) := fpu1 (fNarrow f16 m) 5 d a s

/-! ## Loss check (R79 to R81) -/

/-- round_rne to FP32 of an exact value, as a value. -/
def r32 (v : Fv) : Fv := decodeF f32 (rne f32 v).1

/-- Whether the loss is a spike (R80). -/
def lossSpike (x lim rho mu : Nat) : Bool :=
  let xv := decodeF f32 x
  let r := decodeF f32 rho
  let m := decodeF f32 mu
  let ratio := !r.isZero && !r.isNan && (Fv.fin false 0 0).lt m && (r32 (r.mul m).1).lt xv
  xv.isNan || xv.isInf || (decodeF f32 lim).lt xv || ratio

/-- The new running mean (R80). -/
def lossMean (x mu w : Nat) : Nat :=
  let xv := decodeF f32 x
  let m := decodeF f32 mu
  if m.isZero then x
  else
    let diff := (xv.add m.neg).1
    let t : Fv := match diff with
      | .fin n k e => .fin n k (e - w)
      | v => v
    (rne f32 (m.add (r32 t)).1).1

/-- LOSSCHK (R79 to R81). It reads LOSSLIM and LOSSRUN as a word of S (R38). -/
def execLosschk (d a : BitVec 5) (w : BitVec 7) (s : State) : Host.Outcome State Fault Refusal :=
  word .s s (do
    let v ← s.gVal a 1
    let p := s.core.pc
    let c := s.ctx p.ctx
    let x := nb v.toNat 0 32
    let lims := s.csrSeen 0x0A0 c.losslim
    let lim := nb lims.toNat 0 32
    let rho := nb lims.toNat 32 32
    let mu := nb (s.csrSeen 0x0A1 c.lossrun).toNat 0 32
    if p.stepIn && w ≠ 0 && c.step.lossCnt then raise .stepState
    else
      let spike := lossSpike x lim rho mu
      let s := s.putG d (one64 spike) 5
      let s := if spike && p.stepIn then s.veto p.ctx vSpike else s
      let c := s.ctx p.ctx
      let c := if p.stepIn && w ≠ 0 then { c with step := { c.step with lossCnt := true } } else c
      let c :=
        if w ≠ 0 && !spike then
          let m := lossMean x mu w.toNat
          if p.stepIn then { c with step := { c.step with lossPend := some (BitVec.ofNat 32 m) } }
          else { c with lossrun := BitVec.ofNat 64 m }
        else c
      .ok (s.setCtx p.ctx c))

end Sys2Proof.Machine
end

