-- ==== Sys2Proof/Machine/Vector.lean ====
section
/-! DEFINITION. The vector words of V (05_vector_instructions.md): lanes, masks and poison (R147, R148), floating and
integer words, masks, queue words, reductions, conversions, random bits, and LOOPR with its stage gating (R177 to
R181). -/
namespace Sys2Proof.Machine

/-! ## VT, the window, rows -/

/-- VT in force (R18, R151): one cycle after a VSETT either the old or the new one, or Early Read. -/
def State.vtNow (s : State) : Chk (BitVec 16) :=
  let p := s.core.pc
  if s.cyc < p.vtAt then .ok p.vtOld
  else if s.cyc = p.vtAt && p.vtAt ≠ 0 then
    (if s.checks .v then raise .earlyRead else .ok (if s.choice 2 then p.vtOld else p.vt))
  else .ok p.vt

/-- The window in force (R16, R17). -/
def State.vwinNow (s : State) : W64 :=
  let p := s.core.pc
  if s.cyc < p.vwinAt then p.vwinOld
  else if p.vwinAt ≠ 0 && s.cyc < p.vwinAt + 2 then (if s.choice 3 then p.vwinOld else p.vwin)
  else p.vwin

/-- Row of its tile that a name stands for (R17). -/
def rowName (vwin : W64) (n : Nat) : Nat := if n < 48 then n else 48 + (n - 48 + rbOf vwin) % 16

/-- Key of a row: 64 times the tile plus the row. -/
def State.rowKey (s : State) (n : BitVec 6) : Nat := bitsOf s.vwinNow 0 2 * 64 + rowName s.vwinNow n.toNat

def rowZero : Row := ⟨0, 0, 0⟩
def Core.row (c : Core) (key : Nat) : Row := Map.get rowZero c.tiles key
def Core.setRow (c : Core) (key : Nat) (r : Row) : Core := { c with tiles := Map.set rowZero c.tiles key r }
def holdNone : TileHold := ⟨0, 0, 0, 0⟩
def Core.holdOf (c : Core) (t : Nat) : TileHold := Map.get holdNone c.hold t

/-- Poison bits of an undefined row: none unless a source of the row was poisoned, as `p` tells, and then any (R6). -/
def State.undPoison (s : State) (p : BitVec 64) (k : Nat) : BitVec 64 := if p = 0 then 0 else s.free 64 k

/-- V reads a row (R38, R192, R220): an early read, and a read of a held tile, is undefined or raises Early Read. -/
def State.vRead (s : State) (n : BitVec 6) (k : Nat) : Chk RowV :=
  let key := s.rowKey n
  let r := s.core.row key
  if s.cyc < (s.core.holdOf (key / 64)).vFrom || s.cyc < r.rdy then
    (if s.checks .v then raise .earlyRead n.toNat else .ok ⟨s.free 2048 (16384 + k), s.undPoison r.p (16384 + k)⟩)
  else .ok ⟨r.bits, r.p⟩

/-- The row as it stands, for the lanes that a write keeps. -/
def State.vOld (s : State) (n : BitVec 6) : RowV := let r := s.core.row (s.rowKey n); ⟨r.bits, r.p⟩

/-- An epilogue that has not yet read a row which V overwrites has that row's output undefined (07 R228). -/
def markLand (now t r : Nat) (l : Landing) : Landing :=
  if l.epi && l.tile.toNat = t && now < l.start + r then { l with und := l.und ||| (1#64 <<< r) } else l

def markEpir (now t r : Nat) (e : Epir) : Epir :=
  if e.tile.toNat = t && (now < e.start + r || (if e.tr then !e.left.isEmpty else e.left.contains r)) then { e with und := e.und ||| (1#64 <<< r) } else e

/-- V writes a row with a latency bound (R38, R192): a row of a held tile is left undefined. Of two writes in flight to one row the bound of
the last holds (log entry 59). -/
def State.vWrite (s : State) (n : BitVec 6) (v : RowV) (lat : Nat) : State :=
  let key := s.rowKey n
  let c := s.core
  let held := s.cyc < (c.holdOf (key / 64)).mFrom
  let r : Row := if held then ⟨s.free 2048 20480, s.undPoison ((c.row key).p ||| v.p) 20480, s.cyc + lat⟩ else ⟨v.bits, v.p, s.cyc + lat⟩
  s.setCore { c.setRow key r with
    land := c.land.map (markLand s.cyc (key / 64) (key % 64)),
    epir := c.epir.map (markEpir s.cyc (key / 64) (key % 64)) }

/-! ## Stage gating (R179) -/

/-- Stage of body word `b`: the bits of the map at positions 1 to b. -/
def stageOf (map : W64) (b : Nat) : Nat := popNat (map.toNat / 2) b

/-- The predicate of the word at V's cursor, if a LOOPR loop runs. A mask still in flight is read early (R38, R40). -/
def State.stagePred (s : State) : Chk (Option (BitVec 256)) :=
  match s.core.pc.loopr with
  | none => .ok none
  | some l =>
    let pc := s.core.cv.pc
    if l.b.toNat ≤ pc.toNat && pc.toNat < l.e.toNat then
      let n := 8 + stageOf l.map ((pc.toNat - l.b.toNat) / 4)
      let r := s.core.m.toList.getD n ⟨0, 0⟩
      if s.cyc < r.rdy then (if s.checks .v then raise .earlyRead n else .ok (some (s.free 256 24576))) else .ok (some r.v)
    else .ok none

/-- Traps that apply to a gated word as well (R179). -/
def gatedTrap (r : Chk State) : Option Trap :=
  match r with
  | .error (.trap t) => if t.cause == .illegalWord || t.cause == .earlyRead then some t else none
  | _ => none

/-- Issue a V word that is no branch and that may wait at a queue, as `wait` tells: while it waits it decides nothing (01 R22). The body
receives the predicate of its stage; under a predicate of all zeros the word issues and changes nothing (R179). -/
def vwordQ (s : State) (wait : Chk Unit) (body : BitVec 256 → Chk State) : Host.Outcome State Fault Refusal :=
  match s.stagePred with
  | .error e => issue .v s (wait.bind (fun _ => .error e))
  | .ok none => word .v s (wait.bind (fun _ => body (BitVec.allOnes 256)))
  | .ok (some pm) =>
    if pm = 0 then
      match gatedTrap (body (BitVec.allOnes 256)) with
      | some t => issue .v s (.error (.trap t))
      | none => word .v s (.ok s)
    else word .v s (wait.bind (fun _ => body pm))

/-- A V word that waits at no queue. -/
def vword (s : State) (body : BitVec 256 → Chk State) : Host.Outcome State Fault Refusal := vwordQ s (.ok ()) body

/-! ## Lanes -/

/-- Width and format of FT (R18, R147). -/
def ftOf (vt : BitVec 16) : Nat × Fmt :=
  match vt.toNat % 8 with
  | 1 => (16, bf16)
  | 2 => (16, f16)
  | _ => (32, f32)

/-- Width and signedness of IT (R18). -/
def itOf (vt : BitVec 16) : Nat × Bool :=
  let c := vt.toNat / 16 % 8
  (if c < 2 then 32 else if c < 4 then 16 else 8, c % 2 == 0)

/-- Width and format of NT (R18). -/
def ntOf (vt : BitVec 16) : Nat × Fmt :=
  match vt.toNat / 256 % 8 with
  | 0 => (32, f32)
  | 1 => (16, bf16)
  | 2 => (16, f16)
  | 3 => (8, e4m3)
  | 4 => (8, e5m2)
  | 5 => (6, e3m2)
  | 6 => (6, e2m3)
  | _ => (4, e2m1)

/-- Elements of `w` bits that a row holds (R147, R165). -/
def rowCount (w : Nat) : Nat :=
  match w with
  | 32 => 64
  | 16 => 128
  | 4 => 512
  | _ => 256

/-- Merge of a write into a row: lane `j` of `n` takes `new j` with poison `np j` where `on j`, and is kept elsewhere
(R148). -/
def mergeRow (w n : Nat) (old : RowV) (on : Nat → Bool) (new : Nat → Nat) (np : Nat → Bool) : RowV :=
  let ls := (List.range n).map (fun j => if on j then new j else lane w old.bits j)
  let low := packLanes w ls
  let bits := low + old.bits.toNat / 2 ^ (w * n) * 2 ^ (w * n)
  let cont (k : Nat) : Bool :=
    (List.range ((32 * k + 31) / w - 32 * k / w + 1)).any (fun i =>
      let j := 32 * k / w + i
      if j < n && on j then np j else old.p.toNat.testBit k)
  ⟨BitVec.ofNat 2048 bits, poisOf ((List.range 64).map cont)⟩

/-- Poison of lane `j` of width `w`. -/
def lanePoison (w : Nat) (r : RowV) (j : Nat) : Bool := poisAt r.p (w * j) w

/-- The lane of an operand under a pattern. -/
def patOf (p : BitVec 4) (on : Bool) (j : Nat) : Nat := if on then patLane p j else j

/-- OR of the flags of the active lanes. -/
def flagsOf (n : Nat) (on : Nat → Bool) (f : Nat → Fl) : Fl :=
  (List.range n).foldl (fun acc j => if on j then acc.or (f j) else acc) {}

/-- Some active lane reads poison. -/
def anyPoison (n : Nat) (on p : Nat → Bool) : Bool := (List.range n).any (fun j => on j && p j)

/-! ## Floating words (R152, R153) -/

def flAdd (f : Fmt) (x y : Nat) : Nat × Fl :=
  let (v, i) := (decodeF f x).add (decodeF f y); let (r, fl) := rne f v; (r, fl.or ⟨i, false⟩)
def flSub (f : Fmt) (x y : Nat) : Nat × Fl :=
  let (v, i) := (decodeF f x).add (decodeF f y).neg; let (r, fl) := rne f v; (r, fl.or ⟨i, false⟩)
def flMul (f : Fmt) (x y : Nat) : Nat × Fl :=
  let (v, i) := (decodeF f x).mul (decodeF f y); let (r, fl) := rne f v; (r, fl.or ⟨i, false⟩)
def flFma (f : Fmt) (x y d : Nat) : Nat × Fl :=
  let (v, i) := (decodeF f x).fma (decodeF f y) (decodeF f d); let (r, fl) := rne f v; (r, fl.or ⟨i, false⟩)
def flMin (f : Fmt) (x y : Nat) : Nat × Fl := (fvMin f x y, {})
def flMax (f : Fmt) (x y : Nat) : Nat × Fl := (fvMax f x y, {})

/-- A lane-by-lane word on two operands and, for vfma, the old destination: checks for poison on the active lanes,
writes them, sets flags (R148). -/
def laneWord (w lat : Nat) (useD : Bool) (f : Nat → Nat → Nat → Nat × Fl) (va : Bool) (d a b : BitVec 6) (p : BitVec 4)
    (k : BitVec 3) (pm : BitVec 256) (s : State) : Chk State := do
  let x ← s.vRead a 0
  let y ← s.vRead b 1
  let m ← s.mVal (k.zeroExtend 4) 0
  let old ← if useD then s.vRead d 2 else .ok (s.vOld d)
  let n := rowCount w
  let on (j : Nat) : Bool := mbit m j && mbit pm j
  let ja := patOf p va
  let jb := patOf p (!va)
  if anyPoison n on (fun j => lanePoison w x (ja j) || lanePoison w y (jb j) || (useD && lanePoison w old j)) then
    raise .poisonConsumed
  else
    let r (j : Nat) : Nat × Fl := f (lane w x.bits (ja j)) (lane w y.bits (jb j)) (lane w old.bits j)
    let fl := flagsOf n on (fun j => (r j).2)
    .ok ((s.vWrite d (mergeRow w n (s.vOld d) on (fun j => (r j).1) (fun _ => false)) lat).flagV fl)

/-- Binary floating word. -/
def vfBin (f : Fmt → Nat → Nat → Nat × Fl) (va : Bool) (d a b : BitVec 6) (p : BitVec 4) (k : BitVec 3) (s : State) :
    Host.Outcome State Fault Refusal :=
  vword s (fun pm => do
    let vt ← s.vtNow
    let (w, ft) := ftOf vt
    laneWord w 4 false (fun x y _ => f ft x y) va d a b p k pm s)

/-- vfma counts the old destination lane among its operands. -/
def vfFma (va : Bool) (d a b : BitVec 6) (p : BitVec 4) (k : BitVec 3) (s : State) : Host.Outcome State Fault Refusal :=
  vword s (fun pm => do
    let vt ← s.vtNow
    let (w, ft) := ftOf vt
    laneWord w 4 true (flFma ft) va d a b p k pm s)

/-- A compare into mask `md`: active lanes take the result, other bits stay (R15, R153, R155). -/
def cmpWord (w lat : Nat) (f : Nat → Nat → Bool × Fl) (va : Bool) (md : BitVec 4) (a b : BitVec 6) (p : BitVec 4)
    (k : BitVec 3) (pm : BitVec 256) (s : State) : Chk State := do
  let x ← s.vRead a 0
  let y ← s.vRead b 1
  let m ← s.mVal (k.zeroExtend 4) 0
  let n := rowCount w
  let on (j : Nat) : Bool := mbit m j && mbit pm j
  let ja := patOf p va
  let jb := patOf p (!va)
  if anyPoison n on (fun j => lanePoison w x (ja j) || lanePoison w y (jb j)) then raise .poisonConsumed
  else
    let r (j : Nat) : Bool × Fl := f (lane w x.bits (ja j)) (lane w y.bits (jb j))
    let old := (s.core.m[md.toNat]'(md.isLt)).v
    let new := maskOf ((List.range 256).map (fun j => if j < n && on j then (r j).1 else mbit old j))
    .ok ((s.putM md new lat).flagV (flagsOf n on (fun j => (r j).2)))

/-- Conditions of VFCMP: eq, lt, le, un (R153). -/
def flCond (f : Fmt) (c : BitVec 2) (x y : Nat) : Bool × Fl :=
  let a := decodeF f x
  let b := decodeF f y
  let nan := a.isNan || b.isNan
  match c.toNat with
  | 0 => (a.eq b, {})
  | 1 => (a.lt b, ⟨nan, false⟩)
  | 2 => (a.le b, ⟨nan, false⟩)
  | _ => (nan, {})

def vfCmp (va : Bool) (c : BitVec 2) (md : BitVec 4) (a b : BitVec 6) (p : BitVec 4) (k : BitVec 3) (s : State) :
    Host.Outcome State Fault Refusal :=
  vword s (fun pm => do
    let vt ← s.vtNow
    let (w, ft) := ftOf vt
    cmpWord w 4 (flCond ft c) va md a b p k pm s)

def execVfadd (d a b : BitVec 6) (p : BitVec 4) (k : BitVec 3) (s : State) := vfBin flAdd false d a b p k s
def execVfaddVa (d a b : BitVec 6) (p : BitVec 4) (k : BitVec 3) (s : State) := vfBin flAdd true d a b p k s
def execVfsub (d a b : BitVec 6) (p : BitVec 4) (k : BitVec 3) (s : State) := vfBin flSub false d a b p k s
def execVfsubVa (d a b : BitVec 6) (p : BitVec 4) (k : BitVec 3) (s : State) := vfBin flSub true d a b p k s
def execVfmul (d a b : BitVec 6) (p : BitVec 4) (k : BitVec 3) (s : State) := vfBin flMul false d a b p k s
def execVfmulVa (d a b : BitVec 6) (p : BitVec 4) (k : BitVec 3) (s : State) := vfBin flMul true d a b p k s
def execVfma (d a b : BitVec 6) (p : BitVec 4) (k : BitVec 3) (s : State) := vfFma false d a b p k s
def execVfmaVa (d a b : BitVec 6) (p : BitVec 4) (k : BitVec 3) (s : State) := vfFma true d a b p k s
def execVfmin (d a b : BitVec 6) (p : BitVec 4) (k : BitVec 3) (s : State) := vfBin flMin false d a b p k s
def execVfminVa (d a b : BitVec 6) (p : BitVec 4) (k : BitVec 3) (s : State) := vfBin flMin true d a b p k s
def execVfmax (d a b : BitVec 6) (p : BitVec 4) (k : BitVec 3) (s : State) := vfBin flMax false d a b p k s
def execVfmaxVa (d a b : BitVec 6) (p : BitVec 4) (k : BitVec 3) (s : State) := vfBin flMax true d a b p k s
def execVfcmp (c : BitVec 2) (m : BitVec 4) (a b : BitVec 6) (p : BitVec 4) (k : BitVec 3) (s : State) := vfCmp false c m a b p k s
def execVfcmpVa (c : BitVec 2) (m : BitVec 4) (a b : BitVec 6) (p : BitVec 4) (k : BitVec 3) (s : State) := vfCmp true c m a b p k s

/-! ## Integer words (R154, R155) -/

/-- An integer lane operation on width, signedness and two lanes. -/
abbrev IntOp := Nat → Bool → Nat → Nat → Nat × Fl

def iAdd : IntOp := fun w _ x y => ((x + y) % 2 ^ w, {})
def iSub : IntOp := fun w _ x y => ((x + 2 ^ w - y) % 2 ^ w, {})
def iMul : IntOp := fun w _ x y => (x * y % 2 ^ w, {})
def iMulh : IntOp := fun w sg x y => (intBits w (bitsInt w sg x * bitsInt w sg y / 2 ^ w), {})
def iMin : IntOp := fun w sg x y => (if bitsInt w sg x ≤ bitsInt w sg y then x else y, {})
def iMax : IntOp := fun w sg x y => (if bitsInt w sg x ≤ bitsInt w sg y then y else x, {})
def satTo (w : Nat) (sg : Bool) (v : Int) : Nat × Fl :=
  let (r, o) := clampInt (intLo w sg) (intHi w sg) v; (intBits w r, ⟨false, o⟩)
def iAdds : IntOp := fun w sg x y => satTo w sg (bitsInt w sg x + bitsInt w sg y)
def iSubs : IntOp := fun w sg x y => satTo w sg (bitsInt w sg x - bitsInt w sg y)
def iAnd : IntOp := fun _ _ x y => (x &&& y, {})
def iOr : IntOp := fun _ _ x y => (x ||| y, {})
def iXor : IntOp := fun _ _ x y => (x ^^^ y, {})
def iShl : IntOp := fun w _ x y => (if w ≤ y then 0 else x * 2 ^ y % 2 ^ w, {})
def iShr : IntOp := fun w sg x y =>
  let v := bitsInt w sg x
  (intBits w (if w ≤ y then (if v < 0 then -1 else 0) else v / 2 ^ y), {})

/-- Binary integer word. -/
def viBin (f : IntOp) (va : Bool) (d a b : BitVec 6) (p : BitVec 4) (k : BitVec 3) (s : State) :
    Host.Outcome State Fault Refusal :=
  vword s (fun pm => do
    let vt ← s.vtNow
    let (w, sg) := itOf vt
    laneWord w 2 false (fun x y _ => f w sg x y) va d a b p k pm s)

/-- Conditions of VCMP: eq, ne, lt, le (R155). -/
def iCond (w : Nat) (sg : Bool) (c : BitVec 2) (x y : Nat) : Bool × Fl :=
  match c.toNat with
  | 0 => (x == y, {})
  | 1 => (x != y, {})
  | 2 => (decide (bitsInt w sg x < bitsInt w sg y), {})
  | _ => (decide (bitsInt w sg x ≤ bitsInt w sg y), {})

def viCmp (va : Bool) (c : BitVec 2) (md : BitVec 4) (a b : BitVec 6) (p : BitVec 4) (k : BitVec 3) (s : State) :
    Host.Outcome State Fault Refusal :=
  vword s (fun pm => do
    let vt ← s.vtNow
    let (w, sg) := itOf vt
    cmpWord w 2 (iCond w sg c) va md a b p k pm s)

def execVadd (d a b : BitVec 6) (p : BitVec 4) (k : BitVec 3) (s : State) := viBin iAdd false d a b p k s
def execVaddVa (d a b : BitVec 6) (p : BitVec 4) (k : BitVec 3) (s : State) := viBin iAdd true d a b p k s
def execVsub (d a b : BitVec 6) (p : BitVec 4) (k : BitVec 3) (s : State) := viBin iSub false d a b p k s
def execVsubVa (d a b : BitVec 6) (p : BitVec 4) (k : BitVec 3) (s : State) := viBin iSub true d a b p k s
def execVmul (d a b : BitVec 6) (p : BitVec 4) (k : BitVec 3) (s : State) := viBin iMul false d a b p k s
def execVmulVa (d a b : BitVec 6) (p : BitVec 4) (k : BitVec 3) (s : State) := viBin iMul true d a b p k s
def execVmulh (d a b : BitVec 6) (p : BitVec 4) (k : BitVec 3) (s : State) := viBin iMulh false d a b p k s
def execVmulhVa (d a b : BitVec 6) (p : BitVec 4) (k : BitVec 3) (s : State) := viBin iMulh true d a b p k s
def execVmin (d a b : BitVec 6) (p : BitVec 4) (k : BitVec 3) (s : State) := viBin iMin false d a b p k s
def execVminVa (d a b : BitVec 6) (p : BitVec 4) (k : BitVec 3) (s : State) := viBin iMin true d a b p k s
def execVmax (d a b : BitVec 6) (p : BitVec 4) (k : BitVec 3) (s : State) := viBin iMax false d a b p k s
def execVmaxVa (d a b : BitVec 6) (p : BitVec 4) (k : BitVec 3) (s : State) := viBin iMax true d a b p k s
def execVadds (d a b : BitVec 6) (p : BitVec 4) (k : BitVec 3) (s : State) := viBin iAdds false d a b p k s
def execVaddsVa (d a b : BitVec 6) (p : BitVec 4) (k : BitVec 3) (s : State) := viBin iAdds true d a b p k s
def execVsubs (d a b : BitVec 6) (p : BitVec 4) (k : BitVec 3) (s : State) := viBin iSubs false d a b p k s
def execVsubsVa (d a b : BitVec 6) (p : BitVec 4) (k : BitVec 3) (s : State) := viBin iSubs true d a b p k s
def execVand (d a b : BitVec 6) (p : BitVec 4) (k : BitVec 3) (s : State) := viBin iAnd false d a b p k s
def execVandVa (d a b : BitVec 6) (p : BitVec 4) (k : BitVec 3) (s : State) := viBin iAnd true d a b p k s
def execVor (d a b : BitVec 6) (p : BitVec 4) (k : BitVec 3) (s : State) := viBin iOr false d a b p k s
def execVorVa (d a b : BitVec 6) (p : BitVec 4) (k : BitVec 3) (s : State) := viBin iOr true d a b p k s
def execVxor (d a b : BitVec 6) (p : BitVec 4) (k : BitVec 3) (s : State) := viBin iXor false d a b p k s
def execVxorVa (d a b : BitVec 6) (p : BitVec 4) (k : BitVec 3) (s : State) := viBin iXor true d a b p k s
def execVshl (d a b : BitVec 6) (p : BitVec 4) (k : BitVec 3) (s : State) := viBin iShl false d a b p k s
def execVshlVa (d a b : BitVec 6) (p : BitVec 4) (k : BitVec 3) (s : State) := viBin iShl true d a b p k s
def execVshr (d a b : BitVec 6) (p : BitVec 4) (k : BitVec 3) (s : State) := viBin iShr false d a b p k s
def execVshrVa (d a b : BitVec 6) (p : BitVec 4) (k : BitVec 3) (s : State) := viBin iShr true d a b p k s
def execVcmp (c : BitVec 2) (m : BitVec 4) (a b : BitVec 6) (p : BitVec 4) (k : BitVec 3) (s : State) := viCmp false c m a b p k s
def execVcmpVa (c : BitVec 2) (m : BitVec 4) (a b : BitVec 6) (p : BitVec 4) (k : BitVec 3) (s : State) := viCmp true c m a b p k s

/-- VCLMUL on pairs of 32-bit lanes (R157). It takes no mask. -/
def vClmul (hi va : Bool) (d a b : BitVec 6) (p : BitVec 4) (s : State) : Host.Outcome State Fault Refusal :=
  vword s (fun pm => do
    let x ← s.vRead a 0
    let y ← s.vRead b 1
    let on (j : Nat) : Bool := mbit pm j
    let ja := patOf p va
    let jb := patOf p (!va)
    -- a pair computes when either of its lanes is active, from all four of its operand lanes
    let bad (j : Nat) : Bool := lanePoison 32 x (ja j) || lanePoison 32 y (jb j)
    if anyPoison 64 on (fun j => bad (j - j % 2) || bad (j - j % 2 + 1)) then raise .poisonConsumed
    else
      let pair (r : BitVec 2048) (f : Nat → Nat) (q : Nat) : Nat := lane 32 r (f (2 * q)) + 2 ^ 32 * lane 32 r (f (2 * q + 1))
      let new (j : Nat) : Nat :=
        let pr := clmulNat (pair x.bits ja (j / 2)) (pair y.bits jb (j / 2))
        (if hi then pr / 2 ^ 64 else pr) / 2 ^ (32 * (j % 2)) % 2 ^ 32
      .ok (s.vWrite d (mergeRow 32 64 (s.vOld d) on new (fun _ => false)) 2))

/-- VSEL moves a lane of va or vb, with its poison, into every lane (R156). -/
def vSel (va : Bool) (d a b : BitVec 6) (p : BitVec 4) (k : BitVec 3) (s : State) : Host.Outcome State Fault Refusal :=
  vword s (fun pm => do
    let vt ← s.vtNow
    let (w, _) := itOf vt
    let x ← s.vRead a 0
    let y ← s.vRead b 1
    let m ← s.mVal (k.zeroExtend 4) 0
    let ja := patOf p va
    let jb := patOf p (!va)
    .ok (s.vWrite d (mergeRow w (rowCount w) (s.vOld d) (mbit pm)
      (fun j => if mbit m j then lane w x.bits (ja j) else lane w y.bits (jb j))
      (fun j => if mbit m j then lanePoison w x (ja j) else lanePoison w y (jb j))) 2))

def execVclmul (d a b : BitVec 6) (p : BitVec 4) (s : State) := vClmul false false d a b p s
def execVclmulVa (d a b : BitVec 6) (p : BitVec 4) (s : State) := vClmul false true d a b p s
def execVclmulh (d a b : BitVec 6) (p : BitVec 4) (s : State) := vClmul true false d a b p s
def execVclmulhVa (d a b : BitVec 6) (p : BitVec 4) (s : State) := vClmul true true d a b p s
def execVsel (d a b : BitVec 6) (p : BitVec 4) (k : BitVec 3) (s : State) := vSel false d a b p k s
def execVselVa (d a b : BitVec 6) (p : BitVec 4) (k : BitVec 3) (s : State) := vSel true d a b p k s

/-- VMOV copies with poison into the active lanes (R158). -/
def execVmov (d a : BitVec 6) (p : BitVec 4) (k : BitVec 3) (s : State) : Host.Outcome State Fault Refusal :=
  vword s (fun pm => do
    let vt ← s.vtNow
    let (w, _) := itOf vt
    let x ← s.vRead a 0
    let m ← s.mVal (k.zeroExtend 4) 0
    .ok (s.vWrite d (mergeRow w (rowCount w) (s.vOld d) (fun j => mbit m j && mbit pm j)
      (fun j => lane w x.bits (patLane p j)) (fun j => lanePoison w x (patLane p j))) 2))

/-! ## VSETT and masks (R151, R159) -/

def execVsett (t : BitVec 16) (s : State) : Host.Outcome State Fault Refusal :=
  vword s (fun _ => .ok (s.setPiece { s.core.pc with vt := t, vtOld := s.core.pc.vt, vtAt := s.cyc + 1 }))

/-- A mask word on two sources. -/
def mask2 (f : BitVec 256 → BitVec 256 → BitVec 256) (d a b : BitVec 4) (s : State) : Host.Outcome State Fault Refusal :=
  vword s (fun _ => do
    let x ← s.mVal a 0
    let y ← s.mVal b 1
    .ok (s.putM d (f x y)))

def execVmand (d a b : BitVec 4) (s : State) := mask2 (fun x y => x &&& y) d a b s
def execVmor (d a b : BitVec 4) (s : State) := mask2 (fun x y => x ||| y) d a b s
def execVmxor (d a b : BitVec 4) (s : State) := mask2 (fun x y => x ^^^ y) d a b s
def execVmandn (d a b : BitVec 4) (s : State) := mask2 (fun x y => x &&& ~~~y) d a b s
def execVmnot (d a : BitVec 4) (s : State) := mask2 (fun x _ => ~~~x) d a a s
def execVmmov (d a : BitVec 4) (s : State) := mask2 (fun x _ => x) d a a s

def execVmfirst (d : BitVec 4) (n : BitVec 12) (s : State) : Host.Outcome State Fault Refusal :=
  vword s (fun _ => .ok (s.putM d (BitVec.ofNat 256 (2 ^ n.toNat - 1))))

/-! ## Queue words (R160, R161) -/

/-- VPOP: a row from q6, or a 64-bit entry repeated across the row from q2 or q4. -/
def execVpop (d : BitVec 6) (q : BitVec 6) (k : BitVec 3) (s : State) : Host.Outcome State Fault Refusal :=
  vwordQ s (if q = 6 then (s.peekRows 6 1).map (fun _ => ()) else (s.peek q.toNat 1).map (fun _ => ())) (fun pm => do
    let vt ← s.vtNow
    let (w, _) := itOf vt
    let m ← s.mVal (k.zeroExtend 4) 0
    let on (j : Nat) : Bool := mbit m j && mbit pm j
    if q = 6 then
      let rs ← s.peekRows 6 1
      let r := rs.headD ⟨0, 0⟩
      .ok ((s.popRows 6 1).vWrite d (mergeRow w (rowCount w) (s.vOld d) on (fun j => lane w r.bits j) (lanePoison w r)) 2)
    else
      let es ← s.peek q.toNat 1
      let e := es.headD ⟨0, false⟩
      .ok ((s.popN q.toNat 1).vWrite d (mergeRow w (rowCount w) (s.vOld d) on
        (fun j => e.v.toNat / 2 ^ (w * j % 64) % 2 ^ w) (fun _ => e.p)) 2))

/-- VPUSH: the row with its poison to q7, or its bytes [7:0] to q3 or q5. -/
def execVpush (q : BitVec 6) (a : BitVec 6) (p : BitVec 4) (s : State) : Host.Outcome State Fault Refusal :=
  vwordQ s (if q = 7 then s.roomRow 7 else s.room q.toNat) (fun _ => do
    let vt ← s.vtNow
    let (w, _) := itOf vt
    let x ← s.vRead a 0
    let r := mergeRow w (rowCount w) ⟨0, 0⟩ (fun _ => true) (fun j => lane w x.bits (patLane p j))
      (fun j => lanePoison w x (patLane p j))
    .ok (if q = 7 then s.pushRow 7 r
      else s.pushQ q.toNat ⟨BitVec.ofNat 64 (nb r.bits.toNat 0 64), nb r.p.toNat 0 2 != 0⟩))

/-! ## Reductions (R162, R163) -/

/-- A reduction: whether on FT; width, the operation with its flags, and the identity, from VT. -/
structure RedOp where
  fl : Bool
  op : BitVec 16 → Nat → Nat → Nat × Fl
  ident : BitVec 16 → Nat

def redF (f : Fmt → Nat → Nat → Nat × Fl) (i : Fmt → Nat) : RedOp :=
  ⟨true, fun vt => f (ftOf vt).2, fun vt => i (ftOf vt).2⟩
def redI (f : IntOp) (i : Nat → Bool → Nat) : RedOp :=
  ⟨false, fun vt => f (itOf vt).1 (itOf vt).2, fun vt => i (itOf vt).1 (itOf vt).2⟩

def redFadd : RedOp := redF flAdd (fun f => f.sign true)
def redFmin : RedOp := redF flMin (fun f => f.infBits false)
def redFmax : RedOp := redF flMax (fun f => f.infBits true)
def redAdd : RedOp := redI iAdd (fun _ _ => 0)
def redMin : RedOp := redI iMin (fun w sg => intBits w (intHi w sg))
def redMax : RedOp := redI iMax (fun w sg => intBits w (intLo w sg))
def redAnd : RedOp := redI iAnd (fun w _ => 2 ^ w - 1)
def redOr : RedOp := redI iOr (fun _ _ => 0)
def redXor : RedOp := redI iXor (fun _ _ => 0)

/-- One level of the tree: neighbours combined. -/
def treeLevel (f : Nat → Nat → Nat × Fl) : List Nat → List Nat × Fl
  | x :: y :: r =>
    let (z, fl) := f x y
    let (l, fl') := treeLevel f r
    (z :: l, fl.or fl')
  | l => (l, {})

/-- The tree over `2^n` elements. -/
def tree (f : Nat → Nat → Nat × Fl) : Nat → List Nat → Nat × Fl
  | 0, l => (l.headD 0, {})
  | n + 1, l =>
    let (l', fl) := treeLevel f l
    let (x, fl') := tree f n l'
    (x, fl.or fl')

/-- Running results: `scan` gives the value with the element, `xscan` the one before it. -/
def scanL (f : Nat → Nat → Nat × Fl) (ex : Bool) : Nat → List Nat → List Nat × Fl
  | _, [] => ([], {})
  | acc, x :: r =>
    let (z, fl) := f acc x
    let (l, fl') := scanL f ex z r
    ((if ex then acc else z) :: l, fl.or fl')

def vRed (o : RedOp) (d a : BitVec 6) (sc : BitVec 2) (p : BitVec 4) (k : BitVec 3) (s : State) :
    Host.Outcome State Fault Refusal :=
  vword s (fun pm => do
    let vt ← s.vtNow
    let w := if o.fl then (ftOf vt).1 else (itOf vt).1
    let n := rowCount w
    let x ← s.vRead a 0
    let m ← s.mVal (k.zeroExtend 4) 0
    let on (j : Nat) : Bool := mbit m j && mbit pm j
    if anyPoison n on (fun j => lanePoison w x (patLane p j)) then raise .poisonConsumed
    else
      let f := o.op vt
      let xs := (List.range n).map (fun j => if on j then lane w x.bits (patLane p j) else o.ident vt)
      let old := s.vOld d
      let (r, fl) : RowV × Fl :=
        match sc.toNat with
        | 0 =>
          let (z, fl) := tree f (Nat.log2 n) xs
          (mergeRow w n old (fun j => j == 0) (fun _ => z) (fun _ => false), fl)
        | 1 =>
          let zs := (List.range (n / 32)).map (fun b => tree f 5 ((xs.drop (32 * b)).take 32))
          (mergeRow w n old (fun j => j % 32 == 0) (fun j => (zs.getD (j / 32) (0, {})).1) (fun _ => false),
            zs.foldl (fun acc z => acc.or z.2) {})
        | 2 =>
          let (l, fl) := scanL f false (xs.headD 0) (xs.drop 1)
          let l := xs.headD 0 :: l
          (mergeRow w n old on (fun j => l.getD j 0) (fun _ => false), fl)
        | _ =>
          let (l, fl) := scanL f true (o.ident vt) xs
          (mergeRow w n old on (fun j => l.getD j 0) (fun _ => false), fl)
      .ok ((s.vWrite d r 8).flagV fl))

def execVredFadd (d a : BitVec 6) (sc : BitVec 2) (p : BitVec 4) (k : BitVec 3) (s : State) := vRed redFadd d a sc p k s
def execVredFmin (d a : BitVec 6) (sc : BitVec 2) (p : BitVec 4) (k : BitVec 3) (s : State) := vRed redFmin d a sc p k s
def execVredFmax (d a : BitVec 6) (sc : BitVec 2) (p : BitVec 4) (k : BitVec 3) (s : State) := vRed redFmax d a sc p k s
def execVredAdd (d a : BitVec 6) (sc : BitVec 2) (p : BitVec 4) (k : BitVec 3) (s : State) := vRed redAdd d a sc p k s
def execVredMin (d a : BitVec 6) (sc : BitVec 2) (p : BitVec 4) (k : BitVec 3) (s : State) := vRed redMin d a sc p k s
def execVredMax (d a : BitVec 6) (sc : BitVec 2) (p : BitVec 4) (k : BitVec 3) (s : State) := vRed redMax d a sc p k s
def execVredAnd (d a : BitVec 6) (sc : BitVec 2) (p : BitVec 4) (k : BitVec 3) (s : State) := vRed redAnd d a sc p k s
def execVredOr (d a : BitVec 6) (sc : BitVec 2) (p : BitVec 4) (k : BitVec 3) (s : State) := vRed redOr d a sc p k s
def execVredXor (d a : BitVec 6) (sc : BitVec 2) (p : BitVec 4) (k : BitVec 3) (s : State) := vRed redXor d a sc p k s

/-! ## Random bits (R166 to R170) -/

/-- What a drawing word sees of a generator register in the window of its writes (R167): for two cycles after a write the value before it
or the one written; and how many writes back that is. `h` are the writes, the latest first. -/
def State.rngBack (s : State) (i : Nat) (new : W64) : List (Nat × W64) → W64 × Nat
  | [] => (new, 0)
  | (c, old) :: r =>
    if s.cyc ≤ c || (s.cyc ≤ c + 2 && s.choice (4 + 8 * r.length + i)) then
      let (v, n) := s.rngBack i old r
      (v, n + 1)
    else (new, 0)

/-- Generator register `i` (0 seed, 1 tensor, 2 coordinate, 3 stride, 4 advance) as a drawing word sees it, where it holds `new`. -/
def State.rngReg (s : State) (i : Nat) (new : W64) : W64 × Nat := s.rngBack i new (Map.get [] s.core.pc.rngOld i)

/-- The draw of element `j` (R167). -/
def State.draw (s : State) (j : Nat) : W32 :=
  let p := s.core.pc
  let seed := (s.rngReg 0 (s.ctx p.ctx).rngseed).1
  let tid := (s.rngReg 1 p.rngtid).1
  let crd := (s.rngReg 2 p.rngcrd).1
  let str := (s.rngReg 3 p.rngstr).1
  kerfDraw seed (s.ctx p.ctx).step.k (tid.truncate 32) ((crd.toNat + j * str.toNat) % 2 ^ 64)

/-- RNGCRD advances behind a word that drew from the value it holds. -/
def State.drewNew (s : State) (adv : W64) : State :=
  let p := s.core.pc
  let h := ((s.cyc, p.rngcrd) :: p.crdHist).filter (fun e => decide (s.cyc < e.1 + 3))
  s.setPiece { p with rngcrd := p.rngcrd + adv, crdHist := h, rngOld := Map.set [] p.rngOld 2 [] }

/-- After a drawing word RNGCRD advances; the advances of the old value go with it when the new one is written, and once a word has
drawn from the new value so do the words behind it (R167). The values of the last cycles are kept for CSRR. -/
def State.advance (s : State) : State :=
  let p := s.core.pc
  let adv := (s.rngReg 4 p.rngadv).1
  let (crd, back) := s.rngReg 2 p.rngcrd
  let old := Map.get [] p.rngOld 2
  match old[back - 1]? with
  | some (c, _) =>
    if back = 0 then s.drewNew adv
    else s.setPiece { p with rngOld := Map.set [] p.rngOld 2 (old.take (back - 1) ++ [(c, crd + adv)]) }
  | none => s.drewNew adv

def execVrng (d : BitVec 6) (k : BitVec 3) (s : State) : Host.Outcome State Fault Refusal :=
  vword s (fun pm => do
    let vt ← s.vtNow
    let (w, _) := itOf vt
    let m ← s.mVal (k.zeroExtend 4) 0
    let r := mergeRow w (rowCount w) (s.vOld d) (fun j => mbit m j && mbit pm j) (fun j => (s.draw j).toNat % 2 ^ w)
      (fun _ => false)
    .ok ((s.vWrite d r 6).advance))

/-! ## Conversions (R164, R165) -/

/-- Whether VCVT writes destination element `j` under a stage predicate (R179): a predicate of all ones gates nothing; under any
other, an element beyond the 256 predicate bits has no bit that is 1 and is kept. -/
def cvtOn (pm : BitVec 256) (j : Nat) : Bool := pm == BitVec.allOnes 256 || mbit pm j

/-- A conversion of elements of `ws` bits into elements of `wd` bits: the part `h` chooses the half when the counts
differ, and a larger part is an Illegal Word. `f j x` converts the source element at position `j`. -/
def convert (ws wd : Nat) (f : Nat → Nat → Nat × Fl) (draws : Bool) (d a : BitVec 6) (p : BitVec 4) (h : BitVec 3)
    (pm : BitVec 256) (s : State) : Chk State := do
  let cs := rowCount ws
  let cd := rowCount wd
  if max cs cd / min cs cd ≤ h.toNat then s.illegal .v
  else
    let x ← s.vRead a 0
    let src (j : Nat) : Nat := lane ws x.bits (patLane p j)
    let sp (j : Nat) : Bool := lanePoison ws x (patLane p j)
    -- source position that feeds destination element j, and the destination elements written
    let lo := if cs < cd then h.toNat * cs else 0
    let cnt := min cs cd
    let pos (j : Nat) : Nat := if cd < cs then h.toNat * cd + j else j - lo
    let on (j : Nat) : Bool := decide (lo ≤ j) && decide (j < lo + cnt) && cvtOn pm j
    if anyPoison cd on (fun j => sp (pos j)) then raise .poisonConsumed
    else
      let r (j : Nat) : Nat × Fl := f (pos j) (src (pos j))
      let fl := flagsOf cd on (fun j => (r j).2)
      let s' := (s.vWrite d (mergeRow wd cd (s.vOld d) on (fun j => (r j).1) (fun _ => false)) 4).flagV fl
      .ok (if draws then s'.advance else s')

/-- Rounding mode of a conversion at a position: stochastic rounding draws there (R165). -/
def State.rmAt (s : State) (r : BitVec 3) (j : Nat) : Rm := rmOf r.toNat (if r = 4 then s.draw j else 0)

/-- A floating-to-floating conversion. -/
def cvtF (src dst : Nat × Fmt) (sat : Bool) (d a : BitVec 6) (r : BitVec 3) (p : BitVec 4) (h : BitVec 3)
    (pm : BitVec 256) (s : State) : Chk State :=
  convert src.1 dst.1 (fun j x => narrow dst.2 (s.rmAt r j) sat (decodeF src.2 x)) (r == 4) d a p h pm s

def execVcvtF2n (d a : BitVec 6) (r : BitVec 3) (p : BitVec 4) (h : BitVec 3) (s : State) :
    Host.Outcome State Fault Refusal :=
  vword s (fun pm => do let vt ← s.vtNow; cvtF (ftOf vt) (ntOf vt) false d a r p h pm s)
def execVcvtF2ns (d a : BitVec 6) (r : BitVec 3) (p : BitVec 4) (h : BitVec 3) (s : State) :
    Host.Outcome State Fault Refusal :=
  vword s (fun pm => do let vt ← s.vtNow; cvtF (ftOf vt) (ntOf vt) true d a r p h pm s)
def execVcvtN2f (d a : BitVec 6) (r : BitVec 3) (p : BitVec 4) (h : BitVec 3) (s : State) :
    Host.Outcome State Fault Refusal :=
  vword s (fun pm => do let vt ← s.vtNow; cvtF (ntOf vt) (ftOf vt) false d a r p h pm s)

def execVcvtF2i (d a : BitVec 6) (r : BitVec 3) (p : BitVec 4) (h : BitVec 3) (s : State) :
    Host.Outcome State Fault Refusal :=
  vword s (fun pm => do
    let vt ← s.vtNow
    let (w, ft) := ftOf vt
    let (wd, sg) := itOf vt
    convert w wd (fun j x =>
      let (v, fl) := toIntClamp (s.rmAt r j) (intLo wd sg) (intHi wd sg) (decodeF ft x)
      (intBits wd v, fl)) (r == 4) d a p h pm s)

def execVcvtI2f (d a : BitVec 6) (r : BitVec 3) (p : BitVec 4) (h : BitVec 3) (s : State) :
    Host.Outcome State Fault Refusal :=
  vword s (fun pm => do
    let vt ← s.vtNow
    let (ws, sg) := itOf vt
    let (wd, ft) := ftOf vt
    convert ws wd (fun j x => narrow ft (s.rmAt r j) false (Fv.ofInt (bitsInt ws sg x))) (r == 4) d a p h pm s)

/-- 32-bit integers to IT: wrapping or saturating (R62). -/
def cvtI32 (sat : Bool) (d a : BitVec 6) (p : BitVec 4) (h : BitVec 3) (s : State) : Host.Outcome State Fault Refusal :=
  vword s (fun pm => do
    let vt ← s.vtNow
    let (w, sg) := itOf vt
    convert 32 w (fun _ x => if sat then satTo w sg (bitsInt 32 sg x) else (x % 2 ^ w, {})) false d a p h pm s)

def execVcvtI32n (d a : BitVec 6) (p : BitVec 4) (h : BitVec 3) (s : State) := cvtI32 false d a p h s
def execVcvtI32ns (d a : BitVec 6) (p : BitVec 4) (h : BitVec 3) (s : State) := cvtI32 true d a p h s

def execVcvtIw32 (d a : BitVec 6) (p : BitVec 4) (h : BitVec 3) (s : State) : Host.Outcome State Fault Refusal :=
  vword s (fun pm => do
    let vt ← s.vtNow
    let (w, sg) := itOf vt
    convert w 32 (fun _ x => (intBits 32 (bitsInt w sg x), {})) false d a p h pm s)

/-! ## LOOPR (R177, R178) -/

/-- LOOPR where no stage predicate gates it. With RST = 1 the base is 0 in VWIN and in the value that an earlier write of VWIN
still in its window replaces (DESIGN CHOICE, log entry 75). -/
def State.loopr (s : State) (src : BitVec 2) (rst : Bool) (stg : BitVec 3) (o : BitVec 19) : Chk State :=
  if s.core.pc.loopr.isSome then raise .loopFault
  else do
    let q := if src = 0 then 4 else 2
    let es ← s.peek q (if stg = 0 then 1 else 2)
    if es.any PV.p then raise .poisonConsumed
    else
      let cnt := (es.headD ⟨0, false⟩).v.toNat
      let map := if stg = 0 then 0 else ((es.drop 1).headD ⟨0, false⟩).v
      let len := o.toNat - 1
      if map.toNat % 2 = 1 || map.toNat / 2 ^ len ≠ 0 || popNat map.toNat 64 ≠ stg.toNat then raise .loopFault
      else
        let pc := s.core.cv.pc
        let t := s.target .v o
        let s := s.popN q es.length
        let s := (s.setCore { s.core with res := .issued }).emptyBuf .v
        let p := s.core.pc
        let s := if rst then s.setPiece { p with vwin := withRb p.vwin 0, vwinOld := withRb p.vwinOld 0 } else s
        if cnt = 0 then .ok (s.setPc .v t)
        else
          let m := (List.range 8).foldl
            (fun m i => m.set! (8 + i) ⟨if i = 0 then BitVec.allOnes 256 else 0, s.cyc⟩) s.core.m
          let s := s.setCore { s.core with m := m }
          .ok ((s.setPiece { s.core.pc with
            loopr := some ⟨cnt + stg.toNat, 0, cnt, map, pc + 4, t⟩ }).setPc .v (pc + 4))

/-- LOOPR (R177, R178). In the body of a loop it is a Loop Fault, or changes nothing under a stage predicate of all zeros (R179). -/
def execLoopr (src : BitVec 2) (rst : Bool) (stg : BitVec 3) (o : BitVec 19) (s : State) :
    Host.Outcome State Fault Refusal :=
  match s.stagePred with
  | .error e => issue .v s (.error e)
  | .ok (some 0) => word .v s (.ok s)
  | .ok _ => issue .v s (s.loopr src rst stg o)

end Sys2Proof.Machine
end

