-- ==== Sys2Proof/Machine/Sfu.lean ====
section
/-! DEFINITION. The six functions of VSF (05 R171 to R176) and their words. Each algorithm works on exact values and
rounds to FP32 where the spec writes round_rne; products inside a rounding are exact. -/
namespace Sys2Proof.Machine

/-- round_rne(x, FP32) as a value. -/
def rn32 (x : Fv) (st : Bool := false) : Fv := decodeF f32 (rne f32 x st).1

/-- round_rne(x, FP32) with the OFV flag of an overflow. -/
def rn32v (x : Fv) : Fv × Fl := let (v, f) := rne f32 x; (decodeF f32 v, ⟨false, f.ov⟩)

/-- The value of an FP32 encoding. -/
def c32 (n : Nat) : Fv := decodeF f32 n

def fvOne : Fv := .fin false 1 0

/-- round_rne(a b + c, FP32). -/
def fma32 (a b c : Fv) : Fv := rn32 (a.fma b c).1

/-- A polynomial by Horner's rule: `acc` starts at the highest coefficient, the list holds the others, highest first. -/
def horner (x : Fv) (acc : Fv) : List Nat → Fv
  | [] => acc
  | k :: r => horner x (fma32 acc x (c32 k)) r

/-- Multiplication by 2^k. -/
def Fv.scale2 (x : Fv) (k : Int) : Fv :=
  match x with
  | .fin s m e => .fin s m (e + k)
  | y => y

/-- R172. -/
def sfExp2 (x : Fv) : Fv × Fl :=
  match x with
  | .nan => (.nan, {})
  | .inf neg => if neg then (.fin false 0 0, {}) else (.inf false, {})
  | .fin s m e =>
    if !x.lt (.fin false 128 0) then (.inf false, ⟨false, true⟩)
    else if x.lt (.fin true 150 0) then (.fin false 0 0, {})
    else
      let nn := toInt .rne s m e
      let f := (x.add (Fv.ofInt (-nn))).1
      let p := horner f (c32 0x39218487) [0x3AAEC429, 0x3C1D9556, 0x3D635850, 0x3E75FDF0, 0x3F317218, 0x3F800000]
      rn32v (p.scale2 nn)

/-- A positive finite value as mantissa in [1, 2) and exponent: x = m 2^e. -/
def normOf (m : Nat) (e : Int) : Fv × Int := (.fin false m (-(Nat.log2 m : Int)), e + (Nat.log2 m : Int))

/-- R173. -/
def sfLog2 (x : Fv) : Fv × Fl :=
  match x with
  | .nan => (.nan, {})
  | .inf neg => if neg then (.nan, ⟨true, false⟩) else (.inf false, {})
  | .fin s m e =>
    if m = 0 then (.inf true, {})
    else if s then (.nan, ⟨true, false⟩)
    else
      let (m1, e1) := normOf m e
      let big := (c32 0x3FB504F3).lt m1
      let m2 := if big then m1.scale2 (-1) else m1
      let e2 := if big then e1 + 1 else e1
      let t := (m2.add (.fin true 1 0)).1
      let q := horner t (c32 0xBE38AA3B) [0x3E530BCA, 0xBE76384D, 0x3E93BB72, 0xBEB8AA3B, 0x3EF6384D, 0xBF38AA3B, 0x3FB8AA3B]
      (fma32 t q (Fv.ofInt e2), {})

/-- Table RT of R174. -/
def rcpTable (i : Nat) : Fv :=
  let (v, _, st) := (Fv.fin false 256 0).div (.fin false (257 + 2 * i) 0)
  rn32 v st

/-- A Newton step of R174. -/
def rcpStep (m z : Fv) : Fv :=
  let ee := fma32 m.neg z fvOne
  fma32 z ee z

/-- R174. -/
def sfRcp (x : Fv) : Fv × Fl :=
  match x with
  | .nan => (.nan, {})
  | .inf s => (.fin s 0 0, {})
  | .fin s m e =>
    if m = 0 then (.inf s, {})
    else
      let (m1, e1) := normOf m e
      let z := rcpTable (m * 128 / 2 ^ Nat.log2 m - 128)
      let z := rcpStep m1 (rcpStep m1 z)
      let y := z.scale2 (-e1)
      rn32v (if s then y.neg else y)

/-- Table ST of R175: 1 / sqrt((65 + 2i) / 64), never an exact tie, so truncated digits with a sticky bit suffice. -/
def rsqrtTable (i : Nat) : Fv := rn32 (.fin false (isqrt (64 * 2 ^ 128 / (65 + 2 * i))) (-64)) true

/-- A Newton step of R175. -/
def rsqrtStep (m z : Fv) : Fv :=
  let u := rn32 (z.mul z).1
  let ee := fma32 m.neg u fvOne
  fma32 (z.scale2 (-1)) ee z

/-- R175. -/
def sfRsqrt (x : Fv) : Fv × Fl :=
  match x with
  | .nan => (.nan, {})
  | .inf neg => if neg then (.nan, ⟨true, false⟩) else (.fin false 0 0, {})
  | .fin s m e =>
    if m = 0 then (.inf s, {})
    else if s then (.nan, ⟨true, false⟩)
    else
      let (m1, e1) := normOf m e
      let odd := decide (e1 % 2 ≠ 0)
      let m2 := if odd then m1.scale2 1 else m1
      let e2 := if odd then e1 - 1 else e1
      let z := rsqrtTable (m * (if odd then 64 else 32) / 2 ^ Nat.log2 m - 32)
      ((rsqrtStep m2 (rsqrtStep m2 z)).scale2 (-(e2 / 2)), {})

/-- sigm of R176; inside it exp2 and rcp set no flag. -/
def sfSigm (x : Fv) : Fv × Fl :=
  match x with
  | .nan => (.nan, {})
  | .inf neg => if neg then (.fin false 0 0, {}) else (fvOne, {})
  | y =>
    let a := rn32 (y.neg.mul (c32 0x3FB8AA3B)).1
    let d := rn32 (fvOne.add (sfExp2 a).1).1
    ((sfRcp d).1, {})

/-- tanh of R176. -/
def sfTanh (x : Fv) : Fv × Fl :=
  let sg (y : Fv) : Fv := if x.sgn then y.neg else y
  if x.isNan then (.nan, {})
  else
    let w := x.abs
    if w.lt (.fin false 1 (-12)) then (x, {})
    else if !w.lt (.fin false 9 0) then (sg fvOne, {})
    else
      let a := rn32 (w.mul (c32 0x4038AA3B)).1
      let d := rn32 (fvOne.add (sfExp2 a).1).1
      (sg (rn32 ((fvOne.add ((sfRcp d).1.scale2 1).neg).1)), {})

/-- A lane of type FT through a function: widened exactly, computed in FP32, rounded to FT. The last rounding sets OFV
only when a finite value becomes infinite (R171). -/
def sfLane (f : Fv → Fv × Fl) (ft : Fmt) (x : Nat) : Nat × Fl :=
  let (y, fl) := f (decodeF ft x)
  let (r, g) := rne ft y
  (r, fl.or ⟨false, g.ov⟩)

/-- VSF (R171). -/
def vsf (f : Fv → Fv × Fl) (d a : BitVec 6) (p : BitVec 4) (k : BitVec 3) (s : State) : Host.Outcome State Fault Refusal :=
  vword s (fun pm => do
    let vt ← s.vtNow
    let (w, ft) := ftOf vt
    let x ← s.vRead a 0
    let m ← s.mVal (k.zeroExtend 4) 0
    let n := rowCount w
    let on (j : Nat) : Bool := mbit m j && mbit pm j
    if anyPoison n on (fun j => lanePoison w x (patLane p j)) then raise .poisonConsumed
    else
      let r (j : Nat) : Nat × Fl := sfLane f ft (lane w x.bits (patLane p j))
      let fl := flagsOf n on (fun j => (r j).2)
      .ok ((s.vWrite d (mergeRow w n (s.vOld d) on (fun j => (r j).1) (fun _ => false)) 10).flagV fl))

def execVsfExp2 (d a : BitVec 6) (p : BitVec 4) (k : BitVec 3) (s : State) := vsf sfExp2 d a p k s
def execVsfLog2 (d a : BitVec 6) (p : BitVec 4) (k : BitVec 3) (s : State) := vsf sfLog2 d a p k s
def execVsfRcp (d a : BitVec 6) (p : BitVec 4) (k : BitVec 3) (s : State) := vsf sfRcp d a p k s
def execVsfRsqrt (d a : BitVec 6) (p : BitVec 4) (k : BitVec 3) (s : State) := vsf sfRsqrt d a p k s
def execVsfTanh (d a : BitVec 6) (p : BitVec 4) (k : BitVec 3) (s : State) := vsf sfTanh d a p k s
def execVsfSigm (d a : BitVec 6) (p : BitVec 4) (k : BitVec 3) (s : State) := vsf sfSigm d a p k s

end Sys2Proof.Machine
end

