-- ==== Sys2Proof/Machine/Slots.lean ====
section
/-! DEFINITION. Operand slots and landings (06 R188, R189, R203, R204): what a read of a slot sees, a landing write into
a slot, and Landing Conflict. -/
namespace Sys2Proof.Machine

/-- Size of a slot. -/
def slotSize : Nat := 16384

/-- Byte `off` of slot `n`: undefined until something is written after piece start (R188). -/
def Core.slotByte (c : Core) (n off : Nat) : Byte :=
  match Map.get none c.slot (n * slotSize + off) with
  | some b => b
  | none => Config.freeBits 8 (c.slotSeed * 2 ^ 24 + 2 ^ 23 + n * slotSize + off)

def Core.slotBytes (c : Core) (n off len : Nat) : Bytes := (List.range len).map (fun i => c.slotByte n (off + i))

/-- Write bytes into a slot. -/
def Core.putSlot (c : Core) (n off : Nat) : Bytes → Core
  | [] => c
  | b :: r => ({ c with slot := Map.set none c.slot (n * slotSize + off) (some b) } : Core).putSlot n (off + 1) r

/-- Poison of the sector that holds byte `off` of slot `n`. -/
def Core.slotBad (c : Core) (n off : Nat) : Bool := Map.get false c.slotPois (n * 512 + off / 32)

/-- Poison of a write to bytes [off, off + len) of a slot, by sector from the sector of `off` on (04 R126). -/
def Core.putSlotPois (c : Core) (n off len : Nat) (bad : List Bool) : Core :=
  { c with slotPois := ((unitsOf 32 off len).zip bad).foldl (fun p e =>
      if e.2 then Map.set false p (n * 512 + e.1) true
      else if off ≤ 32 * e.1 && 32 * e.1 + 32 ≤ off + len then Map.set false p (n * 512 + e.1) false else p) c.slotPois }

/-- A poisoned sector among the first `len` bytes. -/
def Core.slotAnyBad (c : Core) (n len : Nat) : Bool := (List.range (cdiv len 32)).any (fun k => c.slotBad n (32 * k))

def shapeEmpty : Shape := ⟨false, 0, 0, 0⟩
def Core.shapeOf (c : Core) (n : Nat) : Shape := Map.get shapeEmpty c.shape n
def Core.setShape (c : Core) (n : Nat) (x : Shape) : Core := { c with shape := Map.set shapeEmpty c.shape n x }

/-- Bytes of slot `n` in which an output of XPOSE or EPI has become seen in this cycle: what a copy or gather writes there in the same
cycle comes before it (07 R239). -/
def State.overBytes (s : State) (n : Nat) : Nat :=
  let o := Map.get (0, 0) s.core.shown n
  if o.1 = s.cyc + 1 then o.2 else 0

/-- The record that a copy or gather writes with its last chunk. That of an output seen in the same cycle comes after it, also where the
output has no bytes (07 R239). -/
def State.copyShape (s : State) (n : Nat) (x : Shape) : State :=
  if (Map.get (0, 0) s.core.shown n).1 = s.cyc + 1 then s else s.setCore (s.core.setShape n x)

/-- Bytes of `n` elements of a format, each row filled up to a byte (R189). -/
def rowBytes (fmt : BitVec 4) (n : Nat) : Nat := cdiv (n * fmtBits fmt) 8

/-- TADDR of a discarded landing in a slot (R204). -/
def slotAddr (n off : Nat) : W64 := BitVec.ofNat 64 (2 ^ 63 + n % 16 * 2 ^ 14 + off % 2 ^ 14)

/-- The in-use bit of a slot of the core in focus. -/
def State.slotUsed (s : State) (n : BitVec 4) : Bool := s.core.use.toNat.testBit n.toNat

/-- Landing Conflict on a slot of the core in focus is taken by the piece on that core (R204). -/
def State.conflictSlot (s : State) (n off : Nat) : State :=
  s.report s.k ⟨.landingConflict, 0, slotAddr n off⟩

/-- Landing Conflict against the owner of a block's bit (R203, R204). The launch that set the bit has completed when its index names none, or
a launch accepted after the piece that set it. -/
def State.conflictBlock (s : State) (b : Block) (addr : Nat) : State :=
  match s.launch b.li with
  | none => s
  | some l =>
    let c := s.coreOf b.core
    if b.pid < l.uid then s
    else if c.pc.run && c.pc.li = b.li then s.report b.core ⟨.landingConflict, 0, BitVec.ofNat 64 addr⟩
    else s.freezeLaunch b.li

/-- A landing write into SRAM of cluster `clu` at `off`: discarded where the block's in-use bit is set (R204). Answers
whether it was discarded. -/
def State.landSram (s : State) (clu off : Nat) (bs : Bytes) (bad : Bool) : State × Bool :=
  let b := Map.get blockEmpty s.shr.blocks (clu * 6144 + off / 4096)
  if b.use then (s, true) else (s.store (sramKey clu off) bs bad, false)

/-- Bytes of an output whose undefined tile rows are replaced by free values (07 R228). -/
def Landing.bytes (l : Landing) (s : State) : Bytes :=
  let rb := cdiv (l.ne * l.w) 8
  let bad (j : Nat) : Bool := l.und.toNat.testBit j
  if l.und = 0 then l.data
  else if l.tr then
    (List.range l.nr).flatMap (fun r =>
      let row := (l.data.drop (r * rb)).take rb
      let es := (List.range l.ne).map (fun j =>
        if bad j then (s.free 32 (28672 + 64 * r + j)).toNat % 2 ^ l.w else elemAt l.w row j)
      packElems l.w es)
  else
    (List.range l.nr).flatMap (fun r =>
      if bad r then (List.range rb).map (fun i => s.free 8 (28672 + 256 * r + i)) else (l.data.drop (r * rb)).take rb)

/-- An EPI or XPOSE output becomes seen (07 R229, R232, R233): whole, or discarded whole. -/
def State.landSlot (s : State) (l : Landing) : State :=
  let n := l.slot.toNat
  let s :=
    if s.slotUsed l.slot then s.conflictSlot n 0
    else
      let bs := l.bytes s
      let c := ((s.core.putSlot n 0 bs).putSlotPois n 0 bs.length l.pois).setShape n l.shp
      s.setCore { c with shown := Map.set (0, 0) c.shown n (s.cyc + 1, max bs.length (s.overBytes n)) }
  let s := s.setCore { s.core with land := s.core.land.filter (fun x => x != l) }
  match l.gauge with
  | some g => s.addGauge ⟨false, g.zeroExtend 8⟩ 1
  | none => s

end Sys2Proof.Machine
end

