-- ==== Sys2Proof/Machine/Matrix.lean ====
section
/-! DEFINITION. The words of M (07_matrix_instructions.md): resources and holds (R210, R220, R228), the format word
(R211, R212), MMA and MMAS (R217 to R223) with the sums of 02 R65 to R69, epilogues (R226 to R232), XPOSE, TZERO, TMOV,
REP, SHAPE and the index words. -/
namespace Sys2Proof.Machine

/-! ## Registers and repetition -/

/-- Effective slot (R209). -/
def State.effSlot (s : State) (n : BitVec 4) (i : BitVec 3) : Chk (BitVec 4) := do
  let v ← s.iVal i 1
  .ok (n + v.truncate 4)

/-- The increments that REP asks for after an issue (R224): a register named twice moves once. -/
def State.repInc (s : State) (ia ib : BitVec 3) : State :=
  match s.core.pc.rep with
  | none => s
  | some r =>
    let inc (s : State) (i : BitVec 3) : State :=
      if i = 0 then s else s.putI i ((s.core.i[i.toNat]'(i.isLt)).v + 1)
    let s := if r.ia then inc s ia else s
    if r.ib && !(r.ia && ia = ib) then inc s ib else s

/-- Issue a repeatable word: its effect, the increments, the end of the word (R224, R225). -/
def wordM (s : State) (ia ib : BitVec 3) (r : Chk State) : Host.Outcome State Fault Refusal :=
  word .m s (r.map (fun s => s.repInc ia ib))

/-- Issue a word of M that REP may not repeat. -/
def plainM (s : State) (r : Chk State) : Host.Outcome State Fault Refusal := issueM s (r.map (fun s => s.retire .m))

/-- An effect at the end of cycle c + 2 on a slot's in-use bit (R216). -/
def State.setUse (s : State) (n : BitVec 4) (v : Bool) : State :=
  s.setCore { s.core with usePend := s.core.usePend ++ [(s.cyc + 3, n, v)] }

def execClamp (a : BitVec 4) (i : BitVec 3) (s : State) : Host.Outcome State Fault Refusal :=
  wordM s i 0 (do
    let n ← s.effSlot a i
    .ok (s.setUse n true))

def execFree (a : BitVec 4) (i : BitVec 3) (s : State) : Host.Outcome State Fault Refusal :=
  wordM s i 0 (do
    let n ← s.effSlot a i
    .ok (s.setUse n false))

def execIset (i : BitVec 3) (v : BitVec 16) (s : State) : Host.Outcome State Fault Refusal :=
  plainM s (.ok (s.putI i v))

def execMIadd (i : BitVec 3) (v : BitVec 16) (s : State) : Host.Outcome State Fault Refusal :=
  plainM s (do
    let x ← s.iVal i 1
    .ok (s.putI i (x + v)))

/-- REP (R224); as the last word of a LOOP body it raises Loop Fault. -/
def execRep (b a : Bool) (n : BitVec 12) (s : State) : Host.Outcome State Fault Refusal :=
  issueM s (
    let last := match s.core.pc.mloop with
      | some l => s.core.cm.pc == l.e - 4
      | none => false
    if last then raise .loopFault
    else
      let s := s.retire .m
      .ok (s.setPiece { s.core.pc with rep := some ⟨n.toNat + 1, a, b, true⟩ }))

/-- The grant of SHAPE (R236) for a request `v`, in units of `u` up to `hi`. -/
def grantOf (u hi v : Nat) : Nat := if v = 0 then 0 else min (u * cdiv v u) hi

def execShape (i j k : BitVec 3) (s : State) : Host.Outcome State Fault Refusal :=
  plainM s (do
    let m ← s.iVal i 1
    let n ← s.iVal j 2
    let d ← s.iVal k 3
    let m' := grantOf 8 64 m.toNat
    let n' := grantOf 8 64 n.toNat
    let k' := grantOf 32 512 d.toNat
    let g : W64 := BitVec.ofNat 64 (2 ^ 24 + k' * 2 ^ 14 + n' * 2 ^ 7 + m')
    let s := s.setPiece { s.core.pc with mgrant := g }
    .ok (((s.putI i (BitVec.ofNat 16 m')).putI j (BitVec.ofNat 16 n')).putI k (BitVec.ofNat 16 k')))

def execShapeOff (s : State) : Host.Outcome State Fault Refusal :=
  plainM s (.ok (s.setPiece { s.core.pc with mgrant := 0 }))

/-- MGRANT as granted rows, columns and depth, or none in force (R235, R237). -/
def Piece.grant (p : Piece) : Option (Nat × Nat × Nat) :=
  if p.mgrant.toNat.testBit 24 then some (bitsOf p.mgrant 0 7, bitsOf p.mgrant 7 7, bitsOf p.mgrant 14 10) else none

/-! ## Resources (R210) -/

/-- A tile is held by MMA, TZERO or TMOV. -/
def State.heldM (s : State) (t : BitVec 2) : Bool := decide (s.cyc < (s.core.holdOf t.toNat).mFrom)

/-- A tile is held by an epilogue: until it has read row 63, or the last row of an EPIR has left (R228, R231). -/
def State.heldE (s : State) (t : BitVec 2) : Bool :=
  decide (s.cyc < (s.core.holdOf t.toNat).epi) || s.core.epir.any (fun e => e.tile == t && !e.left.isEmpty)

/-- The epilogue unit is busy. -/
def State.epiBusy (s : State) : Bool := decide (s.cyc < s.core.epiUnit) || s.core.epir.any (fun e => !e.left.isEmpty)

/-- Hold a tile for `l` cycles against M, and `l + 2` against V (R220, R234). -/
def State.holdTile (s : State) (t : BitVec 2) (l v : Nat) : State :=
  let h := s.core.holdOf t.toNat
  s.setCore { s.core with hold := Map.set holdNone s.core.hold t.toNat ⟨max h.vFrom (s.cyc + v), max h.mFrom (s.cyc + l), h.epi, h.fl⟩ }

/-- A row of a tile as an M word that reads it in cycle `at_` sees it (R221). -/
def State.mRow (s : State) (t : BitVec 2) (r at_ : Nat) : RowV :=
  let x := s.core.row (t.toNat * 64 + r)
  if at_ < x.rdy then ⟨s.free 2048 (32768 + r), s.undPoison x.p (32768 + r)⟩ else ⟨x.bits, x.p⟩

/-! ## The format word (R211 to R213) -/

/-- The first `n` entries of fq; Format Underflow when they are not there (R213, R222). -/
def State.peekFmt (s : State) (n : Nat) : Chk (List (Ent PV)) :=
  let es := (s.core.q 8).ents.take n
  if es.length = n && es.all (fun e => e.filled && decide (e.av ≤ s.cyc)) then .ok es else raise .formatUnderflow

def fField (fw : Nat) (lo w : Nat) : Nat := nb fw lo w

def fmtInvalid {α : Type} (fw : Nat) : Chk α := raise .formatInvalid 0 (BitVec.ofNat 64 fw)

/-- Validity of the format word of MMA (R65, R212). -/
def mmaFmtOk (fw : Nat) : Bool :=
  let af : BitVec 4 := BitVec.ofNat 4 fw
  let bf : BitVec 4 := BitVec.ofNat 4 (fw / 16)
  let sm := nb fw 13 2
  let gs := nb fw 15 2
  let mx (c : BitVec 4) : Bool := decide (4 ≤ c.toNat) && decide (c.toNat ≤ 8)
  nb fw 8 4 == 0 && kindOf af != .none && kindOf af == kindOf bf && kClass af == kClass bf &&
  (nb fw 12 1 == 1) == (kindOf af == .sym) && sm != 3 && (sm == 1) == (kindOf af == .asym) &&
  (sm != 2 || (mx af && mx bf && gs == 0)) && (sm != 1 || gs != 3)

/-- Validity of the format word of an epilogue (R212). -/
def epiFmtOk (fw : Nat) : Bool :=
  let off := nb fw 0 4
  nb fw 8 4 == 0 && !(off == 10 || off == 11 || off == 14 || off == 15) && decide (nb fw 25 3 < 4) &&
  decide (nb fw 13 2 < 2) && decide (nb fw 29 3 < 4)

/-! ## Operands of an MMA -/

/-- An element with the factors that make its value: itself and its scale (R53, R67, R69). -/
structure MVal where
  v : Fv
  sc : Fv
  deriving DecidableEq, Repr

/-- One operand: slot, format, the number of groups of its row and its scale slot. -/
structure MOperand where
  slot : BitVec 4
  fmt : BitVec 4
  klen : Nat
  sm : Nat
  g : Nat
  ss : BitVec 4
  deriving DecidableEq, Repr

/-- Groups of a row. -/
def MOperand.ng (o : MOperand) : Nat := cdiv o.klen o.g

/-- Bytes that a row of the scale slot must hold (R214). -/
def MOperand.need (o : MOperand) : Nat :=
  if o.sm = 2 then o.ng else if fmtBits o.fmt = 8 then 3 * o.ng else 2 * o.ng + cdiv o.ng 2

/-- Element (r, k) of an operand with its scale (R50, R53, R214). -/
def Core.operand (c : Core) (o : MOperand) (r k : Nat) : MVal :=
  let w := fmtBits o.fmt
  let row := c.slotBytes o.slot.toNat (r * rowBytes o.fmt o.klen) (rowBytes o.fmt o.klen)
  let q := elemAt w row k
  let plain : Fv := match fmtOf o.fmt with
    | some f => decodeF f q
    | none => Fv.ofInt (bitsInt w true q)
  if o.sm = 0 then ⟨plain, fvOne⟩
  else
    let sl := (c.shapeOf o.ss.toNat).klen.toNat
    let base := r * sl
    let byte (i : Nat) : Nat := (c.slotByte o.ss.toNat (base + i)).toNat
    let gi := k / o.g
    if o.sm = 2 then
      ⟨plain, if byte gi = 255 then .nan else .fin false 1 ((byte gi : Int) - 127)⟩
    else
      let z := if w = 8 then byte (2 * o.ng + gi) else byte (2 * o.ng + gi / 2) / 2 ^ (4 * (gi % 2)) % 16
      ⟨Fv.ofInt ((q : Int) - z), decodeF f16 (byte (2 * gi) + 256 * byte (2 * gi + 1))⟩

/-! ## Sums (R67, R69) -/

/-- A product of R69: NaN factor, zero times infinity, infinity, or an exact number. -/
inductive Prod' where
  | nan
  | invalid
  | inf (neg : Bool)
  | num (neg : Bool) (m : Nat) (e : Int)
  deriving DecidableEq, Repr

/-- The product of two elements with their scales. -/
def prodOf (a b : MVal) : Prod' :=
  let fs := [a.v, a.sc, b.v, b.sc]
  let neg := (a.v.sgn != a.sc.sgn) != (b.v.sgn != b.sc.sgn)
  if fs.any Fv.isNan then .nan
  else if fs.any Fv.isInf then (if fs.any Fv.isZero then .invalid else .inf neg)
  else match (((a.v.mul a.sc).1.mul b.v).1.mul b.sc).1 with
    | .fin _ m e => .num neg m e
    | _ => .nan

/-- A product of the value zero. -/
def Prod'.zero : Prod' → Bool
  | .num _ m _ => m == 0
  | _ => false

/-- The exact sum of the finite products. -/
def sumNums (ps : List Prod') : Fv :=
  ps.foldl (fun acc p => match p with
    | .num neg m e => (acc.add (.fin neg m e)).1
    | _ => acc) (.fin false 0 0)

/-- The value of a dot group and its invalid flag (R69, cases 1 to 4); none when all products are zero (R67). -/
def groupVal (ps : List Prod') : Option (Fv × Bool) :=
  if ps.all Prod'.zero then none
  else if ps.contains .nan then some (.nan, false)
  else if ps.contains .invalid || (ps.contains (.inf false) && ps.contains (.inf true)) then some (.nan, true)
  else if ps.contains (.inf false) then some (.inf false, false)
  else if ps.contains (.inf true) then some (.inf true, false)
  else some (sumNums ps, false)

/-- `accumulate` into FP32 (R67; R69 cases 5 to 8). -/
def accF (sat : Bool) (acc : Nat) (g : Fv × Bool) : Nat × Fl :=
  let (v, bad) := (decodeF f32 acc).add g.1
  match v with
  | .fin .. => let (r, f) := narrow f32 .rne sat v; (r, ⟨g.2, f.ov⟩)
  | .inf n => (f32.infBits n, ⟨g.2, false⟩)
  | .nan => (f32.qnan, ⟨g.2 || bad, false⟩)

/-- `accumulate` into INT32 (R67, R69). -/
def accI (sat : Bool) (acc : Nat) (x : Int) : Nat × Fl :=
  let v := bitsInt 32 true acc + x
  if sat then let (r, o) := clampInt (intLo 32 true) (intHi 32 true) v; (intBits 32 r, ⟨false, o⟩)
  else (intBits 32 v, {})

/-- An exact number that is an integer. -/
def intOfFv : Fv → Int
  | .fin s m e => let v : Int := (m * 2 ^ e.toNat : Nat); if s then -v else v
  | _ => 0

/-- The dot groups of one element, in ascending k (R67): `ks` are the starts of the groups. -/
def accGroups (at_ sat : Bool) (d kl : Nat) (p : Nat → Prod') : List Nat → Nat → Fl → Nat × Fl
  | [], acc, fl => (acc, fl)
  | k :: ks, acc, fl =>
    match groupVal ((List.range (min d (kl - k))).map (fun j => p (k + j))) with
    | none => accGroups at_ sat d kl p ks acc fl
    | some g =>
      let (r, f) := if at_ then accI sat acc (intOfFv g.1) else accF sat acc g
      accGroups at_ sat d kl p ks r (fl.or f)

/-- Starts of the dot groups. -/
def groupStarts (d kl : Nat) : List Nat := (List.range (cdiv kl d)).map (· * d)

/-! ## MMA and MMAS -/

/-- What an MMA computes with, once its checks have passed. -/
structure MJob where
  a : MOperand
  b : MOperand
  mr : Nat
  nr : Nat
  kl : Nat
  d : Nat
  l : Nat
  at_ : Bool
  sat : Bool
  deriving DecidableEq, Repr

/-- Check 3 of R218 on one operand. -/
def Core.recordOk (c : Core) (n : BitVec 4) (f : BitVec 4) : Bool :=
  let r := c.shapeOf n.toNat
  r.val && r.rows != 0 && decide (r.klen.toNat ≤ kClass f) && (r.fmt == f || (r.fmt.toNat < 2 && f.toNat < 2))

/-- Check 5 of R218 on one operand (R214). -/
def Core.scaleOk (c : Core) (o : MOperand) (oa ob : BitVec 4) : Bool :=
  let r := c.shapeOf o.ss.toNat
  r.val && r.fmt == 15 && decide ((c.shapeOf o.slot.toNat).rows.toNat ≤ r.rows.toNat) && decide (o.need ≤ r.klen.toNat) &&
  o.ss != oa && o.ss != ob

/-- Check 6 of R218 on the slot of a record. -/
def Core.poisonedRows (c : Core) (n : BitVec 4) : Bool :=
  let r := c.shapeOf n.toNat
  c.slotAnyBad n.toNat (r.rows.toNat * rowBytes r.fmt r.klen.toNat)

/-- Checks 2 to 6 of R218 in their order, and the work that remains (R219). A grant of 0 in any place, the depth too, changes no element, as
R237 says; the lines of R219 would zero the elements under `mma.z` (DEDUCED, log entry 76). -/
def State.mmaChecks (s : State) (t : BitVec 2) (oa ob : BitVec 4) (z : Bool) (fw : Nat) : Chk MJob := do
  let c := s.core
  let af : BitVec 4 := BitVec.ofNat 4 fw
  let bf : BitVec 4 := BitVec.ofNat 4 (fw / 16)
  let sm := nb fw 13 2
  let g := if sm = 1 then 32 * 2 ^ nb fw 15 2 else 32
  let ra := c.shapeOf oa.toNat
  let rb := c.shapeOf ob.toNat
  let a : MOperand := ⟨oa, af, ra.klen.toNat, sm, g, BitVec.ofNat 4 (fw / 2 ^ 17)⟩
  let b : MOperand := ⟨ob, bf, rb.klen.toNat, sm, g, BitVec.ofNat 4 (fw / 2 ^ 21)⟩
  if !mmaFmtOk fw then fmtInvalid fw
  else if !c.recordOk oa af then raise .shapeMismatch oa.toNat
  else if !c.recordOk ob bf then raise .shapeMismatch ob.toNat
  else if ra.klen ≠ rb.klen then raise .innerDimension
  else if sm ≠ 0 && !c.scaleOk a oa ob then raise .shapeMismatch a.ss.toNat
  else if sm ≠ 0 && !c.scaleOk b oa ob then raise .shapeMismatch b.ss.toNat
  else if c.poisonedRows oa || c.poisonedRows ob || (sm ≠ 0 && (c.poisonedRows a.ss || c.poisonedRows b.ss)) ||
      (!z && (List.range 64).any (fun r => (s.mRow t r s.cyc).p != 0)) then raise .poisonConsumed
  else
    let (mr, nr, kl) := match c.pc.grant with
      | some (m, n, k) => (if k = 0 then 0 else min ra.rows.toNat m, min rb.rows.toNat n, min ra.klen.toNat k)
      | none => (ra.rows.toNat, rb.rows.toNat, ra.klen.toNat)
    .ok ⟨a, b, mr, nr, kl, dotGroup af bf, max (mmaCycles af) (mmaCycles bf), nb fw 12 1 == 1, nb fw 28 1 == 1⟩

/-- Element (i, j) after the MMA, and its flags. -/
def MJob.elem (o : MJob) (c : Core) (old : Nat) (i j : Nat) : Nat × Fl :=
  accGroups o.at_ o.sat o.d o.kl (fun k => prodOf (c.operand o.a i k) (c.operand o.b j k)) (groupStarts o.d o.kl) old {}

/-- Row `i` of the tile after the MMA: elements beyond `nr` are kept (R219). -/
def MJob.row (o : MJob) (s : State) (t : BitVec 2) (z : Bool) (i : Nat) : Row × Fl :=
  let x := s.core.row (t.toNat * 64 + i)
  let old := s.mRow t i s.cyc
  let r (j : Nat) : Nat × Fl := o.elem s.core (if z then 0 else lane 32 old.bits j) i j
  let v := mergeRow 32 64 ⟨x.bits, x.p⟩ (fun j => decide (j < o.nr)) (fun j => (r j).1) (fun _ => false)
  (⟨v.bits, v.p, x.rdy⟩, flagsOf 64 (fun j => decide (j < o.nr)) (fun j => (r j).2))

/-- Update the tile, hold array and tile; the flags wait for the end of the MMA (R219, R220). -/
def State.mmaRun (s : State) (t : BitVec 2) (z : Bool) (o : MJob) : State :=
  let rows := (List.range o.mr).map (fun i => (i, o.row s t z i))
  let s1 := s.setCore (rows.foldl (fun c e => c.setRow (t.toNat * 64 + e.1) e.2.1) s.core)
  let fl := rows.foldl (fun f e => f.or e.2.2) {}
  let s2 := s1.holdTile t o.l (o.l + 2)
  let h := s2.core.holdOf t.toNat
  s2.setCore { s2.core with array := s2.cyc + o.l, hold := Map.set holdNone s2.core.hold t.toNat { h with fl := h.fl ||| flM fl } }

/-- An MMA's flags are set when it completes, no later than the cycle its result is seen by M (R219, R220). -/
def State.mmaFlags (s : State) (t : Nat) : State :=
  let h := s.core.holdOf t
  if h.fl = 0 || s.cyc < h.mFrom then s
  else
    let s := s.orFpst h.fl
    s.setCore { s.core with hold := Map.set holdNone s.core.hold t { h with fl := 0 } }

/-- MMA_COMPLETE (R220): the flags are set, and a hold that has passed is forgotten. -/
def execMmaComplete (t : BitVec 2) (s : State) : Host.Outcome State Fault Refusal :=
  let s := s.mmaFlags t.toNat
  let h := s.core.holdOf t.toNat
  .next (if h.vFrom ≤ s.cyc && h.mFrom ≤ s.cyc && h.epi ≤ s.cyc then
      s.setCore { s.core with hold := Map.set holdNone s.core.hold t.toNat holdNone } else s)

def execMma (t : BitVec 2) (a b : BitVec 4) (i j : BitVec 3) (z : Bool) (s : State) :
    Host.Outcome State Fault Refusal :=
  wordM s i j (do
    let oa ← s.effSlot a i
    let ob ← s.effSlot b j
    if s.cyc < s.core.array || s.heldM t || s.heldE t then .error .wait
    else
      let es ← s.peekFmt 1
      let fw := (es.map (fun e => e.v.v.toNat % 2 ^ 32)).headD 0
      let o ← s.mmaChecks t oa ob z fw
      .ok ((s.popN 8 1).mmaRun t z o))

/-- The stamp's cycle: the value congruent to σ in [p - 2^31, p + 2^31) (R222). -/
def stampOf (sigma p : Nat) : Int :=
  let lo : Int := (p : Int) - 2 ^ 31
  lo + ((sigma : Int) - lo) % (2 ^ 32 : Int)

/-- A copy word of ML whose destination is slot `n`. -/
def Op.into (o : Op) (n : BitVec 4) : Bool :=
  let d := o.args.headD ⟨0, .plain⟩
  decide (o.word.toNat / 4096 = 5) && d.attr == .slot && d.v.truncate 4 == n

/-- A copy, XPOSE or EPI into a slot has started and is not yet seen (R223): a promise copy that waits in its queue counts as started, and
so does the copy at the head of the queue whose start cycle this is (06 R198). -/
def State.pendingInto (s : State) (n : BitVec 4) : Bool :=
  let c := s.core
  let q := Map.get [] c.engq 0
  let prev := Map.get (0, 0) c.lastCopy 0
  let starts (o : Op) : Bool := decide (o.c ≤ s.cyc) && decide (prev.1 + prev.2 ≤ s.cyc)
  c.land.any (fun l => l.slot == n) ||
  c.copies.any (fun x => x.geo.dst == some (.slot n) && (decide (x.seen < x.n) || !x.incl)) ||
  q.any (fun o => o.promises && o.into n) ||
  ((q.find? (fun o => decide (o.word.toNat / 4096 = 5))).any (fun o => o.into n && starts o))

def execMmas (t : BitVec 2) (a b : BitVec 4) (i j : BitVec 3) (z : Bool) (s : State) :
    Host.Outcome State Fault Refusal :=
  wordM s i j (do
    let oa ← s.effSlot a i
    let ob ← s.effSlot b j
    let es ← s.peekFmt 2
    let fw := (es.map (fun e => e.v.v.toNat % 2 ^ 32)).headD 0
    let (sg, p) := ((es.map (fun e => (e.v.v.toNat % 2 ^ 32, e.res))).drop 1).headD (0, 0)
    let st := stampOf sg p
    if (s.cyc : Int) < st then .error .wait
    else if st < s.cyc then raise .scheduleMiss 0 (w64 st)
    else
      let o ← s.mmaChecks t oa ob z fw
      let ss := if o.a.sm = 0 then [] else [o.a.ss, o.b.ss]
      if s.cyc < s.core.array || s.heldM t || s.heldE t || (oa :: ob :: ss).any s.pendingInto then
        raise .scheduleMiss 0 (w64 st)
      else .ok ((s.popN 8 2).mmaRun t z o))

/-! ## Epilogues (R226 to R232) -/

/-- AT = OF = SM = ACT = 0: a move of bits (R227). -/
def EpiJob.move (o : EpiJob) : Bool := o.act == 0 && !o.sm && !o.at_ && o.of_ == 0

/-- Conversion of the last line of R226. -/
def EpiJob.out (o : EpiJob) (x : Fv) : Nat × Fl :=
  match fmtOf o.of_ with
  | some f => narrow f o.rm o.sat x
  | none =>
    let w := fmtBits o.of_
    let (v, fl) := (if o.sat then toIntClamp else toIntWrap) o.rm (intLo w true) (intHi w true) x
    (intBits w v, fl)

/-- Activation of R226 on an FP32 value. -/
def activate (a : Nat) (x : Fv) : Fv :=
  match a with
  | 1 => if x.isNan then .nan else if (Fv.fin false 0 0).lt x then x else .fin false 0 0
  | 2 => rn32 (sfSigm x).1
  | 3 => rn32 (sfTanh x).1
  | _ => x

/-- Element of column `j` (R226). -/
def EpiJob.elem (o : EpiJob) (j x : Nat) : Nat × Fl :=
  let w := fmtBits o.of_
  if o.move then (x, {})
  else if o.at_ && kindOf o.of_ == .sym && !o.sm && decide (o.act ≤ 1) then
    let v := bitsInt 32 true x
    let v := if o.act = 1 then max v 0 else v
    if o.sat then satTo w true v else (intBits w v, {})
  else
    let x0 : Fv := if o.at_ then rn32 (Fv.ofInt (bitsInt 32 true x)) else decodeF f32 x
    let (x1, f1) : Fv × Fl :=
      if o.sm then
        let (p, bad) := x0.fma (c32 (o.sc.getD j 0)) (c32 (o.bi.getD j 0))
        let (r, f) := rne f32 p
        (c32 r, ⟨bad, f.ov⟩)
      else (x0, {})
    let (y, f2) := o.out (activate o.act x1)
    (y, f1.or f2)

/-- Poison by 32-byte sector of output bytes made from rows of elements: `rb` bytes a row, element poison `pp`. -/
def sectorPois (nr ne w rb : Nat) (pp : Nat → Nat → Bool) : List Bool :=
  (List.range (cdiv (nr * rb) 32)).map (fun k =>
    (List.range 32).any (fun i =>
      let b := 32 * k + i
      let r := b / rb
      let o := b % rb
      decide (r < nr) && (List.range ((8 * o + 7) / w - 8 * o / w + 1)).any (fun e =>
        decide (8 * o / w + e < ne) && pp r (8 * o / w + e))))

/-- Rows and elements per row of an epilogue's output (R228, R237), with the rows of the tile it reads. -/
abbrev EpiShape := Nat × Nat × Nat

/-- Output of EPI. -/
def Piece.epiShape (p : Piece) (tr : Bool) : EpiShape :=
  match p.grant with
  | some (m, n, _) => if tr then (n, m, m) else (m, n, m)
  | none => (64, 64, 64)

/-- Output of EPIR: whole rows, however many the grant leaves (R237). -/
def Piece.epirShape (p : Piece) (tr : Bool) : EpiShape :=
  match p.grant with
  | some (m, n, _) => if tr then (n, 64, if n = 0 then 0 else 64) else (m, 64, m)
  | none => (64, 64, 64)

/-- Checks R212, R213, R226, R227 of an epilogue that reads `reads` tile rows, and what it does. Format Underflow comes first, then Format
Invalid, then Shape Mismatch, then Poison Consumed (log entry 64). -/
def State.epiChecks (s : State) (t : BitVec 2) (reads : Nat) : Chk EpiJob := do
  let c := s.core
  let es ← s.peekFmt 1
  let fw := (es.map (fun e => e.v.v.toNat % 2 ^ 32)).headD 0
  if !epiFmtOk fw then fmtInvalid fw
  else
    let ss := nb fw 17 4
    let r := c.shapeOf ss
    let sm := nb fw 13 2 == 1
    if sm && !(r.val && r.fmt == 15 && r.rows != 0 && decide (512 ≤ r.klen.toNat)) then raise .shapeMismatch ss
    else
      let col (o : Nat) : List Nat := (List.range 64).map (fun j => natLE (c.slotBytes ss (o + 4 * j) 4))
      let o : EpiJob := { act := nb fw 29 3, sat := nb fw 28 1 == 1, rm := rmOf (nb fw 25 3) 0, sm := sm,
                          at_ := nb fw 12 1 == 1, of_ := BitVec.ofNat 4 fw, sc := if sm then col 0 else [],
                          bi := if sm then col 256 else [] }
      if !o.move && (List.range reads).any (fun r => (s.mRow t r (s.cyc + r)).p != 0) then raise .poisonConsumed
      else .ok o

/-- Output of an epilogue that issues now: rows of bytes, their poison by element, flags, undefined tile rows (R221,
R228). -/
def State.epiRows (s : State) (t : BitVec 2) (tr : Bool) (o : EpiJob) (sh : EpiShape) :
    List Bytes × (Nat → Nat → Bool) × Fl × BitVec 64 :=
  let (nr, ne, reads) := sh
  let row (r : Nat) : RowV := s.mRow t r (s.cyc + r)
  let el (r j : Nat) : Nat × Fl := if tr then o.elem r (lane 32 (row j).bits r) else o.elem j (lane 32 (row r).bits j)
  let pp (r j : Nat) : Bool := o.move && (if tr then (row j).p.toNat.testBit r else (row r).p.toNat.testBit j)
  let und := poisOf ((List.range 64).map (fun r =>
    decide (r < reads) && decide (s.cyc + r < (s.core.row (t.toNat * 64 + r)).rdy)))
  let bad (r j : Nat) : Bool := und.toNat.testBit (if tr then j else r)
  let rows := (List.range nr).map (fun r => packElems (fmtBits o.of_) ((List.range ne).map (fun j => (el r j).1)))
  let fl := (List.range nr).foldl (fun acc r => acc.or (flagsOf ne (fun j => !bad r j) (fun j => (el r j).2))) {}
  (rows, pp, fl, und)

/-- Hold epilogue unit and tile until row 63 is read (R210, R228). -/
def State.holdEpi (s : State) (t : BitVec 2) : State :=
  let h := s.core.holdOf t.toNat
  s.setCore { s.core with epiUnit := s.cyc + 64,
                          hold := Map.set holdNone s.core.hold t.toNat ⟨h.vFrom, h.mFrom, s.cyc + 64, h.fl⟩ }

def execEpi (t : BitVec 2) (b : BitVec 4) (j : BitVec 3) (tr ge : Bool) (g : BitVec 6) (s : State) :
    Host.Outcome State Fault Refusal :=
  wordM s 0 j (do
    let ob ← s.effSlot b j
    if s.epiBusy || s.heldM t then .error .wait
    else
      let sh := s.core.pc.epiShape tr
      let (nr, ne, reads) := sh
      let o ← s.epiChecks t reads
      let (rows, pp, fl, und) := s.epiRows t tr o sh
      let w := fmtBits o.of_
      let l : Landing := { epi := true, at_ := s.cyc + 66, start := s.cyc, slot := ob, tile := t, tr := tr, nr := nr, ne := ne,
                           w := w, data := rows.flatten, pois := sectorPois nr ne w (cdiv (ne * w) 8) pp, und := und,
                           shp := ⟨true, o.of_, BitVec.ofNat 7 nr, BitVec.ofNat 10 ne⟩,
                           gauge := if ge then some g else none }
      let s := ((s.popN 8 1).holdEpi t).flagM fl
      .ok (s.setCore { s.core with land := s.core.land ++ [l] }))

/-- Reading of output row `r` of an EPIR as it leaves (R231): tile row `j` at cycle c + j where the row leaves as early as it can, else now. -/
def Epir.readAt (x : Epir) (s : State) (r j : Nat) : Nat := if s.cyc ≤ x.start + (if x.tr then 63 else r) then x.start + j else s.cyc

/-- Output row `r` of an EPIR, read from its tile as it leaves: bytes, poison of their sectors, and the flags of elements whose tile row was
still on its way as the EPIR issued. A tile row that V overwrote first, or that is read early, leaves an undefined output (R221, R228). -/
def State.epirRead (s : State) (x : Epir) (r : Nat) : Bytes × List Bool × Fl :=
  let o := x.job
  let w := fmtBits o.of_
  let rdy (j : Nat) : Nat := (s.core.row (x.tile.toNat * 64 + j)).rdy
  let row (j : Nat) : RowV := s.mRow x.tile j (x.readAt s r j)
  let src (j : Nat) : Nat := if x.tr then j else r
  let bad (j : Nat) : Bool := x.und.toNat.testBit (src j) || decide (x.readAt s r (src j) < rdy (src j))
  let el (j : Nat) : Nat × Fl := if x.tr then o.elem r (lane 32 (row j).bits r) else o.elem j (lane 32 (row r).bits j)
  let val (j : Nat) : Nat := if bad j then (s.free 32 (28672 + 64 * r + j)).toNat % 2 ^ w else (el j).1
  let bs := if !x.tr && bad 0 then (List.range (cdiv (x.ne * w) 8)).map (fun i => s.free 8 (28672 + 256 * r + i))
            else packElems w ((List.range x.ne).map val)
  let pp (_ j : Nat) : Bool := o.move && (if x.tr then (row j).p.toNat.testBit r else (row r).p.toNat.testBit j)
  (bs, sectorPois 1 x.ne w (cdiv (x.ne * w) 8) pp,
    flagsOf x.ne (fun j => !bad j && decide (x.start + src j < rdy (src j))) (fun j => (el j).2))

def routeEmpty : Route := ⟨0, 0, 0, false, false, 0, false, 0, 0, 0, false, none⟩
def Core.routeOf (c : Core) (n : Nat) : Route := Map.get routeEmpty c.route n
def Core.setRoute (c : Core) (n : Nat) (r : Route) : Core := { c with route := Map.set routeEmpty c.route n r }

/-- Address of output row `i` of a route (R231). -/
def Route.rowAddr (r : Route) (i : Nat) : Nat := r.addr.toNat + i * r.pitch.toNat

/-- EPIR (R231). The route is looked at after the checks of the epilogue, validity before bounds (log entry 64). -/
def execEpir (t n : BitVec 2) (tr ge : Bool) (g : BitVec 6) (s : State) : Host.Outcome State Fault Refusal :=
  wordM s 0 0 (do
    if s.epiBusy || s.heldM t then .error .wait
    else
      let sh := s.core.pc.epirShape tr
      let (nr, ne, reads) := sh
      let o ← s.epiChecks t reads
      let r := s.core.routeOf n.toNat
      let len := cdiv (ne * fmtBits o.of_) 8
      if !r.val then raise .routeInvalid n.toNat
      else match (List.range nr).find? (fun i => decide (r.rowAddr i < r.lo) || decide (r.hi < r.rowAddr i + len)) with
        | some i => capFault 4 (BitVec.ofNat 64 (r.rowAddr i))
        | none =>
          let (_, _, fl, _) := s.epiRows t tr o sh
          let st := (s.ctx s.core.pc.ctx).step
          let e : Epir := { id := s.nextId, core := s.k, start := s.cyc, tile := t, tr := tr, nr := nr, ne := ne, job := o, rows := [],
                            und := 0, rt := r, ctx := s.core.pc.ctx, li := s.core.pc.li, pid := s.core.pc.pid,
                            att := st.t, open_ := st.open_, gauge := if ge then some g else none, left := List.range nr,
                            since := s.cyc, acks := [], conflict := false, faulted := false }
          let r' := { r with addr := r.addr + r.adv.signExtend 57, seq := r.seq + 1 }
          let s := (((s.popN 8 1).holdEpi t).flagM fl).fresh
          .ok (s.setCore { (s.core.setRoute n.toNat r') with epir := s.core.epir ++ [e] }))

/-! ## XPOSE, TZERO, TMOV (R233, R234) -/

def execXpose (a b : BitVec 4) (i j : BitVec 3) (s : State) : Host.Outcome State Fault Refusal :=
  wordM s i j (do
    let oa ← s.effSlot a i
    let ob ← s.effSlot b j
    if s.cyc < s.core.permute then .error .wait
    else
      let c := s.core
      let r := c.shapeOf oa.toNat
      let w := fmtBits r.fmt
      let rows := r.rows.toNat
      let kl := r.klen.toNat
      if !(r.val && rows != 0 && decide (kl ≤ 64) && (w == 8 || w == 16 || w == 32)) then raise .shapeMismatch oa.toNat
      else
        let rb := kl * w / 8
        let el (r' k : Nat) : Nat := natLE (c.slotBytes oa.toNat (r' * rb + k * w / 8) (w / 8))
        let data := (List.range kl).flatMap (fun k => packElems w ((List.range rows).map (fun r' => el r' k)))
        let pois := sectorPois kl rows w (rows * w / 8) (fun k r' => c.slotBad oa.toNat (r' * rb + k * w / 8))
        let l : Landing := { epi := false, at_ := s.cyc + 66, start := s.cyc, slot := ob, tile := 0, tr := false, nr := kl,
                             ne := rows, w := w, data := data, pois := pois, und := 0,
                             shp := ⟨true, r.fmt, BitVec.ofNat 7 kl, BitVec.ofNat 10 rows⟩, gauge := none }
        .ok (s.setCore { c with permute := s.cyc + 64, land := c.land ++ [l] }))

/-- Rows of a tile replaced. They are ready at once, also where a write of V to one of them was in flight (log entry 65). -/
def State.fillTile (s : State) (t : BitVec 2) (f : Nat → RowV) : State :=
  s.setCore ((List.range 64).foldl (fun c r => c.setRow (t.toNat * 64 + r) ⟨(f r).bits, (f r).p, 0⟩) s.core)

def execTzero (t : BitVec 2) (s : State) : Host.Outcome State Fault Refusal :=
  plainM s (
    if s.heldM t || s.heldE t then .error .wait
    else .ok ((s.fillTile t (fun _ => ⟨0, 0⟩)).holdTile t 16 18))

def execTmov (t u : BitVec 2) (s : State) : Host.Outcome State Fault Refusal :=
  plainM s (
    if s.heldM t || s.heldE t || s.heldM u || s.heldE u then .error .wait
    else
      let s' := if t = u then s else s.fillTile t (fun r => s.mRow u r s.cyc)
      .ok ((s'.holdTile t 32 34).holdTile u 32 32))

end Sys2Proof.Machine
end

