-- ==== Sys2Proof/Machine/Engine.lean ====
section
/-! DEFINITION. ENG and the engine words as they issue (04 R146, 08 R241 to R270): decoding of an engine word, the stacks,
the checks of launch words, queues, stops and held operations. How operations run stands in Copies.lean and after. -/
namespace Sys2Proof.Machine

/-! ## Engine words (R241, R242, R265) -/

/-- An engine by its selector (08; 01 R30). -/
def engOf (sel : BitVec 3) : Option Eng :=
  match sel.toNat with
  | 0 => some .ml
  | 1 => some .ms
  | 2 => some .ga
  | 3 => some .vc
  | 4 => some .mo
  | 5 => some .dv
  | 6 => some .gl
  | _ => none

def engIdx : Eng → Nat
  | .ml => 0
  | .ms => 1
  | .ga => 2
  | .vc => 3
  | .mo => 4
  | .dv => 5
  | .gl => 6

/-- A decoded engine word. A launch word keeps its encoding and says how many entries it pops. -/
inductive EW where
  | nop | drop | dup | swap | over | slotv
  | slot (n : BitVec 4)
  | lit (v : W64)
  | litx (v : W64)
  | cap (r : BitVec 5)
  | launch (w : BitVec 16) (pops : Nat)
  | stopset (dev : Bool) (n : BitVec 6) (k : Nat)
  | arm (dev : Bool) (n : BitVec 6)
  | stopclr (dev : Bool) (n : BitVec 6)
  deriving DecidableEq, Repr

/-- A word that is defined under a condition. -/
def ewIf (b : Bool) (x : EW) : Option EW := if b then some x else none

/-- Kinds 0x5 to 0xA: launch words, each for its engines, with reserved fields and undefined values refused. -/
def decodeLaunch (e : Eng) (w : BitVec 16) : Option EW :=
  let n := w.toNat
  let op := nb n 8 4
  let g := nb n 7 1
  let x := nb n 6 1
  let fmt := nb n 0 4
  let low := nb n 0 8
  match n / 4096, e with
  | 5, .ml =>
    match op with
    | 0 => ewIf (nb n 0 7 == 0) (.launch w (3 + g))
    | 1 => ewIf (nb n 4 3 == 0 && fmt != 14) (.launch w (5 + g))
    | 2 => ewIf (nb n 4 1 == 0 && decide (fmt < 14)) (.launch w (5 + x + g))
    | _ => none
  | 5, .ms =>
    match op with
    | 0 => ewIf (nb n 0 7 == 0) (.launch w (3 + g))
    | 1 => ewIf (nb n 4 3 == 0 && fmt != 14) (.launch w (5 + g))
    | 3 => ewIf (nb n 4 1 == 0 && decide (fmt < 14)) (.launch w (5 + x + g))
    | _ => none
  | 6, .ga => ewIf (decide (op < 2) && nb n 0 7 == 0) (.launch w (4 + g))
  | 7, .vc =>
    match op with
    | 0 => ewIf (low == 0) (.launch w 1)
    | 1 => ewIf (nb n 0 6 == 0) (.launch w (3 + g))
    | 2 => ewIf (g == 0 && decide (10 ≤ nb n 0 6) && decide (nb n 0 6 ≤ (if x = 1 then 32 else 16))) (.launch w 1)
    | 3 => ewIf (g == 0 && nb n 0 6 == 0) (.launch w 1)
    | 4 => ewIf (g == 0 && nb n 0 6 == 0) (.launch w 1)
    | 5 => ewIf (nb n 2 6 == 0) (.launch w 4)
    | _ => none
  | 8, .mo =>
    match op with
    | 0 => ewIf (low == 0) (.launch w 1)
    | 1 => ewIf (low == 0) (.launch w 3)
    | 2 => ewIf (low == 0) (.launch w 3)
    | _ => none
  | 9, .dv =>
    match op with
    | 0 => ewIf (low == 0) (.launch w 2)
    | 1 => ewIf (low == 0) (.launch w 0)
    | 2 => ewIf (low != 0) (.launch w 0)
    | _ => none
  | 10, .gl =>
    match nb n 10 2 with
    | 0 => ewIf (nb n 5 5 == 0 && nb n 0 5 != 0) (.launch w 0)
    | 1 => ewIf (nb n 8 1 == 1 || decide (low < 64)) (.launch w 0)
    | _ => none
  | _, _ => none

/-- The engine word `w` on engine `e`; none where it is undefined (R242). -/
def decodeEW (e : Eng) (w : BitVec 16) : Option EW :=
  let n := w.toNat
  match n / 4096 with
  | 0 =>
    if n = 0 then some .nop
    else if n = 1 then some .drop
    else if n = 2 then some .dup
    else if n = 3 then some .swap
    else if n = 4 then some .over
    else if n / 16 = 16 then some (.slot (BitVec.ofNat 4 n))
    else if n = 0x200 then some .slotv
    else none
  | 1 => some (.lit (BitVec.ofNat 64 (n % 4096)))
  | 2 => some (.lit (w64 (exts (w.truncate 12))))
  | 3 => some (.litx (BitVec.ofNat 64 (n % 4096)))
  | 4 => ewIf (nb n 5 7 == 0) (.cap (BitVec.ofNat 5 n))
  | 11 =>
    let dev := nb n 9 1 == 1
    let st : BitVec 6 := BitVec.ofNat 6 (n / 8)
    let ok := dev || decide (st.toNat < 16)
    match nb n 10 2 with
    | 0 => ewIf ok (.stopset dev st (nb n 0 3 + 1))
    | 1 => ewIf (ok && nb n 0 3 == 0) (.arm dev st)
    | 2 => ewIf (!dev && (nb n 8 1 == 1 || decide (nb n 0 8 < 64))) (.launch w 1)
    | _ => ewIf (ok && nb n 0 3 == 0) (.stopclr dev st)
  | _ => decodeLaunch e w

/-! ## Stacks (R243 to R246) -/

def Core.stack (c : Core) (e : Eng) : List StkEnt := Map.get [] c.stk (engIdx e)
def Core.setStack (c : Core) (e : Eng) (l : List StkEnt) : Core := { c with stk := Map.set [] c.stk (engIdx e) l }
def Core.engineQueue (c : Core) (e : Eng) : List Op := Map.get [] c.engq (engIdx e)
def Core.setEngineQueue (c : Core) (e : Eng) (l : List Op) : Core := { c with engq := Map.set [] c.engq (engIdx e) l }
def Core.armed (c : Core) (e : Eng) : Option Nat := Map.get none c.arm (engIdx e)
def Core.setArm (c : Core) (e : Eng) (a : Option Nat) : Core := { c with arm := Map.set none c.arm (engIdx e) a }


/-- ENGSP (R247): the depth of each stack, ML lowest. -/
def Core.depths (c : Core) : W64 :=
  BitVec.ofNat 64 (packLanes 4 ((List.range 7).map (fun i => (Map.get [] c.stk i).length)))

/-- The stacks stood at `w` before the ENG of this cycle: a read of ENGSP may answer so for 3 cycles (R247). -/
def State.noteDepths (s : State) (w : W64) : State :=
  s.setCore { s.core with spOld := ((s.cyc, w) :: s.core.spOld).filter (fun e => decide (s.cyc < e.1 + 3)) }

/-- What a CSRR of ENGSP returns: the depths now, or before one of the ENG words of the last 3 cycles. -/
def State.engsp (s : State) : W64 :=
  let h := (s.core.spOld.filter (fun e => decide (s.cyc < e.1 + 3))).map Prod.snd
  (s.core.depths :: h).getD (s.freeIdx 316 % (h.length + 1)) s.core.depths

/-- Entries a word pops and pushes. -/
def EW.effect : EW → Nat × Nat
  | .nop => (0, 0)
  | .drop => (1, 0)
  | .dup => (1, 2)
  | .swap => (2, 2)
  | .over => (2, 3)
  | .slotv => (1, 1)
  | .slot _ => (0, 1)
  | .lit _ => (0, 1)
  | .litx _ => (1, 1)
  | .cap _ => (0, 1)
  | .launch _ p => (p, 0)
  | .stopset _ _ k => (k, 0)
  | .arm _ _ => (0, 0)
  | .stopclr _ _ => (0, 0)

def stackFault {α : Type} (e : Eng) : Chk α := raise .engineStackFault (engIdx e)
def operandFault {α : Type} (e : Eng) (addr : W64 := 0) : Chk α := raise .engineOperandFault (engIdx e) addr

/-- Check 2 of R146 on one word. TADDR is the register's cursor, though nothing is accessed (DESIGN CHOICE, log entry 72). -/
def State.capWord (s : State) (w : EW) : Chk Unit :=
  match w with
  | .cap r => do
    let c ← s.aVal r 1
    if !c.tag then capFault 1 (curOf c)
    else if !c.has pEn then capFault 3 (curOf c)
    else .ok ()
  | _ => .ok ()

/-- Check 3 of R146 over both words: depth of the stack, and a second arm (R269). -/
def depthCheck (e : Eng) : List EW → Nat → Bool → Chk Unit
  | [], _, _ => .ok ()
  | w :: r, n, armed =>
    let (p, q) := w.effect
    if n < p || 8 < n - p + q then stackFault e
    else match w with
      | .arm _ _ => if armed then stackFault e else depthCheck e r n true
      | .launch _ _ => depthCheck e r (n - p + q) false
      | _ => depthCheck e r (n - p + q) armed

/-! ## Operands (R249 to R253) -/

/-- A plain operand. -/
def plainArg (e : Eng) (x : StkEnt) : Chk Nat :=
  match x.attr with
  | .plain => .ok x.v.toNat
  | _ => operandFault e

/-- A capability operand, aligned. -/
def capArg (e : Eng) (x : StkEnt) (align : Nat) : Chk Cap :=
  match x.attr with
  | .cap c => if c.cur % align = 0 then .ok c else operandFault e (curOf c)
  | _ => operandFault e

/-- A gauge operand (R251). -/
def gaugeArg (e : Eng) (x : StkEnt) : Chk Gauge := do
  let v ← plainArg e x
  if v / 512 ≠ 0 || (nb v 8 1 = 0 && 63 < nb v 0 8) then operandFault e
  else .ok ⟨nb v 8 1 == 1, BitVec.ofNat 8 v⟩

/-- Gauge on top of the operands when G = 1 (deepest first). -/
def gaugeTop (e : Eng) (w : BitVec 16) (args : List StkEnt) : Chk (Option Gauge) :=
  if nb w.toNat 7 1 = 0 then .ok none
  else match args.getLast? with
    | none => operandFault e
    | some x => do
      let g ← gaugeArg e x
      .ok (some g)

/-- The banks that [lo, lo + n) of space 1 touches are scratchpads (R115 row 11). -/
def State.banksOk (s : State) (lo n : Nat) : Chk Unit := s.banksCheck (BitVec.ofNat 64 lo) (unitsOf (2 ^ 19) lo n)

/-- Rows 2 to 4 of R115: tag, space, permissions. -/
def capUse (c : Cap) (spaces prm : List Nat) (addr : W64) : Chk Unit :=
  if !c.tag then capFault 1 addr
  else if !spaces.contains c.spc then capFault 2 addr
  else if !prm.all c.has then capFault 3 addr
  else .ok ()

/-- Rows 7, 10 and 11 of R115 over [lo, lo + n): range, `rm` for a space 3 cursor on another peer, bank modes. -/
def State.spaceCheck (s : State) (c : Cap) (lo n : Nat) (addr : W64) : Chk Unit :=
  match c.spc with
  | 0 => if 2 ^ 56 < lo + n then capFault 5 addr else .ok ()
  | 1 => if 24 * 2 ^ 20 < lo + n then capFault 5 addr else s.banksOk lo n
  | 3 =>
    if 2 ^ 57 < lo + n then capFault 5 addr
    else if s.remote c.cur && !c.has pRm then capFault 3 addr
    else .ok ()
  | 4 => if 4096 < lo + n then capFault 5 addr else .ok ()
  | _ => capFault 2 addr

/-- Step 2 of R249: rows 3, 4, 5, 7, 10 and 11 of R115 over a footprint. -/
def State.footprint (s : State) (c : Cap) (spaces prm : List Nat) (lo : Int) (n : Nat) : Chk Unit := do
  let addr := w64 lo
  capUse c spaces prm addr
  if lo < c.bounds.1 || (c.bounds.2 : Int) < lo + n then capFault 4 addr else s.spaceCheck c lo.toNat n addr

/-- The same for an operand whose accesses issue does not know yet: its cursor alone. -/
def State.cursorCheck (s : State) (c : Cap) (spaces prm : List Nat) : Chk Unit := do
  capUse c spaces prm (curOf c)
  s.spaceCheck c c.cur 1 (curOf c)

/-- An endpoint of a copy (R251, R252). -/
def endArg (e : Eng) (x : StkEnt) (spaces : List Nat) (slotOk : Bool) : Chk End :=
  match x.attr with
  | .slot => if slotOk then .ok (.slot (x.v.truncate 4)) else operandFault e
  | .cap c => if spaces.contains c.spc then .ok (.mem c) else operandFault e
  | .plain => operandFault e

/-- Lowest cursor and extent of rows of `n` bytes at a stride. -/
def hullOf (a : Nat) (rows n : Nat) (st : Int) : Int × Nat :=
  let span : Int := ((rows : Int) - 1) * st
  ((a : Int) + min 0 span, span.natAbs + n)

/-- Banks that rows of `n` bytes at a stride touch. -/
def banksOf (a : Nat) (rows n : Nat) (st : Int) : List Nat :=
  (List.range 48).filter (fun b => (List.range (if st = 0 then 1 else rows)).any (fun r =>
    decide ((a : Int) + r * st < ((b + 1) * 2 ^ 19 : Nat)) && decide (((b * 2 ^ 19 : Nat) : Int) < (a : Int) + r * st + n)))

/-- Footprint of an endpoint: bounds and range over all its rows, and in space 1 the modes of the banks in which a row lies. -/
def State.endCheck (s : State) (x : End) (prm : Nat) (rows n : Nat) (st : Int) : Chk Unit :=
  match x with
  | .slot _ => .ok ()
  | .mem c => do
    let (lo, len) := hullOf c.cur rows n st
    if c.spc ≠ 1 then s.footprint c [0, 1, 3] [prm] lo len
    else
      capUse c [0, 1, 3] [prm] (w64 lo)
      if lo < c.bounds.1 || (c.bounds.2 : Int) < lo + len then capFault 4 (w64 lo)
      else if 24 * 2 ^ 20 < lo.toNat + len then capFault 5 (w64 lo)
      else s.banksCheck (w64 lo) (banksOf c.cur rows n st)

/-- Two footprints of rows share a byte (R253). -/
def rowsMeet (a b : Nat) (sa sb : Int) (rows n : Nat) : Bool :=
  (List.range rows).any (fun i => (List.range rows).any (fun j =>
    decide ((((a : Int) + i * sa) - ((b : Int) + j * sb)).natAbs < n)))

/-- KLEN of a slot destination of rows of `n` bytes, if the record allows it (R253). Of raw rows it is their bytes, as far as the field of
ten bits holds them (log entry 62). -/
def slotKlen (fmt : BitVec 4) (rows n : Nat) : Option Nat :=
  let b := fmtBits fmt
  let kl := if fmt = 15 then n else n * 8 / b
  if rows ≤ 64 && n * 8 % b = 0 && 1 ≤ kl && (fmt = 15 || kl ≤ 512) && rows * n ≤ slotSize && kl < 1024 then some kl else none

/-- A slot source holds what the copy reads (R253). -/
def State.slotSource (s : State) (n : BitVec 4) (fmt : BitVec 4) (rows e : Nat) : Bool :=
  let r := s.core.shapeOf n.toNat
  r.val && r.fmt == fmt && decide (rows ≤ r.rows.toNat) && rowBytes r.fmt r.klen.toNat == e

/-- An endpoint lies inside the cluster. -/
def End.local_ : End → Bool
  | .slot _ => true
  | .mem c => c.spc == 1

/-- Geometry of `cpy` and `cp2` from its operands, with the checks of steps 1 and 2 of R249 (R252, R253). -/
def State.copyGeo (s : State) (e : Eng) (w : BitVec 16) (args : List StkEnt) : Chk Geo := do
  let g ← gaugeTop e w args
  let isCp2 := nb w.toNat 8 4 == 1
  let fmt : BitVec 4 := if isCp2 then w.truncate 4 else 15
  let arg (i : Nat) : StkEnt := args.getD i ⟨0, .plain⟩
  let dst ← endArg e (arg 0) (if e = .ml then [1] else [0, 1, 3]) (isCp2 && e == .ml)
  let src ← endArg e (arg 1) (if e = .ml then [0, 1, 3] else [1]) isCp2
  let (rows, n, ss, ds) ← (if isCp2 then do
      let ss ← plainArg e (arg 2)
      let ds ← plainArg e (arg 3)
      let sh ← plainArg e (arg 4)
      .ok (sh / 2 ^ 24, sh % 2 ^ 24, (BitVec.ofNat 64 ss).toInt, (BitVec.ofNat 64 ds).toInt)
    else do
      let n ← plainArg e (arg 2)
      .ok (1, n, 0, 0) : Chk (Nat × Nat × Int × Int))
  if rows = 0 || n = 0 || (!isCp2 && 2 ^ 30 < n) then operandFault e
  else
    let shp ← (match dst with
      | .slot _ =>
        match slotKlen fmt rows n with
        | some kl => .ok (some ⟨true, fmt, BitVec.ofNat 7 rows, BitVec.ofNat 10 kl⟩)
        | none => operandFault e
      | .mem _ => .ok none : Chk (Option Shape))
    let srcOk := match src with
      | .slot i => s.slotSource i fmt rows n
      | .mem _ => true
    let selfMeet := match dst with
      | .mem _ => isCp2 && decide (1 < rows) && decide (ds.natAbs < n)
      | .slot _ => false
    let meet := match dst, src with
      | .mem a, .mem b => isCp2 && a.spc == b.spc && rowsMeet a.cur b.cur ds ss rows n
      | _, _ => false
    if !srcOk || selfMeet || meet then operandFault e
    else
      s.endCheck dst pS rows n ds
      s.endCheck src pL rows n ss
      .ok { dst := some dst, src := some src, rows := rows, e := n, ss := ss, ds := ds, shp := shp, gauge := g, h := none, c := [],
            ne := n, t := false, fmt := fmt }

/-- Geometry of `ldt` and `stt` from its operands (R254). -/
def State.tileGeo (s : State) (e : Eng) (w : BitVec 16) (args : List StkEnt) : Chk Geo := do
  let g ← gaugeTop e w args
  let x := nb w.toNat 6 1
  let fmt : BitVec 4 := w.truncate 4
  let arg (i : Nat) : StkEnt := args.getD i ⟨0, .plain⟩
  let ep ← endArg e (arg 0) [1] true
  let h ← capArg e (arg 1) 1
  let c0 ← plainArg e (arg 2)
  let c1 ← plainArg e (arg 3)
  let c234 ← (if x = 1 then plainArg e (arg 4) else .ok 0 : Chk Nat)
  let sh ← plainArg e (arg (4 + x))
  let i0 := (BitVec.ofNat 64 c0).toInt
  let i1 := (BitVec.ofNat 64 c1).toInt
  let in32 (v : Int) : Bool := decide (-(2 ^ 31) ≤ v) && decide (v < 2 ^ 31)
  let rows := sh / 2 ^ 24
  let ne := sh % 2 ^ 24
  let rb := rowBytes fmt ne
  let co (k : Nat) : Int := bitsInt 21 true (nb c234 (21 * k) 21)
  if !in32 i0 || !in32 i1 || c234 / 2 ^ 63 ≠ 0 || rows = 0 || 64 < rows || ne = 0 || 512 < ne then operandFault e
  else
    let isSlot := match ep with
      | .slot _ => true
      | .mem _ => false
    let srcOk := match ep with
      | .slot i => e == .ml || s.slotSource i fmt rows rb
      | .mem _ => true
    if (isSlot && slotSize < rows * rb) || !srcOk then operandFault e
    else
      s.footprint h [4] [] h.cur 1
      s.endCheck ep (if e = .ml then pS else pL) rows rb rb
      .ok { dst := if e = .ml then some ep else none, src := if e = .ml then none else some ep, rows := rows, e := rb, ss := rb,
            ds := rb, shp := if e = .ml && isSlot then some ⟨true, fmt, BitVec.ofNat 7 rows, BitVec.ofNat 10 ne⟩ else none,
            gauge := g, h := some (BitVec.ofNat 12 h.cur), c := [i0, i1, co 0, co 1, co 2], ne := ne,
            t := nb w.toNat 5 1 == 1, fmt := fmt }

/-- Geometry of a copy word. -/
def State.geoOf (s : State) (e : Eng) (w : BitVec 16) (args : List StkEnt) : Chk Geo :=
  if nb w.toNat 8 4 < 2 then s.copyGeo e w args else s.tileGeo e w args

/-- Operands of a gather or scatter (R259). -/
structure GaGeo where
  ep : End
  tab : Cap
  idx : Cap
  rows : Nat
  e : Nat
  gauge : Option Gauge
  gat : Bool
  deriving DecidableEq, Repr

def State.gaGeo (s : State) (w : BitVec 16) (args : List StkEnt) : Chk GaGeo := do
  let g ← gaugeTop .ga w args
  let gat := nb w.toNat 8 4 == 0
  let arg (i : Nat) : StkEnt := args.getD i ⟨0, .plain⟩
  let ep ← endArg .ga (arg 0) [0, 1] true
  let tab ← capArg .ga (arg 1) 1
  let idx ← capArg .ga (arg 2) 1
  let sh ← plainArg .ga (arg 3)
  let rows := sh / 2 ^ 24
  let n := sh % 2 ^ 24
  let isSlot := match ep with
    | .slot _ => true
    | .mem _ => false
  if rows = 0 || 65536 < rows || n < 4 || 4096 < n || n % 4 ≠ 0 || idx.spc ≠ 1 || !([0, 1, 3].contains tab.spc) ||
      (isSlot && (64 < rows || 512 < n || slotSize < rows * n)) then operandFault .ga
  else
    s.footprint idx [1] [pL] idx.cur (4 * rows)
    s.cursorCheck tab [0, 1, 3] [if gat then pL else pS]
    (match ep with
      | .slot _ => .ok ()
      | .mem c => s.footprint c [0, 1] [if gat then pS else pL] c.cur (rows * n) : Chk Unit)
    .ok ⟨ep, tab, idx, rows, n, g, gat⟩

/-- Size of a Veneer tile: 8,192 bytes for FP32, 4,096 for BF16 (R260). -/
def tileBytes (fp : Bool) : Nat := if fp then 8192 else 4096

/-- The tile operand of `vnfix`, `vncut`, `vndepth`. -/
def State.tileArg (s : State) (w : BitVec 16) (x : StkEnt) (prm : Nat) : Chk Unit := do
  let t := tileBytes (nb w.toNat 6 1 == 1)
  let c ← capArg .vc x t
  s.footprint c [0, 1] [prm] c.cur t

/-- A route from its operands (R262); translation of a space 0 `dst` is made at issue, the rights of its page and `rm` for it as each row
is written (R249). -/
def State.routeArgs (s : State) (ctx : Ctx) (args : List StkEnt) : Chk Route := do
  let arg (i : Nat) : StkEnt := args.getD i ⟨0, .plain⟩
  let c ← capArg .vc (arg 0) 1
  let pitch ← plainArg .vc (arg 1)
  let adv ← plainArg .vc (arg 2)
  let cfg ← plainArg .vc (arg 3)
  let ai := (BitVec.ofNat 64 adv).toInt
  let resv := cfg - cfg % 2 ^ 28 + nb cfg 9 3
  if pitch = 0 || pitch % 32 ≠ 0 || 2 ^ 32 ≤ pitch || ai % 32 ≠ 0 || ai < -(2 ^ 31) || 2 ^ 31 - 32 < ai || resv ≠ 0 then
    operandFault .vc
  else
    s.cursorCheck c [0, 3] [pS]
    let mk (pa lo hi : Nat) (off : Option Int) : Route :=
      ⟨BitVec.ofNat 57 pa, BitVec.ofNat 32 adv, BitVec.ofNat 32 pitch, true, nb cfg 8 1 == 1, BitVec.ofNat 8 cfg, c.has pVw,
        BitVec.ofNat 16 (cfg / 2 ^ 12), lo, hi, c.has pRm, off⟩
    if c.spc = 3 then .ok (mk c.cur c.bounds.1 c.bounds.2 none)
    else match s.page ctx c.cur with
      | none => raise .translationFault 0 (curOf c)
      | some p =>
        if p.transit then .error .wait
        else if !p.walked then .error (.walk c.cur)
        else if c.bounds.1 < p.va || p.va + 2 ^ p.sz < c.bounds.2 then operandFault .vc (curOf c)
        else
          let ph (v : Nat) : Nat := p.pa + (v - p.va)
          .ok (mk (ph c.cur) (ph c.bounds.1) (ph c.bounds.2) (some ((p.va : Int) - p.pa)))

/-- The checks that a launch word makes of its operands (R249 steps 1 and 2, R252 to R264). Of several capability operands that fail step 2
the one looked at first is raised: dst before src of a copy, src before dst of `vnsend`, idx, tab, endpoint of a gather, the handle before
the endpoint of `ldt` and `stt` (DESIGN CHOICE, log entry 80). -/
def State.launchCheck (s : State) (e : Eng) (w : BitVec 16) (args : List StkEnt) : Chk Unit := do
  let op := nb w.toNat 8 4
  let arg (i : Nat) : StkEnt := args.getD i ⟨0, .plain⟩
  let ctx := s.core.pc.ctx
  match w.toNat / 4096 with
  | 5 => do
    let _ ← s.geoOf e w args
    .ok ()
  | 6 => do
    let _ ← s.gaGeo w args
    .ok ()
  | 7 =>
    match op with
    | 0 => do
      let c ← capArg .vc (arg 0) 128
      s.footprint c [0, 1] [pL] c.cur 128
    | 1 => do
      let _ ← gaugeTop e w args
      let t := tileBytes (nb w.toNat 6 1 == 1)
      let n ← plainArg .vc (arg 2)
      let d ← capArg .vc (arg 0) t
      let c ← capArg .vc (arg 1) t
      if n = 0 || 65535 < n then operandFault .vc
      else
        s.footprint c [0, 1] [pL] c.cur (n * t)
        s.footprint d [0, 3] [pS] d.cur (n * t)
    | 2 => s.tileArg w (arg 0) pS
    | 3 => s.tileArg w (arg 0) pS
    | 4 => s.tileArg w (arg 0) pL
    | _ => do
      let _ ← s.routeArgs ctx args
      .ok ()
  | 8 =>
    if bitsOf s.pkg.mo.cfg 4 4 ≠ ctx.toNat then operandFault .mo
    else match op with
      | 0 => do
        let c ← capArg .mo (arg 0) 64
        s.footprint c [0, 1] [pL] c.cur 64
      | 1 => do
        let _ ← plainArg .mo (arg 0)
        let c ← capArg .mo (arg 1) 1
        let n ← plainArg .mo (arg 2)
        if n = 0 || 4096 < n then operandFault .mo else s.footprint c [0, 1] [pL] c.cur (4 * n)
      | _ => do
        let p ← plainArg .mo (arg 0)
        let _ ← plainArg .mo (arg 1)
        let m ← plainArg .mo (arg 2)
        if 4096 ≤ p || nb m 32 4 ≠ 0 || m / 2 ^ 49 ≠ 0 then operandFault .mo else .ok ()
  | 9 =>
    let dv := s.pkg.dv
    if dv.ctx ≠ ctx then operandFault .dv
    else match op with
      | 0 => do
        let c ← capArg .dv (arg 0) 16
        let n ← plainArg .dv (arg 1)
        if n = 0 || 256 < n || dv.st = 2 then operandFault .dv else s.footprint c [0, 1] [pL] c.cur (16 * n)
      | 1 => if dv.st = 2 || dv.st = 0 || dv.st = 4 then operandFault .dv else .ok ()
      | _ => .ok ()
  | 10 =>
    if nb w.toNat 10 2 = 0 then (if s.core.pc.stepIn then .ok () else raise .stepState)
    else if (s.ctx ctx).step.open_ then .ok () else raise .stepState
  | _ => do
    let _ ← plainArg e (arg 0)
    .ok ()

/-! ## Stops (R265 to R270) -/

/-- SUB of Stop Busy: the stop, [6] D. -/
def stopBusy {α : Type} (dev : Bool) (n : BitVec 6) : Chk α := raise .stopBusy (n.toNat + (if dev then 64 else 0))

/-- A stop is held for another context (R270). -/
def Stop.heldBy (x : Stop) (c : Ctx) : Bool :=
  match x.held with
  | some o => o.ctx != c
  | none => false

/-- A term of a predicate from its operand (R266). A cluster gauge is one of the cluster of the core that sets the stop, a device stop
too. -/
def State.termArg (s : State) (e : Eng) (x : StkEnt) : Chk Term := do
  let v ← plainArg e x
  let dev := nb v 9 1 == 1
  if nb v 11 21 ≠ 0 || nb v 8 1 ≠ 0 || (!dev && 63 < nb v 0 8) then operandFault e
  else .ok ⟨BitVec.ofNat 32 (v / 2 ^ 32), nb v 10 1 == 1, s.gKey ⟨dev, BitVec.ofNat 8 v⟩⟩

def State.termArgs (s : State) (e : Eng) : List StkEnt → Chk (List Term)
  | [] => .ok []
  | x :: r => do
    let t ← s.termArg e x
    let l ← s.termArgs e r
    .ok (t :: l)

/-- Evaluate a stop (R313): when it holds an operation and its predicate is true, its firing is decided, and the operation is on its way, to
enter its queue by STOP_FIRE. -/
def State.evalStop (s : State) (key : Nat) : State :=
  let x := s.stop key
  let b := s.pred x.terms
  match x.held with
  | some o =>
    if b && !x.going then s.setStop key { x with true_ := b, going := true, fired := x.fired ++ [(s.cyc, o)] }
    else s.setStop key { x with true_ := b }
  | none => s.setStop key { x with true_ := b }

/-- At the end of the cycle a stop whose firing is decided holds nothing any more (R313). -/
def State.releaseStop (s : State) (key : Nat) : State :=
  let x := s.stop key
  if x.going then s.setStop key { x with held := none, going := false } else s

/-! ## The word -/

/-- An operation as ENG launches it. -/
def State.newOp (s : State) (e : Eng) (w : BitVec 16) (args : List StkEnt) : Op :=
  let st := (s.ctx s.core.pc.ctx).step
  { id := s.nextId, pid := s.core.pc.pid, eid := s.nextId, core := s.k, eng := e, word := w, args := args, c := s.cyc,
    ctx := s.core.pc.ctx, li := s.core.pc.li,
    att := st.t, stepOpen := st.open_, stop := false, fence := 0, qid := s.nextId,
    rt := none, blk := none }

/-- One engine word takes effect. Pops have been checked; attributes and operands are checked here in ENG order. -/
def State.engWord (s : State) (e : Eng) (w : EW) : Chk State :=
  let st := s.core.stack e
  let top := st.headD ⟨0, .plain⟩
  let snd := (st.drop 1).headD ⟨0, .plain⟩
  let put (l : List StkEnt) : Chk State := .ok (s.setCore (s.core.setStack e l))
  match w with
  | .nop => .ok s
  | .drop => put (st.drop 1)
  | .dup => put (top :: st)
  | .swap => put (snd :: top :: st.drop 2)
  | .over => put (snd :: st)
  | .slot n => put (⟨n.zeroExtend 64, .slot⟩ :: st)
  | .lit v => put (⟨v, .plain⟩ :: st)
  | .slotv => do
    let v ← plainArg e top
    if 16 ≤ v then operandFault e else put (⟨top.v, .slot⟩ :: st.drop 1)
  | .litx u => do
    let v ← plainArg e top
    put (⟨BitVec.ofNat 64 (v * 4096) + u, .plain⟩ :: st.drop 1)
  | .cap r => do
    let c ← s.aVal r 1
    put (⟨curOf c, .cap c⟩ :: st)
  | .stopset dev n k => do
    let ts ← s.termArgs e (st.take k).reverse
    let key := s.stopKey dev n.toNat
    let x := s.stop key
    if x.heldBy s.core.pc.ctx then stopBusy dev n
    else
      let s := (s.setCore (s.core.setStack e (st.drop k))).setStop key { x with terms := ts }
      .ok (s.evalStop key)
  | .arm dev n =>
    let key := s.stopKey dev n.toNat
    if (s.stop key).held.isSome then stopBusy dev n else .ok (s.setCore (s.core.setArm e (some key)))
  | .stopclr dev n =>
    let key := s.stopKey dev n.toNat
    let x := s.stop key
    if x.heldBy s.core.pc.ctx then stopBusy dev n else .ok (s.setStop key { x with held := none, going := false })
  | .launch w pops => do
    let args := (st.take pops).reverse
    s.launchCheck e w args
    let s1 := s.setCore (s.core.setStack e (st.drop pops))
    let isDepth := w.toNat / 256 = 0x74
    if isDepth then s1.room 0 else .ok ()
    let o := s1.newOp e w args
    let s2 := (if isDepth then s1.reserveQ 0 o.qid else s1).fresh
    let rt ← (if w.toNat / 256 = 0x75 then (s.routeArgs s.core.pc.ctx args).map some else .ok none : Chk (Option Route))
    match s.core.armed e with
    | none => do
      let s2 := match rt with
        | some r => s2.setCore { s2.core with routePend := s2.core.routePend ++ [(s.cyc + 2, w.toNat % 4, r)] }
        | none => s2
      if 8 ≤ (s2.core.engineQueue e).length then .error .wait
      else .ok (s2.setCore (s2.core.setEngineQueue e (s2.core.engineQueue e ++ [o])))
    | some key =>
      if (s.stop key).held.isSome then
        stopBusy (decide (65536 ≤ key)) (BitVec.ofNat 6 (if 65536 ≤ key then key else key % 16))
      else
        let s3 := s2.setCore (s2.core.setArm e none)
        let s4 := s3.setStop key { s3.stop key with held := some { o with stop := true, rt := rt }, going := false }
        .ok (s4.evalStop key)

/-- Illegal Word for an undefined engine word (09 R513). -/
def State.illegalEW {α : Type} (s : State) (second : Bool) : Chk α :=
  raise .illegalWord 0 (BitVec.ofNat 64 (s.core.ca.iw2.toNat + 2 ^ 32 + (if second then 2 ^ 33 else 0)))

/-- A launch word behind a FENCE.C that has not finished waits for it (04 R131). -/
def State.fenceOpen (s : State) : Bool := s.core.pend.any Acc.isFence

def EW.isLaunch : EW → Bool
  | .launch _ _ => true
  | _ => false

/-- ENG (R146): decode both words, check a registers, the stack, then both take effect. -/
def execEng (sel : BitVec 3) (ew0 ew1 : BitVec 16) (s : State) : Host.Outcome State Fault Refusal :=
  issue .a s (
    match engOf sel with
    | none => s.illegal .a
    | some e =>
      match decodeEW e ew0 with
      | none => s.illegalEW false
      | some w0 =>
        match decodeEW e ew1 with
        | none => s.illegalEW true
        | some w1 => do
          s.capWord w0
          s.capWord w1
          depthCheck e [w0, w1] (s.core.stack e).length (s.core.armed e).isSome
          if (w0.isLaunch || w1.isLaunch) && s.fenceOpen then .error .wait
          else
            let s1 ← s.engWord e w0
            let s2 ← s1.engWord e w1
            .ok ((s2.noteDepths s.core.depths).retire .a 8))

end Sys2Proof.Machine
end

