-- ==== Sys2Proof/Machine/Net.lean ====
section
/-! DEFINITION. Packets of this device (19 R435, R441 to R446, 21 R500): sending, requests with their identifiers, what the
home checks, and the engine's side of an access: where a sector lies (08 R249, R258) and how it is written (14 R365). -/
namespace Sys2Proof.Machine

def State.setFab (s : State) (f : Fab) : State := { s with fab := f }
def State.setPkg (s : State) (p : Pkg) : State := { s with pkg := p }
def State.gctx (s : State) (c : Ctx) : GCtx := Map.get GCtx.reset s.fab.gctx c.toNat
def State.setGctx (s : State) (c : Ctx) (g : GCtx) : State :=
  { s with fab := { s.fab with gctx := Map.set GCtx.reset s.fab.gctx c.toNat g } }

/-! ## Packets -/

/-- Channels of R444. -/
def vcGlu : BitVec 3 := 0
def vcRsp : BitVec 3 := 1
def vcReq : BitVec 3 := 2
def vcVen : BitVec 3 := 3

/-- A peer number names a device (R435). -/
def State.peerExists (s : State) (p : Nat) : Bool :=
  decide (p / 32 < s.fab.groups.toNat) && decide (p % 32 < s.fab.members.toNat)

/-- The peer that stands in for another (21 R500); a spare that was itself replaced later passes on. -/
def State.standIn (s : State) (p : BitVec 12) : BitVec 12 := s.fab.subs.foldl (fun p x => if x.old = p then x.sub else p) p

/-- A packet with everything zero. -/
def pkZero : Packet :=
  ⟨0, 0, 0, 0, 0, 0, false, false, 0, 0, 0, 0, 0, 0, 0, 0, 0, [], 0, []⟩

/-- CRC-32C of a byte string: reflected polynomial 0x82F6_3B78, all ones before and after (16 R390). -/
def crcBit (x : BitVec 32) : Nat → BitVec 32
  | 0 => x
  | n + 1 => crcBit (if x.toNat % 2 = 1 then (x >>> 1) ^^^ 0x82F63B78 else x >>> 1) n

def crc32c (bs : Bytes) : BitVec 32 :=
  ~~~(bs.foldl (fun x (b : Byte) => crcBit (x ^^^ b.zeroExtend 32) 8) (0xFFFFFFFF : BitVec 32))

/-- Bytes 0 to 27 of the header (R446). -/
def pkHeader (p : Packet) : Bytes :=
  bytesLE 2 (p.dst.toNat + p.vc.toNat * 2 ^ 12) ++ bytesLE 2 (p.src.toNat + p.ctx.toNat * 2 ^ 12) ++ bytesLE 4 p.seq.toNat ++
  bytesLE 1 p.op.toNat ++ bytesLE 1 (p.len.toNat + p.vw.toNat * 16 + p.ret.toNat * 32) ++ bytesLE 2 p.att.toNat ++
  bytesLE 1 p.cl.toNat ++ bytesLE 1 p.sub.toNat ++ bytesLE 1 p.pois.toNat ++ [0] ++ bytesLE 8 p.addr.toNat ++
  bytesLE 2 p.gtag.toNat ++ bytesLE 2 p.rid.toNat

/-- LEN and CRC are filled in as a packet leaves. -/
def pkSeal (p : Packet) : Packet :=
  let p := { p with len := BitVec.ofNat 4 p.data.length }
  { p with crc := crc32c (pkHeader p) }

/-- The header passes its check (R445): its CRC, and as many flits as LEN says. -/
def pkOk (p : Packet) : Bool := p.crc == crc32c (pkHeader p) && p.len.toNat == p.data.length

/-- A flow: channel and peer (R445). -/
def flowKey (vc : BitVec 3) (p : BitVec 12) : Nat := vc.toNat * 4096 + p.toNat

/-- A packet leaves: source, substituted destination, sequence number, LEN and CRC are filled in. A context that this device was cut off
in sends nothing (21 R501). -/
def State.send (s : State) (pk : Packet) : State :=
  if (s.gctx pk.ctx).cut then s else
  let d := s.standIn pk.dst
  let k := flowKey pk.vc d
  let q := Map.get 0 s.fab.seqOut k
  s.setFab { s.fab with out := s.fab.out ++ [pkSeal { pk with dst := d, src := s.peer, seq := q }],
                        seqOut := Map.set 0 s.fab.seqOut k (q + 1) }

/-- Bytes as flits of 32 bytes. Fuel is the number of flits. -/
def flitsOf : Nat → Bytes → List (BitVec 256)
  | 0, _ => []
  | n + 1, bs => if bs.isEmpty then [] else BitVec.ofNat 256 (natLE (bs.take 32)) :: flitsOf n (bs.drop 32)

/-- The bytes of a packet's payload. -/
def pkBytes (p : Packet) : Bytes := p.data.flatMap (fun f => bytesLE 32 f.toNat)

/-- Little-endian field of `w` bytes of the payload at offset `o`. -/
def pkField (p : Packet) (o w : Nat) : Nat := natLE (((pkBytes p).drop o).take w)

/-- A payload flit is poisoned. -/
def pkBad (p : Packet) (i : Nat) : Bool := p.pois.toNat.testBit i

/-! ## Requests (R441, R442) -/

/-- An identifier no outstanding request uses. -/
def State.freeRid (s : State) : Nat :=
  let used (n : Nat) : Bool := (Map.get none s.fab.req n).isSome
  ((List.range (s.fab.req.length + 1)).map (fun i => (s.nextId + i) % 65536)).find? (fun n => !used n) |>.getD 0

/-- Send a request packet to the home of its address and remember who asked. -/
def State.request (s : State) (r : Req) (pk : Packet) : State :=
  let rid := s.freeRid
  let s1 := s.setFab { s.fab with req := Map.set none s.fab.req rid (some { r with sent := s.cyc, att := pk.att }) }
  (s1.send { pk with dst := BitVec.ofNat 12 (r.addr / 2 ^ 45), vc := vcReq, ctx := r.ctx, addr := BitVec.ofNat 57 r.addr,
                     ret := r.ret, rid := BitVec.ofNat 16 rid }).fresh

/-- Requests of one asker that are outstanding. -/
def State.asking (s : State) (w : Asker) : Bool :=
  s.fab.req.any (fun e => match e.2 with
    | some r => decide (r.who = w)
    | none => false)

/-- A load packet for `n` bytes (length minus 1 in SUB: the model's layout, log entry 20). -/
def loadPk (n : Nat) (att : BitVec 16) : Packet := { pkZero with op := 1, sub := BitVec.ofNat 8 (n - 1), att := att }

/-- A store packet with its bytes, one poison bit for each flit. -/
def storePk (bs : Bytes) (pois : BitVec 8) (att : BitVec 16) (vw : Bool) : Packet :=
  { pkZero with op := 2, sub := BitVec.ofNat 8 (bs.length - 1), att := att, vw := vw, pois := pois, data := flitsOf 8 bs }

/-! ## Reads of another peer's memory (R441, R442) -/

/-- Names of those who access other peers' memory: an operation of an engine, a command stream, a context (a restore, a log), a core that
fetches, a collective that writes, the Dovetail, an Ethernet ring that reads or writes, the Mortise that reads its bitmaps or writes, the Plane. -/
def whoOp (o : Op) : Nat := 8 * o.id
def whoStream (n : Nat) : Nat := 8 * n + 1
def whoCtx (c : Ctx) : Nat := 8 * c.toNat + 2
def whoCore (k : Nat) (c : Cl) : Nat := 8 * (4 * k + clCode c) + 3
def whoColl (id : Nat) : Nat := 8 * id + 4
def whoDove : Nat := 5
def whoRing (n : Nat) : Nat := 8 * n + 6
def whoRingW (n : Nat) : Nat := 8 * (128 + n) + 6
def whoMo : Nat := 7
def whoMoW : Nat := 15
def whoPlane : Nat := 23

/-- The sector of another peer that holds `pa`, for reader `who`: it has come, it could not be read, or it has to be asked for. A home that is
no device is reported at once (R442). -/
def State.farSector (s : State) (who pa : Nat) : Chk Got :=
  if !s.peerExists (pa / 2 ^ 45) then raise .accessFault 0 (BitVec.ofNat 64 pa)
  else match s.fab.got.find? (fun g => g.who == who && g.sec == pa / 32) with
    | none => .error (.ask who pa)
    | some g => match g.fault with
      | some t => .error (.trap { t with addr := BitVec.ofNat 64 pa })
      | none => .ok g

/-- Bytes [pa, pa + n) of one sector of another peer, with its poison. -/
def State.farBytes (s : State) (who pa n : Nat) : Chk (Bytes × Bool) :=
  (s.farSector who pa).map (fun g => ((g.bs.drop (pa % 32)).take n, g.bad))

/-- Ask the home for a sector, once. -/
def State.askFar (s : State) (who pa : Nat) (c : Ctx) (li k : Nat) : State :=
  if s.asking (.sector who (pa / 32)) then s
  else s.request ⟨.sector who (pa / 32), pa - pa % 32, 32, c, li, k, true, 0, 0⟩ (loadPk 32 (s.ctx c).step.t)

/-- A sector has come for a reader, or its failure. -/
def State.gotSector (s : State) (g : Got) : State := s.setFab { s.fab with got := s.fab.got ++ [g] }

/-- A write of a reader's own passes over the sector that it has got: its later reads find it there. -/
def State.patchGot (s : State) (who pa : Nat) (bs : Bytes) : State :=
  s.setFab { s.fab with got := s.fab.got.map (fun g => if g.who == who && g.sec == pa / 32 then
    { g with bs := g.bs.take (pa % 32) ++ bs ++ g.bs.drop (pa % 32 + bs.length) } else g) }

/-- A home has refused a write of `who`, or has not answered it. -/
def State.farRefused (s : State) (who : Nat) : Bool := s.fab.got.any (fun g => g.who == who && g.fault.isSome)

/-- Requests of `who` for sectors of other peers that their homes have not answered. -/
def State.farOpen (s : State) (who : Nat) : Bool :=
  s.fab.req.any (fun e => match e.2 with
    | some r => (match r.who with
      | .sector w _ => w == who
      | _ => false)
    | none => false)

/-- A reader has what it asked for: what has come for it is used up. -/
def State.dropGot (s : State) (who : Nat) : State := s.setFab { s.fab with got := s.fab.got.filter (fun g => g.who != who) }

/-! ## Multicast (R447, R448) -/

/-- Flits in the replication buffer. -/
def State.mcHeld (s : State) : Nat := s.fab.mcBuf.foldl (fun n e => n + e.flits) 0

/-- The branch, one outgoing link, by which a copy leaves. -/
def State.mcBranch (s : State) (p : Packet) : Nat :=
  if p.dst.toNat / 32 = s.peer.toNat / 32 then p.dst.toNat % 32 else 32 + p.dst.toNat / 32

/-- Copies of a flit group enter the replication buffer; none where it has no room. -/
def State.replicate (s : State) (l : List Packet) : Option State :=
  match l with
  | [] => some s
  | p :: _ =>
    let n := 1 + p.data.length
    if 8192 < s.mcHeld + n then none else some (s.setFab { s.fab with mcBuf := s.fab.mcBuf ++ [⟨n, l⟩] })

/-- A new multicast waits on a full buffer in this cycle. -/
def State.mcWaits (s : State) : State := s.setFab { s.fab with mcWait := true }

/-- Multicast a packet to some destinations: one copy to each of the own group, and one to each other group, which member ms of that group
passes on. None where the buffer is full. -/
def State.multicast (s : State) (dests : List (BitVec 12)) (pk : Packet) : Option State :=
  if (s.gctx pk.ctx).cut then some s
  else
    let ds := (dests.map s.standIn).eraseDups
    let place (d : BitVec 12) : BitVec 32 := Map.get 0 s.fab.seqOut (flowKey pk.vc d)
    let copy (d : BitVec 12) (l : List (BitVec 12 × BitVec 32)) : Packet := pkSeal { pk with dst := d, src := s.peer, seq := place d, mc := l }
    let grp (d : BitVec 12) : Nat := d.toNat / 32
    let near := ds.filter (fun d => grp d == s.peer.toNat / 32)
    let far := (ds.filter (fun d => grp d != s.peer.toNat / 32))
    let gs := (far.map grp).eraseDups
    let relay (g : Nat) : BitVec 12 := BitVec.ofNat 12 (32 * g + s.peer.toNat % 32)
    let copies := near.map (fun d => copy d []) ++
      gs.map (fun g => copy (relay g) ((far.filter (fun d => grp d == g)).map (fun d => (d, place d))))
    let used := (ds ++ gs.map relay).eraseDups
    (s.replicate copies).map (fun s =>
      s.setFab { s.fab with seqOut := used.foldl (fun m d => Map.set 0 m (flowKey pk.vc d) (place d + 1)) s.fab.seqOut })

/-- Copies that the receiver of a multicast copy passes on. -/
def State.mcOnward (s : State) (p : Packet) : List Packet :=
  (p.mc.filter (fun e => e.1 != s.peer)).map (fun e => pkSeal { p with dst := e.1, seq := e.2, mc := [] })

/-- As the cycle passes: each branch takes what it has a credit for, in order (a free choice: credits are timing, log entry 36), and a cycle in
which a new multicast waited is counted (R448). -/
def State.mcDue (s : State) : State :=
  let take (q : List McEnt × List Packet × List Nat) (e : McEnt) : List McEnt × List Packet × List Nat :=
    let go (p : Packet) : Bool := !q.2.2.contains (s.mcBranch p) && s.choice (2 ^ 22 + 2 ^ 21 + s.mcBranch p)
    let stay := e.left.filter (fun p => !go p)
    (if stay.isEmpty then q.1 else q.1 ++ [{ e with left := stay }], q.2.1 ++ e.left.filter go, q.2.2 ++ stay.map s.mcBranch)
  let (buf, out, _) := s.fab.mcBuf.foldl take ([], [], [])
  s.setFab { s.fab with mcBuf := buf, out := s.fab.out ++ out, mcStl := if s.fab.mcWait then s.fab.mcStl + 1 else s.fab.mcStl, mcWait := false }

/-! ## Home checks (R441) -/

/-- A page of the context maps the frame of this local address. -/
def State.owns (s : State) (c : Ctx) (a : Nat) : Bool :=
  let pa := s.peer.toNat * 2 ^ 45 + a
  (s.ctx c).pages.any (fun p => decide (p.pa ≤ pa) && decide (pa < p.pa + 2 ^ p.sz))

/-- The frame is in service, belongs to the context, and lies in installed memory. -/
def State.homeOk (s : State) (c : Ctx) (a : Nat) : Bool :=
  decide (a / 65536 < s.pkg.inst.toNat) && !(Map.get false s.pkg.retired (a / 65536)) && s.owns c a

/-- Attempt carried against the home's own T (14 R370). -/
inductive Age where
  | same | newer | older
  deriving DecidableEq, Repr

def ageOf (att t : BitVec 16) : Age :=
  if att = t then .same else if (att - t).toNat < 2 ^ 15 then .newer else .older

/-- The stack of a local address (16 R375). -/
def stackOf (a : Nat) : Nat := a / 65536 % 12

/-! ## Engine accesses (08 R249, R258) -/

/-- Who performs an engine access: core, launch, context, the attempt held when it was issued, and the cycle of issue. -/
structure Auth where
  k : Nat
  li : Nat
  ctx : Ctx
  att : BitVec 16
  open_ : Bool
  c : Nat
  deriving DecidableEq, Repr

def Op.auth (o : Op) : Auth := ⟨o.core, o.li, o.ctx, o.att, o.stepOpen, o.c⟩

/-- Where an engine access goes: a memory key of this device, or another peer. -/
inductive Spot where
  | key (k : Nat) (vers : Bool)
  | far (pa : Nat)
  deriving DecidableEq, Repr

/-- The authority of an engine access: space, `rm`, and `vw` or the VER that stands for it. -/
structure Right where
  spc : Nat
  rm : Bool
  vw : Bool
  deriving DecidableEq, Repr

def rightOf (c : Cap) : Right := ⟨c.spc, c.has pRm, c.has pVw⟩

/-- Rights and versions of an engine access to HBM (R258, 16 R382); a home that is no device is reported at once (R442). -/
def State.engHbm (s : State) (r : Right) (a : Auth) (p : Option Page) (pa : Nat) (wr : Bool) (addr : W64) : Chk Spot :=
  let far := s.remote pa
  let vers := match p with
    | some p => p.vers
    | none => s.versPa a.ctx pa
  let bad := match p with
    | some p => (!wr && !p.r) || (wr && !p.w)
    | none => false
  if bad then raise .accessFault 0 addr
  else if wr && vers && !a.open_ then raise .accessFault 0 addr
  else if far && !r.rm then capFault 3 addr
  else if far && !s.peerExists (pa / 2 ^ 45) then raise .accessFault 0 (BitVec.ofNat 64 pa)
  else if wr && vers && !r.vw then capFault 3 addr
  else if far then .ok (.far pa) else .ok (.key (s.homeKey pa) vers)

/-- Where byte `addr` of an endpoint lies, with the checks made as each access is made. Of an operation issued before its bank began to
leave scratchpad mode every access to the bank is refused, also once the bank is back (11 R302). -/
def State.engSpot (s : State) (r : Right) (a : Auth) (addr : Nat) (wr : Bool) : Chk Spot :=
  let ad : W64 := BitVec.ofNat 64 addr
  match r.spc with
  | 0 =>
    match s.page a.ctx addr with
    | none => raise .translationFault 0 ad
    | some p =>
      if p.transit then .error .wait
      else if !p.walked then .error (.walk addr)
      else s.engHbm r a (some p) (p.pa + (addr - p.va)) wr ad
  | 1 =>
    let b := s.bank (cluOf a.k) (addr / 2 ^ 19)
    if b.mode = 1 && b.cur.isNone && b.left ≤ a.c then .ok (.key (sramKey (cluOf a.k) addr) false) else raise .bankModeFault 0 ad
  | _ => s.engHbm r a none addr wr ad

/-- Ask for a page walk in a context (11 R308). -/
def State.walkIn (s : State) (c : Ctx) (va : Nat) : State :=
  if s.walks.contains (c, va) then s else { s with walks := s.walks ++ [(c, va)] }

/-- Write back every dirty copy of the line (04 R138, 19 R450): memory holds the data already; the record of what a lost
sector would lose goes. -/
def State.clean (s : State) (key : Nat) : State :=
  s.setShr { s.shr with dirty := s.shr.dirty.filter (fun e => decide (e.1 / 4 ≠ key / 128)) }

/-! ## Sector writes (14 R359, R365) -/

/-- What a write leaves in one 32-byte sector: a value and a bit mask for each byte, none where it writes nothing. -/
abbrev SecBytes := List (Option (Byte × Byte))

def mergeByte (old : Byte) : Option (Byte × Byte) → Byte
  | none => old
  | some (v, m) => (old &&& ~~~m) ||| (v &&& m)

/-- Every byte of the sector is written whole. -/
def SecBytes.full (b : SecBytes) : Bool := b.length == 32 && b.all (fun x => match x with
  | some (_, m) => m == 0xFF
  | none => false)

def SecBytes.count (b : SecBytes) : Nat := (b.filter Option.isSome).length

/-- Write a sector at a memory key through the versions: a full one at once, else byte by byte (04 R126). -/
def State.putSector (s : State) (key : Nat) (b : SecBytes) (bad : Bool) : State :=
  if b.full then s.vstore key (b.map (mergeByte 0)) bad
  else (b.zip (List.range b.length)).foldl (fun s x =>
    match x.1 with
    | none => s
    | some e => s.vstore (key + x.2) [mergeByte ((s.vload (key + x.2) 1).headD 0) (some e)] bad) s

/-- What became of a sector write: landed, discarded at an in-use bit, discarded as of an older attempt, sent to its
home. -/
inductive Put where
  | landed
  | discarded
  | stale
  | asked
  deriving DecidableEq, Repr

/-- A write of a sector to another peer: values in the first flit, masks in the second, SUB 0xFF (the model's layout, log
entry 20). -/
def sectorPk (b : SecBytes) (bad : Bool) (att : BitVec 16) (vw : Bool) : Packet :=
  let v := b.map (fun x => (x.getD (0, 0)).1)
  let m := b.map (fun x => (x.getD (0, 0)).2)
  { pkZero with op := 2, sub := 0xFF, att := att, vw := vw, pois := if bad then 1 else 0,
                data := [BitVec.ofNat 256 (natLE v), BitVec.ofNat 256 (natLE m)] }

/-- Landing Conflict of an operation is raised once (06 R204). -/
def State.conflictOnce (s : State) (done : Bool) (clu addr : Nat) : State :=
  if done then s else s.conflictBlock (Map.get blockEmpty s.shr.blocks (clu * 6144 + addr / 4096)) addr

/-- Perform an engine write of one sector whose place is known. `base` is the sector's address in its space. An older
attempt is discarded (14 R370); in HBM the line lies in the cluster's cache (11 R303). A discard names the first byte that it discards (06
R204). -/
def State.engPut (s : State) (r : Right) (a : Auth) (who : Asker) (sp : Spot) (base : Nat) (b : SecBytes)
    (bad conflict : Bool) : State × Put :=
  match sp with
  | .far pa => (s.request ⟨who, pa, 32, a.ctx, a.li, a.k, false, 0, 0⟩ (sectorPk b bad a.att r.vw), .asked)
  | .key key vers =>
    if 2 ^ 45 ≤ key then
      let blk := Map.get blockEmpty s.shr.blocks (cluOf a.k * 6144 + base / 4096)
      if blk.use then (s.conflictOnce conflict (cluOf a.k) (base + (b.takeWhile Option.isNone).length), .discarded) else (s.putSector key b bad, .landed)
    else if vers && a.att ≠ (s.ctx a.ctx).step.t then (s, .stale)
    else ((s.dirty (cluOf a.k) a.ctx key 32).putSector key b bad, .landed)

/-- The bytes of a run that fall into the sector at `base`. -/
def sectorOf (base addr : Nat) (bs : Bytes) : SecBytes :=
  (List.range 32).map (fun i => if addr ≤ base + i then (bs[base + i - addr]?).map (fun b => (b, 0xFF)) else none)

/-- Bases of the sectors of a run. -/
def sectorBases (addr n : Nat) : List Nat := (unitsOf 32 addr n).map (32 * ·)

/-- A sector into a slot (06 R204), at a byte offset: whether it was discarded. Under an output seen in the same cycle nothing of it remains
(07 R239). -/
def State.putSlotSector (s : State) (n : BitVec 4) (off : Nat) (b : SecBytes) (bad conflict : Bool) : State × Bool :=
  if s.slotUsed n then (if conflict then s else s.conflictSlot n.toNat off, true)
  else if off < s.overBytes n.toNat then (s, false)
  else
    let c := (b.zip (List.range 32)).foldl (fun (c : Core) x =>
      match x.1 with
      | none => c
      | some e => c.putSlot n.toNat (off + x.2) [mergeByte (c.slotByte n.toNat (off + x.2)) (some e)]) s.core
    let pos := (b.takeWhile Option.isNone).length
    (s.setCore (c.putSlotPois n.toNat (off + pos) b.count [bad]), false)

end Sys2Proof.Machine
end

