-- ==== Sys2Proof/Machine/Perform.lean ====
section
/-! DEFINITION. How an access of A performs (04 R124 to R138, 06 R195, 14 R357 to R370): on this device, forwarded from a
store that has not performed, or at a remote home, whose answer completes it. -/
namespace Sys2Proof.Machine

/-! ## Values -/

/-- A built-in atomic of `w` bits (R135): the new word, none when a CAS fails. -/
def atomNew (w : Nat) (op : BitVec 4) (old x y : Nat) : Option Nat :=
  let o := old % 2 ^ w
  let a := x % 2 ^ w
  let so := bitsInt w true o
  let sa := bitsInt w true a
  match op.toNat with
  | 0 => some ((o + a) % 2 ^ w)
  | 1 => some (if so ≤ sa then o else a)
  | 2 => some (if so ≤ sa then a else o)
  | 3 => some (min o a)
  | 4 => some (max o a)
  | 5 => some a
  | 6 => if o = a then some (y % 2 ^ w) else none
  | 7 => some (o &&& a)
  | 8 => some (o ||| a)
  | _ => some (o ^^^ a)

/-- One element of a line atomic (R137). -/
def lineAdd (f : Fmt) (old x : Nat) : Nat := (rne f (Fv.add (decodeF f old) (decodeF f x)).1).1

/-- A line atomic on 128 bytes: FP32 or BF16 (R137). -/
def lineSum (is32 : Bool) (old x : Bytes) : Bytes :=
  let w := if is32 then 32 else 16
  let f := if is32 then f32 else bf16
  packElems w ((List.range (1024 / w)).map (fun i => lineAdd f (elemAt w old i) (elemAt w x i)))

/-! ## What a load sees -/

/-- `n` bytes of load `y` from offset `off` on as the memory of this device shows them to it, with the poison of their sectors: a byte that a
copy has overwritten since the load issued as it was before (06 R199). -/
def State.seenBytes (s : State) (y : Acc) (off n : Nat) : Bytes × Bool :=
  let k := s.accKey y off
  let bs := ((s.vload k n).zip (List.range n)).map (fun b => match y.was.find? (fun w => w.1 == off + b.2) with
    | some w => (w.2.1, w.2.2.1)
    | none => (b.1, s.vpois (k + b.2)))
  (bs.map Prod.fst, bs.any Prod.snd)

/-- `n` bytes of load `y` from offset `off` on, with the poison of their sectors, if it may take them now: from the memory of this
device, or from stores that have not performed. -/
def State.loadNow (s : State) (y : Acc) (off n : Nat) : Option (Bytes × Bool) :=
  if s.mayPerform y && !s.isFar y then some (s.seenBytes y off n) else s.forwarded y off n

/-- What a store of core memory has written is newer than what a copy found there (06 R195): loads of the core behind it forget the bytes
before the copy. -/
def State.forgetOld (s : State) (a : Acc) (off n : Nat) : State :=
  match a.loc with
  | .sram o =>
    let gone (x : Acc) (w : Nat × Byte × Bool × Bool) : Bool := match x.loc with
      | .sram p => decide (o + off ≤ p + w.1) && decide (p + w.1 < o + off + n)
      | _ => false
    if s.core.pend.all (fun x => x.was.isEmpty) then s
    else s.setCore { s.core with pend := s.core.pend.map (fun x => { x with was := x.was.filter (fun w => !gone x w) }) }
  | _ => s

/-! ## Completion -/

/-- The access has performed. -/
def State.dropAcc (s : State) (id : Nat) : State :=
  (s.setCore { s.core with pend := s.core.pend.filter (fun a => a.id != id) }).settleFences

def State.setAcc (s : State) (a : Acc) : State :=
  s.setCore { s.core with pend := s.core.pend.map (fun x => if x.id == a.id then a else x) }

/-- An LDC has its data: the latency counts from their return, and the next word of A issues in the next cycle (R38). -/
def State.loadedCap (s : State) (d : BitVec 5) (v : Cap) (bad : Bool) : State :=
  let s := s.putAP d v bad 12
  s.setCore { s.core with ca := { s.core.ca with start := max s.core.ca.start (s.cyc + 1) } }

/-- A load delivers its data: `bs` are all its bytes, `bad` the poison of each of its sectors. -/
def State.deliver (s : State) (a : Acc) (bs : Bytes) (bad : List Bool) : State :=
  let p := bad.any id
  match a.op with
  | .load q id sx => s.fillQ q.toNat id ⟨extend a.n sx (natLE bs), p⟩
  | .loadRow id lo =>
    let s := (List.range (a.n / 32)).foldl (fun s j =>
      s.patchRow id (fun r => r.setLanes (8 * (lo + j)) 8 (natLE ((bs.drop (32 * j)).take 32)) (bad.getD j false))) s
    if s.core.gathering id a.id then s else s.sealRow id
  | .loadCap d _ => s.loadedCap d ⟨false, BitVec.ofNat 128 (natLE bs)⟩ p
  | .gathLane id j =>
    let s := s.patchRow id (fun r => r.setLanes j 1 (natLE bs) p)
    if s.core.gathering id a.id then s else s.sealRow id
  | _ => s

/-- The returned value of an atomic or a handler. -/
def State.giveBack (s : State) (ret : Option (BitVec 6 × Nat)) (v : PV) : State :=
  match ret with
  | some (q, id) => s.fillQ q.toNat id v
  | none => s

def AccOp.ret : AccOp → Option (BitVec 6 × Nat)
  | .atom _ r _ _ => r
  | .handler _ r _ => r
  | _ => none

/-- An access fails (R441, R442): its entry is 0 poisoned, the fault is reported. -/
def State.failAcc (s : State) (a : Acc) (t : Trap) : State :=
  let s1 := s.deliver a (List.replicate a.n 0) (List.replicate 8 true)
  let s2 := s1.giveBack a.op.ret ⟨0, true⟩
  (s2.reportOp a.li a.pid t).dropAcc a.id

/-! ## Stores on this device -/

/-- Write bytes of a plain store at an offset of the access; one of an older attempt is discarded (14 R370). -/
def State.storeLocal (s : State) (a : Acc) (off : Nat) (bs : Bytes) (bad : Bool) : State :=
  if a.vers && a.att ≠ (s.ctx a.ctx).step.t then s
  else
    let k := s.accKey a off
    ((s.dirty s.clu a.ctx k bs.length).vstore k bs bad).forgetOld a off bs.length

/-- STC: the granule takes its tag with the data; a poisoned one takes none (R128). -/
def State.storeCapLocal (s : State) (a : Acc) (c : Cap) (bad : Bool) : State :=
  if a.vers && a.att ≠ (s.ctx a.ctx).step.t then s
  else
    let s1 := s.storeLocal a 0 (bytesLE 16 c.bits.toNat) bad
    match a.loc with
    | .scr _ => s1
    | _ => s1.setTag (s1.writeKey (s1.accKey a)).2 (c.tag && !bad)

/-- A built-in atomic at a key: old word, its poison, and the state after (R135). -/
def State.atomAt (s : State) (k w : Nat) (op : BitVec 4) (x y : Nat) : State × Nat × Bool :=
  let old := natLE (s.vload k (w / 8))
  let bad := s.vpois k
  match atomNew w op old x y with
  | none => (s, old, bad)
  | some n => (s.vstore k (bytesLE (w / 8) n) bad, old, bad)

/-! ## Remote accesses -/

/-- Packet of an access (19 R446; the payloads of requests are the model's layout, log entry 20). -/
def Acc.packet (a : Acc) : Packet :=
  let p := match a.op with
    | .load .. => loadPk a.n a.att
    | .loadRow .. => loadPk a.n a.att
    | .loadCap .. => loadPk 16 a.att
    | .gathLane .. => loadPk 4 a.att
    | .store bs p => storePk bs (if p then 1 else 0) a.att a.vw
    | .storeRow _ r => storePk (bytesLE a.n r.bits.toNat)
        (BitVec.ofNat 8 (packLanes 1 ((List.range (a.n / 32)).map (fun j => if nb r.p.toNat (8 * j) 8 = 0 then 0 else 1)))) a.att a.vw
    | .storeCap c p => storePk (bytesLE 16 c.bits.toNat) (if p then 1 else 0) a.att a.vw
    | .scatLane bs p => storePk bs (if p then 1 else 0) a.att a.vw
    | .atom op _ x y =>
      { pkZero with op := 3, sub := BitVec.ofNat 8 (op.toNat + (if a.n = 4 then 32 else 48)), att := a.att, vw := a.vw,
                    data := flitsOf 1 (bytesLE 8 x.toNat ++ bytesLE 8 y.toNat) }
    | .handler n _ args =>
      { pkZero with op := 4, sub := BitVec.ofNat 8 (n.toNat + 32 * args.length), att := a.att, vw := a.vw,
                    data := flitsOf 2 (args.flatMap (fun (v : W64) => bytesLE 8 v.toNat)) }
    | .line is32 bs => { pkZero with op := 5, sub := if is32 then 2 else 1, att := a.att, vw := a.vw, data := flitsOf 4 bs }
    | .fence .. => pkZero
  { p with cl := a.cls, ctx := a.ctx }

/-- The access wants a value back. -/
def Acc.wantsValue (a : Acc) : Bool :=
  match a.op with
  | .load .. | .loadRow .. | .loadCap .. | .gathLane .. => true
  | op => op.ret.isSome

/-- A remote access leaves the device; one whose home is no device fails at once (R442). -/
def State.leave (s : State) (a : Acc) (pa : Nat) : State :=
  if !s.peerExists (pa / 2 ^ 45) then s.failAcc a ⟨.accessFault, 0, BitVec.ofNat 64 pa⟩
  else
    let rid := BitVec.ofNat 16 s.freeRid
    ((s.request ⟨.acc s.k a.id, pa, a.n, a.ctx, a.li, s.k, a.wantsValue, 0, 0⟩ a.packet).setAcc { a with rid := some rid }).settleFences

/-! ## Dowel queues (19 R449) -/

def dowelEmpty : Dowel := ⟨[], 0, 0, 0, 0⟩
def State.dowelOf (s : State) (st : Nat) : Dowel := Map.get dowelEmpty s.fab.dowel st
def State.setDowel (s : State) (st : Nat) (d : Dowel) : State :=
  s.setFab { s.fab with dowel := Map.set dowelEmpty s.fab.dowel st d }

/-- Order of two operations that wait: arrival cycle, local ones first by core, then by source peer (R449). -/
def DowelOp.before (x y : DowelOp) : Bool :=
  if x.at_ ≠ y.at_ then decide (x.at_ < y.at_)
  else match x.loc, y.loc with
    | some a, some b => decide (a.1 ≤ b.1)
    | some _, none => true
    | none, some _ => false
    | none, none => decide (x.pk.src.toNat ≤ y.pk.src.toNat)

/-- An operation arrives at the engine of a stack. -/
def State.toDowel (s : State) (st : Nat) (o : DowelOp) : State :=
  let d := s.dowelOf st
  s.setDowel st { d with q := d.q.takeWhile (fun x => x.before o) ++ o :: d.q.dropWhile (fun x => x.before o) }

/-- The access waits at a Dowel engine of this device. -/
def State.inDowel (s : State) (k id : Nat) : Bool :=
  s.fab.dowel.any (fun e => e.2.q.any (fun o => o.loc == some (k, id)))

/-- Send an atomic of this device's HBM to its engine. -/
def State.dowelLocal (s : State) (a : Acc) (pa : Nat) : State :=
  let args := match a.op with
    | .handler _ _ l => l
    | _ => []
  let k := s.homeKey pa
  s.toDowel (stackOf k)
    ⟨{ a.packet with dst := s.peer, src := s.peer, addr := BitVec.ofNat 57 (s.peer.toNat * 2 ^ 45 + k), ret := a.wantsValue }, args,
      some (s.k, a.id), a.li, s.cyc⟩

/-! ## The event -/

/-- The lines of a load are filled into the cluster cache (11 R303). -/
def State.fillFor (s : State) (a : Acc) : State :=
  match a.loc with
  | .hbm _ => s.fillLines s.clu (s.accKey a) a.n
  | _ => s

/-- Perform a row load: one of its sectors, by free choice (14 R359). -/
def State.performRowLoad (s : State) (a : Acc) (id lo : Nat) : State :=
  let j := a.left.getD (s.freeIdx 64 % a.left.length) 0
  match s.loadNow a (32 * j) 32 with
  | none => s
  | some (bs, bad) =>
    let s := (s.fillFor a).patchRow id (fun r => r.setLanes (8 * (lo + j)) 8 (natLE bs) bad)
    let l := a.left.filter (fun x => x != j)
    if l.isEmpty then (if s.core.gathering id a.id then s else s.sealRow id).dropAcc a.id else s.setAcc { a with left := l }

/-- Perform a row store: one of its sectors. -/
def State.performRowStore (s : State) (a : Acc) (r : RowV) : State :=
  let j := a.left.getD (s.freeIdx 64 % a.left.length) 0
  let s := s.storeLocal a (32 * j) (((bytesLE 256 r.bits.toNat).drop (32 * j)).take 32) (nb r.p.toNat (8 * j) 8 != 0)
  let l := a.left.filter (fun x => x != j)
  if l.isEmpty then s.dropAcc a.id else s.setAcc { a with left := l }

/-- The capability that an LDC finds in the memory of this device: as it was before a copy that overwrote it since the LDC issued (06 R199). -/
def State.capSeen (s : State) (a : Acc) (lc : Bool) : Cap × Bool :=
  if a.was.isEmpty then s.readCap (s.accKey a) lc
  else
    let (bs, bad) := s.seenBytes a 0 16
    let tag := lc && !bad && decide (a.was.length = 16) && a.was.all (fun w => w.2.2.2)
    (⟨tag, BitVec.ofNat 128 (natLE bs)⟩, bad)

/-- Perform an access of the core in focus on this device. -/
def State.performLocal (s : State) (a : Acc) : State :=
  match a.op with
  | .load .. | .gathLane .. =>
    match s.loadNow a 0 a.n with
    | none => s
    | some (bs, bad) => ((s.fillFor a).deliver a bs [bad]).dropAcc a.id
  | .loadRow id lo => s.performRowLoad a id lo
  | .loadCap d lc =>
    if s.mayPerform a then
      let (v, bad) := s.capSeen a lc
      ((s.fillFor a).loadedCap d v bad).dropAcc a.id
    else match s.forwarded a 0 16 with
      | none => s
      | some (bs, bad) =>
        let tag := lc && !bad && s.forwardTag (accBefore s.core.pend a.id) (s.accPos a)
        (s.loadedCap d ⟨tag, BitVec.ofNat 128 (natLE bs)⟩ bad).dropAcc a.id
  | .store bs p => if s.mayPerform a then (s.storeLocal a 0 bs p).dropAcc a.id else s
  | .scatLane bs p => if s.mayPerform a then (s.storeLocal a 0 bs p).dropAcc a.id else s
  | .storeRow _ r => if s.mayPerform a then s.performRowStore a r else s
  | .storeCap c p => if s.mayPerform a then (s.storeCapLocal a c p).dropAcc a.id else s
  | .atom op ret x y =>
    if !s.mayPerform a then s
    else match a.loc with
      | .hbm pa => s.dowelLocal a pa
      | _ =>
        let (s1, old, bad) := s.atomAt (s.accKey a) (8 * a.n) op x.toNat y.toNat
        ((s1.forgetOld a 0 a.n).giveBack ret ⟨BitVec.ofNat 64 old, bad⟩).dropAcc a.id
  | .handler .. | .line .. =>
    match a.loc with
    | .hbm pa => if s.mayPerform a then s.dowelLocal a pa else s
    | _ => s
  | .fence .. => s

/-- An access of another peer's memory: a load that stores not yet performed cover wholly takes their data (06 R195), any other leaves
when its order allows it. -/
def State.performFar (s : State) (a : Acc) (pa : Nat) : State :=
  let parts := if a.isRow then (List.range (a.n / 32)).map (fun j => s.forwarded a (32 * j) 32) else [s.forwarded a 0 a.n]
  if a.reads && a.op.ret.isNone && parts.all Option.isSome then
    let ps := parts.filterMap id
    (s.deliver a (ps.flatMap Prod.fst) (ps.map Prod.snd)).dropAcc a.id
  else if s.mayPerform a then s.leave a pa else s

/-- A bank of the cluster serves cores in ascending index within a cycle (11 R306). -/
def State.inBankTurn (s : State) (off : Nat) (f : State → State) : State :=
  let r := resBank s.clu (off / 2 ^ 19)
  if !s.mayGo r s.k then s
  else
    let s' := f s
    if s'.core.pend = s.core.pend then s' else s'.went r s.k

/-- ACCESS_PERFORMED (R125, R358): access `n` of the core in focus performs, if its order allows it. -/
def execAccessPerformed (n : Nat) (s : State) : Host.Outcome State Fault Refusal :=
  .next (match s.core.pend.find? (fun a => a.id == n) with
    | none => s
    | some a =>
      if a.isFence || a.rid.isSome || s.inDowel s.k a.id then s
      else match a.loc with
        | .hbm pa => if s.remote pa then s.performFar a pa else s.performLocal a
        | .sram o => s.inBankTurn o (fun s => s.performLocal a)
        | _ => s.performLocal a)

/-- The answer to a remote access of core `k` (19 R441): data, or a failure that is reported. -/
def State.accAnswer (s : State) (k id : Nat) (bs : Bytes) (bad : List Bool) (f : Option Trap) : State :=
  s.at k (fun s =>
    match s.core.pend.find? (fun a => a.id == id) with
    | none => s
    | some a =>
      match f with
      | some t => s.failAcc a t
      | none =>
        let s := if a.op.ret.isSome then s.giveBack a.op.ret ⟨BitVec.ofNat 64 (natLE (bs.take 8)), bad.any (fun b => b)⟩
                 else s.deliver a (bs.take a.n) bad
        s.dropAcc a.id)

end Sys2Proof.Machine
end

