-- ==== Sys2Proof/Machine/Copies.lean ====
section
/-! DEFINITION. How copies run (06 R198 to R204, 08 R250 to R258, 09 R281 to R283): start, chunks of in-cluster copies,
sectors of promise copies, gauges, Promise Miss. A copy is cut into units: the aligned 32-byte sectors of its destination (14 R359,
R365). -/
namespace Sys2Proof.Machine

/-! ## Geometry without the checks of issue -/

def Op.isCopy (o : Op) : Bool := decide (o.word.toNat / 4096 = 5)
def Op.isGadd (o : Op) : Bool := decide (o.word.toNat / 4096 = 11)

def StkEnt.int (x : StkEnt) : Int := x.v.toInt

/-- An endpoint from an operand that issue has accepted. -/
def endOf (x : StkEnt) : End :=
  match x.attr with
  | .cap c => .mem c
  | _ => .slot (x.v.truncate 4)

/-- Gauge operand that issue has accepted. -/
def gaugeOf (v : W64) : Gauge := ⟨nb v.toNat 8 1 == 1, BitVec.ofNat 8 v.toNat⟩

/-- Gauge of a word with G = 1: its top operand. -/
def Op.gauge (o : Op) : Option Gauge :=
  if nb o.word.toNat 7 1 = 1 then o.args.getLast?.map (fun x => gaugeOf x.v) else none

/-- Geometry of a launched copy (R252 to R254). -/
def Op.geo (o : Op) : Geo :=
  let w := o.word.toNat
  let arg (i : Nat) : StkEnt := o.args.getD i ⟨0, .plain⟩
  let fmt : BitVec 4 := if nb w 8 4 = 0 then 15 else BitVec.ofNat 4 w
  if nb w 8 4 < 2 then
    let isCp2 := nb w 8 4 == 1
    let sh := (arg 4).v.toNat
    let rows := if isCp2 then sh / 2 ^ 24 else 1
    let n := if isCp2 then sh % 2 ^ 24 else (arg 2).v.toNat
    let dst := endOf (arg 0)
    let shp := match dst with
      | .slot _ => some ⟨true, fmt, BitVec.ofNat 7 rows, BitVec.ofNat 10 ((slotKlen fmt rows n).getD 0)⟩
      | .mem _ => none
    { dst := some dst, src := some (endOf (arg 1)), rows := rows, e := n, ss := if isCp2 then (arg 2).int else 0,
      ds := if isCp2 then (arg 3).int else 0, shp := shp, gauge := o.gauge, h := none, c := [], ne := n, t := false, fmt := fmt }
  else
    let x := nb w 6 1
    let sh := (arg (4 + x)).v.toNat
    let ne := sh % 2 ^ 24
    let rb := rowBytes fmt ne
    let c234 := if x = 1 then (arg 4).v.toNat else 0
    let co (k : Nat) : Int := bitsInt 21 true (nb c234 (21 * k) 21)
    let ep := endOf (arg 0)
    let isSlot := match ep with
      | .slot _ => true
      | .mem _ => false
    let ld := nb w 8 4 == 2
    { dst := if ld then some ep else none, src := if ld then none else some ep, rows := sh / 2 ^ 24, e := rb, ss := rb,
      ds := rb, shp := if ld && isSlot then some ⟨true, fmt, BitVec.ofNat 7 (sh / 2 ^ 24), BitVec.ofNat 10 ne⟩ else none,
      gauge := o.gauge, h := some (BitVec.ofNat 12 (arg 1).v.toNat), c := [(arg 2).int, (arg 3).int, co 0, co 1, co 2], ne := ne,
      t := nb w 5 1 == 1, fmt := fmt }

def Geo.total (g : Geo) : Nat := g.rows * g.e
def Geo.chunks (g : Geo) : Nat := cdiv g.total 256

/-- Both endpoints lie inside the cluster (R198). -/
def Geo.inCluster (g : Geo) : Bool :=
  match g.dst, g.src with
  | some a, some b => a.local_ && b.local_
  | _, _ => false

/-! ## Tensor handles (16 R378, R379) -/

/-- A record of which nothing has been installed: NDIM 5, every extent and stride 1 (R378). -/
def handleReset : BitVec 512 :=
  BitVec.ofNat 512 (5 * 2 ^ 104 + (List.range 5).foldl (fun n i => n + 2 ^ (128 + 32 * i) + 2 ^ (288 + 40 * i)) 0)

/-- The tensor of a record; none where the record itself is refused (R379). -/
def tensorOf (r : BitVec 512) : Option Tensor :=
  let n := r.toNat
  let nd := nb n 104 3
  let resv := nb n 56 8 + nb n 109 19 + nb n 103 1 + nb n 488 24
  if resv ≠ 0 || 14 ≤ nb n 96 4 || nb n 100 2 = 3 || nd = 0 || 5 < nd then none
  else some
    { fmt := BitVec.ofNat 4 (n / 2 ^ 96), rank := nd, dims := (List.range 5).map (fun i => nb n (128 + 32 * i) 32),
      strides := (List.range 5).map (fun i => bitsInt 40 true (nb n (288 + 40 * i) 40)), base := BitVec.ofNat 64 (nb n 0 56),
      win := nb n 102 1 == 1, pad := BitVec.ofNat 32 (nb n 64 32), lay := BitVec.ofNat 2 (n / 2 ^ 100),
      wr := nb n 108 1 == 1, ver := nb n 107 1 == 1 }

/-- Element index at coordinates (R379). -/
def Tensor.index (t : Tensor) (c : List Int) : Int :=
  let cd (d : Nat) : Int := if d < t.rank then c.getD d 0 else 0
  let st (d : Nat) : Int := t.strides.getD d 1
  let tail (k : Nat) : Int := ((List.range t.rank).filter (fun d => decide (k ≤ d))).foldl (fun n d => n + cd d * st d) 0
  match t.lay.toNat with
  | 0 => tail 0
  | 1 => 4096 * (cd 0 / 64 + (cdiv (t.dims.getD 0 1) 64 : Nat) * (cd 1 / 64)) + 64 * (cd 1 % 64) + cd 0 % 64 + tail 2
  | _ => cd 0 % 16 + cd 0 / 16 * st 0 + tail 1

/-- An element is outside the tensor (R379). -/
def Tensor.outside (t : Tensor) (c : List Int) : Bool :=
  (List.range 5).any (fun d =>
    let x := c.getD d 0
    if d < t.rank then decide (x < 0) || decide ((t.dims.getD d 1 : Int) ≤ x) else decide (x ≠ 0)) ||
  (t.lay != 0 && (decide (c.getD 0 0 < 0) || decide (c.getD 1 0 < 0)))

/-- Bit address of an element. -/
def Tensor.bit (t : Tensor) (c : List Int) : Int := 8 * (t.base.toNat : Int) + t.index c * fmtBits t.fmt

/-- Coordinates of tile element (r, e) (R254). -/
def Geo.coord (g : Geo) (r e : Nat) : List Int :=
  let c (k : Nat) : Int := g.c.getD k 0
  if g.t then [c 0 + r, c 1 + e, c 2, c 3, c 4] else [c 0 + e, c 1 + r, c 2, c 3, c 4]

/-- The first element in copy order that lies outside. -/
def Geo.firstOut (g : Geo) (t : Tensor) : Option (List Int) :=
  ((List.range (g.rows * g.ne)).find? (fun i => t.outside (g.coord (i / g.ne) (i % g.ne)))).map
    (fun i => g.coord (i / g.ne) (i % g.ne))

/-- Handle record of a context. -/
def State.handle (s : State) (c : Ctx) (i : BitVec 12) : BitVec 512 := Map.get handleReset s.pkg.handles (c.toNat * 4096 + i.toNat)

/-! ## Where each bit comes from -/

/-- A bit of the destination: a bit of the source (by bit address or slot bit offset), or a constant. -/
inductive BitSrc where
  | src (a : Int)
  | const (b : Bool)
  deriving DecidableEq, Repr

/-- Sources of the eight bits of byte `i` in copy order. -/
def Copy.srcBits (x : Copy) (i : Nat) : List BitSrc :=
  let g := x.geo
  let r := i / g.e
  let b := i % g.e
  match g.src, x.tensor with
  | some (.slot _), _ => (List.range 8).map (fun (t : Nat) => .src (8 * (i : Int) + t))
  | some (.mem c), _ => (List.range 8).map (fun (t : Nat) => .src (8 * ((c.cur : Int) + r * g.ss + b) + t))
  | none, some tn =>
    let w := fmtBits g.fmt
    (List.range 8).map (fun t =>
      let p := 8 * b + t
      if g.ne ≤ p / w then .const false
      else
        let c := g.coord r (p / w)
        if tn.outside c then .const (tn.pad.toNat.testBit (p % w)) else .src (tn.bit c + (p % w : Nat)))
  | none, none => []

/-- Destination bits of an `stt`: (bit address, bit offset in the source tile), in copy order. -/
def Copy.sttBits (x : Copy) : List (Nat × Nat) :=
  let g := x.geo
  let w := fmtBits g.fmt
  match x.tensor with
  | none => []
  | some tn =>
    (List.range (g.rows * g.ne)).flatMap (fun i =>
      let c := g.coord (i / g.ne) (i % g.ne)
      if tn.outside c then []
      else (List.range w).map (fun (t : Nat) => ((tn.bit c + t).toNat, 8 * (i / g.ne * g.e) + i % g.ne * w + t)))

/-- Sectors of an `stt`, each once. -/
def Copy.sttSectors (x : Copy) : List Nat := (x.sttBits.map (fun p => p.1 / 256)).eraseDups

def Copy.isStt (x : Copy) : Bool := x.geo.dst.isNone

/-- Start of destination row `r`: an offset in the slot or an address. -/
def Copy.rowStart (x : Copy) (r : Nat) : Nat :=
  match x.geo.dst with
  | some (.slot _) => r * x.geo.e
  | some (.mem c) => ((c.cur : Int) + r * x.geo.ds).toNat
  | none => 0

/-- Sectors that a row may touch. -/
def Copy.perRow (x : Copy) : Nat := (x.geo.e + 62) / 32

/-- Row `r` writes into destination sector `sec`. -/
def Copy.touches (x : Copy) (sec r : Nat) : Bool :=
  decide (x.rowStart r / 32 ≤ sec) && decide (32 * sec < x.rowStart r + x.geo.e)

/-- The first row that writes into a sector. -/
def Copy.firstRow (x : Copy) (sec : Nat) : Option Nat := (List.range x.geo.rows).find? (x.touches sec)

def Copy.numUnits (x : Copy) : Nat := if x.isStt then x.sttSectors.length else x.geo.rows * x.perRow

/-- The destination sector of a unit. Units are numbered by rows; a sector that several rows share is a unit of the first. -/
def Copy.sector (x : Copy) (u : Nat) : Option Nat :=
  if x.isStt then x.sttSectors[u]?
  else
    let r := u / x.perRow
    let sec := x.rowStart r / 32 + u % x.perRow
    if x.perRow ≠ 0 && decide (r < x.geo.rows) && x.touches sec r && x.firstRow sec == some r then some sec else none

/-- The unit of a sector. -/
def Copy.unitOf (x : Copy) (sec : Nat) : Option Nat :=
  if x.isStt then x.sttSectors.idxOf? sec
  else (x.firstRow sec).map (fun r => r * x.perRow + (sec - x.rowStart r / 32))

/-- Sources of the bits of the destination byte at `d`: of the last row in copy order that holds it (R253). -/
def Copy.destBits (x : Copy) (d : Nat) : List (Nat × BitSrc) :=
  let g := x.geo
  match ((List.range g.rows).filter (fun r => decide (x.rowStart r ≤ d) && decide (d < x.rowStart r + g.e))).getLast? with
  | some r => (List.range 8).zip (x.srcBits (r * g.e + (d - x.rowStart r)))
  | none => []

/-- What a unit writes: the base of its sector and, for each of its 32 bytes, the sources of the bits it writes. -/
def Copy.plan (x : Copy) (u : Nat) : Option (Nat × List (List (Nat × BitSrc))) :=
  (x.sector u).map (fun sec =>
    if x.isStt then
      let bits := x.sttBits.filter (fun p => p.1 / 256 == sec)
      (32 * sec, (List.range 32).map (fun i =>
        (List.range 8).filterMap (fun t =>
          (bits.filter (fun p => p.1 % 256 == 8 * i + t)).getLast?.map (fun p => (t, BitSrc.src (p.2 : Nat))))))
    else (32 * sec, (List.range 32).map (fun i => x.destBits (32 * sec + i))))

/-- Units that hold byte `i` of the copy order. -/
def Copy.unitsOfByte (x : Copy) (i : Nat) : List Nat :=
  if x.isStt then
    let secs := (x.sttBits.filter (fun p => p.2 / 8 == i)).map (fun p => p.1 / 256)
    (x.sttSectors.zip (List.range x.sttSectors.length)).filterMap (fun p => if secs.contains p.1 then some p.2 else none)
  else (x.unitOf ((x.rowStart (i / x.geo.e) + i % x.geo.e) / 32)).toList

/-- The unit writes something. -/
def Copy.real (x : Copy) (u : Nat) : Bool := (x.sector u).isSome

/-- Every unit has performed. -/
def Copy.complete (x : Copy) : Bool := (List.range x.numUnits).all (fun u => !x.real u || x.done.contains u)

/-- Within a line the sectors of one copy perform in ascending order (14 R365). -/
def Copy.inOrder (x : Copy) (u : Nat) : Bool :=
  match x.sector u with
  | none => false
  | some sec => (List.range (sec % 4)).all (fun i => match x.unitOf (sec - sec % 4 + i) with
    | some v => x.done.contains v
    | none => true)

/-! ## Endpoints -/

/-- Authority of the tensor side (R379: VER stands in for `vw`). -/
def Copy.tensorRight (x : Copy) : Right :=
  let rm := match (x.op.args.getD 1 ⟨0, .plain⟩).attr with
    | .cap c => c.has pRm
    | _ => false
  ⟨0, rm, match x.tensor with
    | some t => t.ver
    | none => false⟩

def endRight : End → Right
  | .slot _ => ⟨1, false, false⟩
  | .mem c => rightOf c

def Copy.setIn (x : Copy) (s : State) : State :=
  s.setCore { s.core with copies := s.core.copies.map (fun y => if y.op.id == x.op.id then x else y) }

/-- A fault after issue is reported once for a copy (R258). -/
def State.copyFault (s : State) (x : Copy) (t : Trap) : State × Copy :=
  let t := if t.cause == .engineOperandFault then { t with sub := BitVec.ofNat 16 (engIdx x.op.eng) } else t
  if x.faulted then (s, x) else (s.reportOp x.op.li x.op.pid t, { x with faulted := true })

/-- Authority of the source. -/
def Copy.srcRight (x : Copy) : Right :=
  match x.geo.src with
  | some e => endRight e
  | none => x.tensorRight

/-- Source byte at an address or slot offset, or where another peer holds it. -/
def State.copyByte (s : State) (x : Copy) (a : Nat) : Chk ((Byte × Bool) ⊕ Nat) :=
  match x.geo.src with
  | some (.slot n) => .ok (.inl (s.core.slotByte n.toNat a, s.core.slotBad n.toNat a))
  | _ =>
    match s.engSpot x.srcRight x.op.auth a false with
    | .error e => .error e
    | .ok (.key k _) => .ok (.inl ((s.vload k 1).headD 0, s.vpois k))
    | .ok (.far pa) => .ok (.inr pa)

/-- The 32 bytes of the sector of an endpoint that holds address `a`, or where another peer holds `a`. `slot` is the slot, if it is one. -/
def State.sectorAt (s : State) (slot : Option (BitVec 4)) (r : Right) (au : Auth) (a : Nat) : Chk (List (Nat × Byte × Bool) ⊕ Nat) :=
  let b := a - a % 32
  match slot with
  | some n => .ok (.inl ((List.range 32).map (fun i => (b + i, s.core.slotByte n.toNat (b + i), s.core.slotBad n.toNat b))))
  | none =>
    match s.engSpot r au a false with
    | .error e => .error e
    | .ok (.key k _) =>
      let kb := k - k % 32
      .ok (.inl (((s.vload kb 32).zip (List.range 32)).map (fun p => (b + p.2, p.1, s.vpois kb))))
    | .ok (.far pa) => .ok (.inr pa)

/-- The slot of an endpoint. -/
def End.slot? : End → Option (BitVec 4)
  | .slot n => some n
  | .mem _ => none

/-- The source sector of a copy that holds address `a`. -/
def State.copySector (s : State) (x : Copy) (a : Nat) : Chk (List (Nat × Byte × Bool) ⊕ Nat) :=
  s.sectorAt (x.geo.src.bind End.slot?) x.srcRight x.op.auth a

/-- Read the source sectors of some addresses, each once for the copy (R255): the copy with what it has read, and the sectors that another
peer holds and that have not come, each with a physical address in it. -/
def State.readSources (s : State) (x : Copy) : List Nat → Chk (Copy × List (Nat × Nat))
  | [] => .ok (x, [])
  | a :: r =>
    if x.buf.any (fun e => e.1 == a / 32) then s.readSources x r
    else do
      match ← s.copySector x a with
      | .inl l => s.readSources { x with buf := (a / 32, l) :: x.buf } r
      | .inr pa =>
        let (x, f) ← s.readSources x r
        .ok (x, if f.any (fun e => e.1 == a / 32) then f else (a / 32, pa) :: f)

/-- A source byte that has been read. -/
def Copy.srcByte (x : Copy) (a : Nat) : Option (Nat × Byte × Bool) :=
  (x.buf.find? (fun e => e.1 == a / 32)).bind (fun e => e.2.find? (fun b => b.1 == a))

/-- Byte addresses that a plan reads. -/
def planReads (p : List (List (Nat × BitSrc))) : List Nat :=
  (p.flatten.filterMap (fun e => match e.2 with
    | .src a => some (a / 8).toNat
    | .const _ => none)).eraseDups

/-- One byte of a sector from its bit sources. -/
def planByte (l : List (Nat × Byte × Bool)) (bits : List (Nat × BitSrc)) : Option (Byte × Byte) :=
  if bits.isEmpty then none
  else
    let val (b : BitSrc) : Bool := match b with
      | .const b => b
      | .src a => match l.find? (fun e => e.1 == (a / 8).toNat) with
        | some e => e.2.1.toNat.testBit (a % 8).toNat
        | none => false
    some (bits.foldl (fun (p : Byte × Byte) e =>
      (p.1 ||| BitVec.ofNat 8 ((val e.2).toNat * 2 ^ e.1), p.2 ||| BitVec.ofNat 8 (2 ^ e.1))) (0, 0))

/-- Ask other peers for source sectors of an operation (19 R441), each given with a physical address in it. -/
def State.askSectors (s : State) (o : Op) (far : List (Nat × Nat)) : State :=
  far.foldl (fun s e =>
    s.request ⟨.src s.k o.id e.1, e.2 - e.2 % 32, 32, o.ctx, o.li, s.k, true, 0, 0⟩ (loadPk 32 o.att)) s

/-- Ask other peers for the source sectors of a copy that have not been asked for. -/
def State.askSources (s : State) (x : Copy) (far : List (Nat × Nat)) : State :=
  let new := far.filter (fun e => !x.sent.contains e.1)
  Copy.setIn { x with sent := x.sent ++ new.map Prod.fst } (s.askSectors x.op new)

/-! ## What loads of A that have issued see (R199) -/

/-- A load of A. -/
def AccOp.isLoad : AccOp → Bool
  | .load .. | .loadRow .. | .loadCap .. | .gathLane .. => true
  | _ => false

/-- A load keeps the bytes of SRAM offsets [lo, lo + n) as they are. -/
def Acc.keepOld (s : State) (lo n : Nat) (a : Acc) : Acc :=
  match a.loc with
  | .sram o =>
    if !a.op.isLoad then a
    else
      let new := (List.range a.n).filter (fun i => decide (lo ≤ o + i) && decide (o + i < lo + n) && !a.was.any (fun w => w.1 == i))
      let key (i : Nat) : Nat := sramKey s.clu (o + i)
      { a with was := a.was ++ new.map (fun i => (i, readByte s.mem (key i), s.poisAt (key i), s.tagAt (key i))) }
  | _ => a

/-- Before a copy writes [lo, lo + n) of the SRAM of a cluster, the loads that its cores have issued keep what stands there: a read that
issues before the write is seen returns the data held before (R198, R199). -/
def State.keepOld (s : State) (clu lo n : Nat) : State :=
  (List.range 8).foldl (fun s i =>
    if (s.coreOf (8 * clu + i)).pend.all (fun a => !a.op.isLoad) then s
    else s.at (8 * clu + i) (fun s => s.setCore { s.core with pend := s.core.pend.map (Acc.keepOld s lo n) })) s

/-- A copy writes a sector of memory. -/
def State.copyPut (s : State) (r : Right) (a : Auth) (who : Asker) (sp : Spot) (base : Nat) (b : SecBytes) (bad conflict : Bool) :
    State × Put :=
  let blk := Map.get blockEmpty s.shr.blocks (cluOf a.k * 6144 + base / 4096)
  match sp with
  | .key key _ => (if 2 ^ 45 ≤ key && !blk.use then s.keepOld (cluOf a.k) base 32 else s).engPut r a who sp base b bad conflict
  | .far _ => s.engPut r a who sp base b bad conflict

/-! ## Landing -/

/-- A copy has landed: the cycle counts for a read of LANDW that waits for it (09 R280). -/
def State.landed (s : State) (o : Op) : State :=
  match s.core.pc.waitl with
  | some n => if !o.stop && decide (o.eid < n) then s.setPiece { s.core.pc with lastLand := s.cyc } else s
  | none => s

/-- Gauges of chunks whose last sector has performed (R256), then the end of the copy: the slot record with the last chunk, unless a chunk
was discarded (06 R204) or nothing of the last chunk landed (R258; log entry 16). -/
def State.settleCopy (s : State) (x : Copy) : State :=
  let g := x.geo
  let bytesOf (k : Nat) : List Nat := (List.range (min 256 (g.total - 256 * k))).map (fun j => 256 * k + j)
  let ready := (List.range g.chunks).filter (fun k =>
    !x.chunks.contains k && (bytesOf k).all (fun i => (x.unitsOfByte i).all (fun u => x.done.contains u)))
  let landed (k : Nat) : Nat := ((bytesOf k).filter (fun i =>
    !(x.unitsOfByte i).isEmpty && (x.unitsOfByte i).all (fun u => !x.lost.contains u))).length
  let s := match g.gauge with
    | some ga => ready.foldl (fun s k => s.addGauge ga (landed k)) s
    | none => s
  let x := { x with chunks := x.chunks ++ ready }
  if x.complete then
    let s := (s.setCore { s.core with copies := s.core.copies.filter (fun y => y.op.id != x.op.id) }).landed x.op
    match g.dst, g.shp with
    | some (.slot n), some r => if x.conflict || landed (g.chunks - 1) = 0 then s else s.copyShape n.toNat r
    | _, _ => s
  else x.setIn s

/-- A unit is over: performed, or lost. -/
def State.endUnit (s : State) (x : Copy) (u : Nat) (lost : Bool) : State :=
  s.settleCopy { x with done := u :: x.done, lost := if lost then u :: x.lost else x.lost,
                        acks := x.acks.filter (· != u),
                        stall := match x.stall with
                          | some (v, t) => if v = u then none else some (v, t)
                          | none => none }

/-- A unit waits for a translation (09 R281). -/
def State.stallUnit (s : State) (x : Copy) (u : Nat) (va : Option Nat) : State :=
  let s := match va with
    | some v => s.walkIn x.op.ctx v
    | none => s
  Copy.setIn { x with stall := some (match x.stall with
    | some p => p
    | none => (u, s.cyc)) } s

/-- Why an engine access did not go through. -/
def State.unitStop (s : State) (x : Copy) (u : Nat) (e : Stop') : State :=
  match e with
  | .trap t =>
    let (s, x) := s.copyFault x t
    s.endUnit x u true
  | .walk va => s.stallUnit x u (some va)
  | _ => s.stallUnit x u none

/-- Byte addresses of the whole source, in copy order. -/
def Copy.allReads (x : Copy) : List Nat :=
  (((List.range x.geo.total).flatMap (fun i => x.srcBits i)).filterMap (fun b => match b with
    | .src a => some (a / 8).toNat
    | .const _ => none)).eraseDups

/-- Check the source of a copy into a slot byte by byte in copy order (09 R282): the first byte that no check lets through, and the sectors
before it that another peer holds and that have not come, each with a physical address in it. -/
def State.sourceScan (s : State) (x : Copy) : List Nat → List (Nat × Nat) × Option Stop'
  | [] => ([], none)
  | a :: r =>
    match s.copyByte x a with
    | .error e => ([], some e)
    | .ok (.inl _) => s.sourceScan x r
    | .ok (.inr pa) =>
      if x.buf.any (fun e => e.1 == a / 32) then s.sourceScan x r
      else match x.bad.find? (fun e => e.1 == a / 32) with
        | some e => ([], some (.trap e.2))
        | none =>
          if !s.peerExists (pa / 2 ^ 45) then ([], some (.trap ⟨.accessFault, 0, BitVec.ofNat 64 pa⟩))
          else
            let (far, e) := s.sourceScan x r
            (if far.any (fun e => e.1 == a / 32) then far else (a / 32, pa) :: far, e)

/-- The copy writes nothing more: every unit is lost. -/
def State.loseCopy (s : State) (x : Copy) (t : Trap) : State :=
  let (s, x) := s.copyFault x t
  s.settleCopy { x with done := List.range x.numUnits, lost := List.range x.numUnits, stall := none }

/-- The copy writes into a slot, and its source is still to be checked (09 R282). -/
def Copy.unchecked (x : Copy) : Bool :=
  x.seen == 0 && (match x.geo.dst with
    | some (.slot _) => true
    | _ => false)

/-- Place of the destination byte at `d` in copy order, of the last row that holds it (R253). -/
def Copy.orderOf (x : Copy) (d : Nat) : Nat :=
  if x.isStt then (x.sttBits.zip (List.range x.sttBits.length)).foldl (fun n p => if p.1.1 / 8 = d then p.2 else n) 0
  else match ((List.range x.geo.rows).filter (fun r => decide (x.rowStart r ≤ d) && decide (d < x.rowStart r + x.geo.e))).getLast? with
    | some r => r * x.geo.e + (d - x.rowStart r)
    | none => 0

/-- Authority of the destination. -/
def Copy.dstRight (x : Copy) : Right :=
  match x.geo.dst with
  | some e => endRight e
  | none => x.tensorRight

/-- The units that have performed, or are on their way, in the same sector of memory as unit `u` through another mapping. -/
def State.aliases (s : State) (x : Copy) (u : Nat) (sp : Spot) : List Nat :=
  if x.dstRight.spc ≠ 0 then []
  else (x.done ++ x.acks).filter (fun v => v != u && !x.lost.contains v && (match x.sector v with
    | some sec => (match s.engSpot x.dstRight x.op.auth (32 * sec) true with
      | .ok sp' => decide (sp' = sp)
      | .error _ => false)
    | none => false))

/-- What a unit still writes: a byte that the copy has already written through another mapping of the frame, from a later place in copy
order, stays (R253). -/
def State.notOver (s : State) (x : Copy) (u base : Nat) (sp : Spot) (b : SecBytes) : SecBytes :=
  let later := ((s.aliases x u sp).filterMap (fun v => (x.plan v)))
  (b.zip (List.range 32)).map (fun e =>
    if later.any (fun p => (p.2.getD e.2 []) != [] && decide (x.orderOf (base + e.2) < x.orderOf (p.1 + e.2))) then none else e.1)

/-- Write the sector of a unit whose source bytes are at hand. -/
def State.unitWrite (s : State) (x : Copy) (u base : Nat) (b : SecBytes) (bad : Bool) : State :=
  match x.geo.dst with
  | some (.slot n) =>
    let (s, lost) := s.putSlotSector n base b bad x.conflict
    s.endUnit { x with conflict := x.conflict || lost } u lost
  | _ =>
    match s.engSpot x.dstRight x.op.auth base true with
    | .error e => s.unitStop x u e
    | .ok sp =>
      match s.copyPut x.dstRight x.op.auth (.unit s.k x.op.id u) sp base (s.notOver x u base sp b) bad x.conflict with
      | (s, .landed) => s.endUnit x u false
      | (s, .discarded) => s.endUnit { x with conflict := true } u true
      | (s, .stale) => s.endUnit x u true
      | (s, .asked) => Copy.setIn { x with acks := u :: x.acks } s

/-- Run unit `u` of a promise copy: read its sources, ask for far ones, write its sector. -/
def State.unitRun (s : State) (x : Copy) (u : Nat) : State :=
  match x.plan u with
  | none => s
  | some (base, p) =>
    match s.readSources x (planReads p) with
    | .error e => s.unitStop x u e
    | .ok (x, []) =>
      let l := (planReads p).filterMap x.srcByte
      s.unitWrite x u base (p.map (planByte l)) (l.any (fun e => e.2.2))
    | .ok (x, far) =>
      match far.find? (fun e => !s.peerExists (e.2 / 2 ^ 45)) with
      | some e => s.unitStop x u (.trap ⟨.accessFault, 0, BitVec.ofNat 64 e.2⟩)
      | none => s.askSources x far

/-- Check the whole source of a copy into a slot before anything is written (09 R282): the pages of this device at once, those of other
peers by the answers to what is read there. What lies before the first byte that fails is asked for first, so that the address reported is
that of the first failing byte. -/
def State.checkSource (s : State) (x : Copy) (u : Nat) : State :=
  match s.sourceScan x x.allReads with
  | ([], some (.trap t)) => s.loseCopy x t
  | ([], some (.walk va)) => s.stallUnit x u (some va)
  | ([], some _) => s.stallUnit x u none
  | ([], none) => s.unitRun { x with seen := 1, stall := none } u
  | (far, _) => s.askSources { x with stall := none } far

/-- An earlier copy of the queue is stalled: later ones wait behind it (09 R281). -/
def Core.stalledBefore (c : Core) (x : Copy) : Bool :=
  c.copies.any (fun y => y.op.eng == x.op.eng && decide (y.op.id < x.op.id) && y.stall.isSome)

/-- PROMISE_SECTOR_PERFORM (R200, R255): unit `sec` of promise copy `id` performs. -/
def execPromiseSectorPerform (id : Nat) (sec : Nat) (s : State) : Host.Outcome State Fault Refusal :=
  .next (match s.core.copies.find? (fun x => x.op.id == id) with
    | none => s
    | some x =>
      if s.core.halt == .freeze || x.incl || x.done.contains sec || x.acks.contains sec || !x.inOrder sec ||
          s.core.stalledBefore x then s
      else if x.unchecked then s.checkSource x sec
      else s.unitRun x sec)

/-- The answer to the write of a unit (19 R441). -/
def State.unitAnswer (s : State) (k id u : Nat) (f : Option Trap) : State :=
  s.at k (fun s =>
    match s.core.copies.find? (fun x => x.op.id == id) with
    | none => s
    | some x =>
      match f with
      | some t =>
        let (s, x) := s.copyFault x t
        s.endUnit x u true
      | none => s.endUnit x u false)

/-- The answer to a request for source sector `sec` of a copy: its bytes, or a failure at the first byte of it that the copy reads, by which the
units that need it are lost, or the whole copy where it may not write into its slot any more (09 R282). -/
def State.srcAnswer (s : State) (k id sec : Nat) (bs : Bytes) (bad : Bool) (f : Option Trap) : State :=
  s.at k (fun s =>
    match s.core.copies.find? (fun x => x.op.id == id) with
    | none => s
    | some x =>
      let x := { x with sent := x.sent.filter (· != sec) }
      match f with
      | none => Copy.setIn { x with buf := (sec, (bs.zip (List.range 32)).map (fun e => (32 * sec + e.2, e.1, bad))) :: x.buf } s
      | some t =>
        let t : Trap := { t with addr := t.addr + BitVec.ofNat 64 (((x.allReads.find? (fun a => a / 32 == sec)).getD 0) % 32) }
        if x.unchecked then Copy.setIn { x with bad := (sec, t) :: x.bad } s
        else
          let (s, x) := s.copyFault x t
          let us := (List.range x.numUnits).filter (fun u => !x.done.contains u && (match x.plan u with
            | some (_, p) => (planReads p).any (fun a => a / 32 == sec)
            | none => false))
          s.settleCopy { x with done := us ++ x.done, lost := us ++ x.lost })

/-! ## In-cluster copies (R198, R255) -/

/-- Read chunk `k`: the bytes that can be read, by copy order. -/
def State.readChunk (s : State) (x : Copy) (k : Nat) : State :=
  let is := (List.range (min 256 (x.geo.total - 256 * k))).map (fun j => 256 * k + j)
  let addr (i : Nat) : Nat := match x.srcBits i with
    | .src a :: _ => (a / 8).toNat
    | _ => 0
  let (s, x, l) := is.foldl (fun (q : State × Copy × List (Nat × Byte × Bool)) i =>
    match q.1.copyByte q.2.1 (addr i) with
    | .ok (.inl b) => (q.1, q.2.1, (i, b) :: q.2.2)
    | .ok (.inr _) => q
    | .error (.trap t) => let (s, x) := q.1.copyFault q.2.1 t; (s, x, q.2.2)
    | .error _ => q) (s, x, [])
  Copy.setIn { x with buf := x.buf ++ [(k, l.reverse)] } s

/-- Sectors of destination bytes: base, bytes, poison. -/
def sectorsOf (l : List (Nat × Byte × Bool)) : List (Nat × SecBytes × Bool) :=
  ((l.map (fun e => e.1 / 32)).eraseDups).map (fun sec =>
    (32 * sec, (List.range 32).map (fun i => (l.find? (fun e => e.1 == 32 * sec + i)).map (fun e => (e.2.1, 0xFF))),
      l.any (fun e => e.1 / 32 == sec && e.2.2)))

/-- Chunk `k` becomes seen: its sectors land in ascending order, its gauge adds what landed. A sector of which a byte could not be read is
not written, the rest lands (R258). -/
def State.seeChunk (s : State) (x : Copy) (k : Nat) : State :=
  let g := x.geo
  let read := ((x.buf.find? (fun e => e.1 == k)).map Prod.snd).getD []
  let dst (i : Nat) : Nat := x.rowStart (i / g.e) + i % g.e
  let gone := (((List.range (min 256 (g.total - 256 * k))).map (fun j => 256 * k + j)).filter (fun i => !read.any (fun e => e.1 == i))).map
    (fun i => dst i / 32)
  let data := read.filter (fun e => !gone.contains (dst e.1 / 32))
  let put (q : State × Copy × Nat) (e : Nat × SecBytes × Bool) : State × Copy × Nat :=
    let (s, x, n) := q
    match g.dst with
    | some (.slot m) =>
      let (s, lost) := s.putSlotSector m e.1 e.2.1 e.2.2 x.conflict
      (s, { x with conflict := x.conflict || lost }, if lost then n else n + e.2.1.count)
    | some (.mem c) =>
      match s.engSpot (rightOf c) x.op.auth e.1 true with
      | .error (.trap t) => let (s, x) := s.copyFault x t; (s, x, n)
      | .error _ => (s, x, n)
      | .ok sp =>
        match s.copyPut (rightOf c) x.op.auth (.unit s.k x.op.id 0) sp e.1 e.2.1 e.2.2 x.conflict with
        | (s, .landed) => (s, x, n + e.2.1.count)
        | (s, .discarded) => (s, { x with conflict := true }, n)
        | (s, _) => (s, x, n)
    | none => (s, x, n)
  let (s, x, n) := (sectorsOf (data.map (fun e => (dst e.1, e.2)))).foldl put (s, x, 0)
  let s := match g.gauge with
    | some ga => s.addGauge ga n
    | none => s
  if k + 1 = g.chunks then
    let s := s.setCore { s.core with copies := s.core.copies.filter (fun y => y.op.id != x.op.id) }
    match g.dst, g.shp with
    | some (.slot m), some r => if x.conflict || n = 0 then s else s.copyShape m.toNat r
    | _, _ => s
  else Copy.setIn { x with seen := k + 1, buf := x.buf.filter (fun e => e.1 != k) } s

/-- The chunks of the core's copies that are seen from this cycle on. Fuel bounds their number. -/
def State.seeDue (s : State) (q : Option Eng) : Nat → State
  | 0 => s
  | n + 1 =>
    match s.core.copies.find? (fun x =>
        x.incl && q.all (fun e => x.op.eng == e) && decide (x.start + 25 + x.seen ≤ s.cyc) && !s.core.stalledBefore x) with
    | none => s
    | some x => (s.seeChunk x x.seen).seeDue q n

/-- An in-cluster copy behind a stalled copy of its queue waits: its cycles count on from later (09 R281). -/
def Core.slideCopies (c : Core) : Core :=
  { c with copies := c.copies.map (fun x => if x.incl && c.stalledBefore x then { x with start := x.start + 1 } else x) }

/-- The chunks that copies of the core read in this cycle. -/
def State.readDue (s : State) : State :=
  let s := s.setCore s.core.slideCopies
  s.core.copies.foldl (fun s x =>
    if x.incl && !s.core.stalledBefore x && decide (x.start < s.cyc) && decide (s.cyc ≤ x.start + x.n) then
      match s.core.copies.find? (fun y => y.op.id == x.op.id) with
      | some y => s.readChunk y (s.cyc - x.start - 1)
      | none => s
    else s) s

def engOfQ : MemQ → Eng
  | .ml => .ml
  | .ms => .ms

/-- COPY_CHUNK_SEEN (R198): the next chunk due of a queue's in-cluster copies. -/
def execCopyChunkSeen (q : MemQ) (s : State) : Host.Outcome State Fault Refusal := .next (s.seeDue (some (engOfQ q)) 1)

/-! ## Start (R198, R200, R254, R257) -/

/-- pq has room for one more (c_room of R198): the entries in it at the start of cycle `now`, and those owed or pushed since (R184). -/
def Core.pqRoom (c : Core) (now : Nat) : Bool :=
  let q := c.q 9
  decide (q.ents.length + (if q.popAt = now then q.pops else 0) < 16)

/-- Push the promise of a copy that started now, within 8 cycles and behind the promises before it (R200). -/
def State.pushPromise (s : State) (p : Nat) : State :=
  let q := s.core.q 9
  let at_ := max (s.cyc + s.freeIdx 80 % 9) ((q.ents.getLast?.map Ent.res).getD 0)
  if !s.core.cs.act then s
  else s.setCore (s.core.setQ 9 { q with ents := q.ents ++ [⟨⟨BitVec.ofNat 64 p, false⟩, true, at_, at_ + 1, 0⟩],
                                         pushed := (q.pushed + 1) % 2 ^ 32 })

/-- What an `ldt` or `stt` finds wrong with its handle at its start (R254, 16 R379). -/
def handleFault (g : Geo) (t : Option Tensor) (isLd : Bool) : Option Trap :=
  match t with
  | none => some ⟨.engineOperandFault, 0, 0⟩
  | some t =>
    if t.fmt ≠ g.fmt || (!isLd && !t.wr) then some ⟨.engineOperandFault, 0, 0⟩
    else if t.win then none
    else (g.firstOut t).map (fun c => ⟨.capabilityFault, 4, w64 (t.bit c / 8)⟩)

/-- The piece that issued the operation still runs on this core. -/
def Core.ownsOp (c : Core) (o : Op) : Bool := c.pc.run && c.pc.pid == o.pid

/-- The first copy of a queue whose cycle to start has come, with room in pq where it answers with a promise. -/
def State.copyReady (s : State) (e : Eng) : Option Op :=
  match (s.core.engineQueue e).find? Op.isCopy with
  | none => none
  | some o =>
    let prev := Map.get (0, 0) s.core.lastCopy (engIdx e)
    let promises := !o.geo.inCluster && !o.stop && s.core.ownsOp o
    if s.core.halt == .freeze || s.cyc < o.c || s.cyc < prev.1 + prev.2 || (promises && !s.core.pqRoom s.cyc) then none else some o

/-- Start it. -/
def State.startCopy (s : State) (e : Eng) : State :=
  match s.copyReady e with
  | none => s
  | some o =>
    let g := o.geo
    let incl := g.inCluster
    let promises := !incl && !o.stop && s.core.ownsOp o
    let t := match g.h with
      | some h => tensorOf (s.handle o.ctx h)
      | none => none
    let p := s.cyc + 1 + s.freeIdx 96
    let s := s.setCore { (s.core.setEngineQueue e ((s.core.engineQueue e).filter (fun x => x.id != o.id))) with
      started := Map.set 0 s.core.started (engIdx e) (Map.get 0 s.core.started (engIdx e) + 1),
      lastCopy := Map.set (0, 0) s.core.lastCopy (engIdx e) (s.cyc, g.chunks) }
    let s := if promises then s.pushPromise p else s
    let x : Copy := { op := o, geo := g, tensor := t, incl := incl, start := s.cyc, n := g.chunks, buf := [], seen := 0,
                      promise := p, owed := false, done := [], lost := [], sent := [], bad := [], acks := [], chunks := [],
                      conflict := false, missed := !promises, faulted := false, stall := none }
    let wrong := if g.h.isSome then handleFault g t (e == .ml) else none
    match wrong with
    | some tr => (s.copyFault x tr).1.landed o
    | none =>
      let s := s.setCore { s.core with copies := s.core.copies ++ [x] }
      if !incl && x.complete then s.settleCopy x else s

/-- A copy of MS that answers with a promise starts at the end of the cycle, while ML may yet start one in it: one that is ready, or one that
A still issues (R200). -/
def State.behindMl (s : State) : Bool :=
  (s.copyReady .ms).any (fun o => !o.geo.inCluster && !o.stop && s.core.ownsOp o) &&
  ((s.copyReady .ml).isSome || (s.core.ca.act && s.core.ca.start ≤ s.cyc))

/-- COPY_START (R198). Of two copies that start in one cycle that of ML pushes its promise first (R200). -/
def execCopyStart (q : MemQ) (s : State) : Host.Outcome State Fault Refusal :=
  .next (if q == .ms && s.behindMl then s else s.startCopy (engOfQ q))

/-- Report the promises of the core before cycle `upto` that queue `e` has not kept (R201). -/
def State.missPromises (s : State) (e : Eng) (upto : Nat) : State :=
  s.core.copies.foldl (fun s x =>
    if x.op.eng == e && !x.missed && !x.incl && decide (x.promise < upto) then
      let s := Copy.setIn { x with missed := true } s
      if s.core.ownsOp x.op then
        s.report s.k ⟨.promiseMiss, BitVec.ofNat 16 (engIdx e), BitVec.ofNat 64 x.promise⟩ else s
    else s) s

/-- PROMISE_MISS (R201): of the copies whose promised cycle has ended. -/
def execPromiseMiss (q : MemQ) (s : State) : Host.Outcome State Fault Refusal := .next (s.missPromises (engOfQ q) s.cyc)

end Sys2Proof.Machine
end

