-- ==== Sys2Proof/Machine/Scribe.lean ====
section
/-! DEFINITION. The Scribe log (21 R496 to R499): appending an entry, the replay source, and divergence. -/
namespace Sys2Proof.Machine

def GCtx.lsz (g : GCtx) : Nat := bitsOf g.scrcfg 0 6

/-- MODE, with the values that act as 0 (R497): 0 off, 1 record, 2 replay. -/
def GCtx.scribeMode (g : GCtx) : Nat :=
  let m := bitsOf g.scrcfg 8 2
  if m = 3 || g.lsz < 8 || 26 < g.lsz then 0 else m

/-- Address of entry `j`. -/
def GCtx.entryVa (g : GCtx) (j : Nat) : Nat := bitsOf g.scrcfg 12 44 * 4096 + 16 * (j % 2 ^ g.lsz)

def devUnit : Nat := 0xFF

/-- Bytes of the log are written: here, or by the peer that homes their page (R496, 19 R441). -/
def State.putLog (s : State) (c : Ctx) (pa : Nat) (bs : Bytes) : State :=
  if !s.remote pa then (s.clean (s.homeKey pa)).vstore (s.homeKey pa) bs false
  else if !s.peerExists (pa / 2 ^ 45) then s
  else s.request ⟨.sector 0 (pa / 32), pa, bs.length, c, 1024, s.k, false, 0, 0⟩ (storePk bs 0 (s.ctx c).step.t false)

/-- Append an entry (R496, R497): not when the ring is full. The ring is never versioned. -/
def State.scribe (s : State) (c : Ctx) (kind unit : Nat) (data : Nat) : State :=
  let g := s.gctx c
  if g.scribeMode ≠ 1 then s
  else if (g.scrw - g.scrh).toNat = 2 ^ g.lsz then
    let s := s.setGctx c { g with sfull := true }
    if (s.ctx c).step.open_ then s.veto c vFault else s
  else
    let st := (s.ctx c).step
    let bs := bytesLE 1 kind ++ bytesLE 1 unit ++ bytesLE 2 st.t.toNat ++ bytesLE 4 st.k.toNat ++ bytesLE 8 data
    let va := g.entryVa g.scrw.toNat
    let s := match s.page c va with
      | some p => s.putLog c (p.pa + (va - p.va)) bs
      | none => s
    s.setGctx c { s.gctx c with scrw := g.scrw + 1 }

/-- The bytes of entry `j`, and whether their sector is poisoned; those that another peer holds are asked of it. -/
def State.entryBytes (s : State) (c : Ctx) (j : Nat) : Chk (Bytes × Bool) :=
  let va := (s.gctx c).entryVa j
  match s.page c va with
  | none => raise .translationFault 0 (BitVec.ofNat 64 va)
  | some p =>
    let pa := p.pa + (va - p.va)
    if p.transit then .error .wait
    else if s.remote pa then s.farBytes (whoCtx c) pa 16
    else .ok (s.vload (s.homeKey pa) 16, s.vpois (s.homeKey pa))

/-- Entry `j` as it stands in memory: KIND, UNIT, KLO, DATA. -/
def State.entry (s : State) (c : Ctx) (j : Nat) : Nat × Nat × Nat × Nat :=
  match s.entryBytes c j with
  | .ok (bs, _) => (natLE (bs.take 1), natLE ((bs.drop 1).take 1), natLE ((bs.drop 4).take 4), natLE (bs.drop 8))
  | .error _ => (0, 0, 0, 0)

/-- No unit can tell what entry `j` says: its sector is poisoned (11 R324; log entry 32), it has not come, or it cannot be read. -/
def State.entryBad (s : State) (c : Ctx) (j : Nat) : Bool :=
  match s.entryBytes c j with
  | .ok (_, bad) => bad
  | .error _ => true

/-- The entries that a replaying context follows: the source of a retry, or the log from RP in MODE 2 (R498, R499). -/
def State.source (s : State) (c : Ctx) : Option (Nat × Nat) :=
  let g := s.gctx c
  match g.scribeMode with
  | 1 => if g.rpl then g.ssrc else none
  | 2 => some (g.scrr.toNat, g.scrw.toNat)
  | _ => none

/-- The first of some entries that opens or decides an attempt, or that cannot be read. -/
def State.bound (s : State) (c : Ctx) (js : List Nat) : Option Nat :=
  js.find? (fun i => s.entryBad c i || (s.entry c i).1 == 1 || (s.entry c i).1 == 2)

/-- An entry of the log lies inside an attempt that was aborted (R499); none where an entry that cannot be read hides it. -/
def State.aborted (s : State) (c : Ctx) (lo hi j : Nat) : Option Bool :=
  match s.bound c ((List.range (j - lo)).map (fun i => j - 1 - i)) with
  | none => some false
  | some i =>
    if s.entryBad c i then none
    else if (s.entry c i).1 ≠ 1 then some false
    else match s.bound c ((List.range (hi - j)).map (fun i => j + i)) with
      | none => some false
      | some i => if s.entryBad c i then none else some ((s.entry c i).1 == 2 && nb (s.entry c i).2.2.2 15 1 == 0)

/-- The next source entry of a unit and kind that has not been met: its index and data, 2^64 where an entry that cannot be read hides it
(nothing matches that). -/
def State.nextLogged (s : State) (c : Ctx) (kind unit : Nat) : Option (Nat × Nat) :=
  match s.source c with
  | none => none
  | some (lo, hi) =>
    let from_ := max lo (Map.get 0 (s.gctx c).spos (kind * 256 + unit))
    let out (j : Nat) : Option Bool := if (s.gctx c).scribeMode = 2 then s.aborted c lo hi j else some false
    (((List.range (hi - from_)).map (fun i => from_ + i)).find? (fun j =>
      let e := s.entry c j
      s.entryBad c j || (e.1 == kind && e.2.1 == unit && out j != some true))).map
        (fun j => (j, if s.entryBad c j || (out j).isNone then 2 ^ 64 else (s.entry c j).2.2.2))

/-- The first entry of the source that another peer has still to send is asked for. -/
def State.scribeFetch (s : State) (c : Ctx) : State :=
  match s.source c with
  | none => s
  | some (lo, hi) =>
    match (List.range (hi - lo)).findSome? (fun i => match s.entryBytes c (lo + i) with
      | .error (.ask who pa) => some (who, pa)
      | _ => none) with
    | some (who, pa) => s.askFar who pa c 1024 s.k
    | none => s

/-- An opening that a MODE 2 replay has to compare has not come, or its page is in transit. -/
def State.logAway (s : State) (c : Ctx) : Bool :=
  match s.source c with
  | none => false
  | some (lo, hi) =>
    (s.gctx c).scribeMode == 2 && (match s.bound c ((List.range (hi - lo)).map (fun i => lo + i)) with
      | some j => (match s.entryBytes c j with
        | .error (.ask _ _) => true
        | .error .wait => true
        | _ => false)
      | none => false)

/-- Whether a unit may let an event happen now: not replaying, its entries exhausted, or the next logged one. -/
def State.scribeAllows (s : State) (c : Ctx) (kind unit : Nat) (data : Nat) : Bool :=
  match s.nextLogged c kind unit with
  | none => true
  | some (_, d) => d == data

/-- The event happens: its source entry is passed, and it is recorded afresh. -/
def State.scribeEvent (s : State) (c : Ctx) (kind unit : Nat) (data : Nat) : State :=
  let s := match s.nextLogged c kind unit with
    | some (j, _) => s.setGctx c { s.gctx c with spos := Map.set 0 (s.gctx c).spos (kind * 256 + unit) (j + 1),
                                                 sheld := Map.set 0 (s.gctx c).sheld (kind * 256 + unit) 0 }
    | none => s
  s.scribe c kind unit data

/-- The next ordinal of a source at a unit since the attempt opened (KIND 0x03 and 0x08). -/
def State.ordinal (s : State) (c : Ctx) (key : Nat) : Nat := Map.get 0 (s.gctx c).sord key

def State.countOrdinal (s : State) (c : Ctx) (key : Nat) : State :=
  s.setGctx c { s.gctx c with sord := Map.set 0 (s.gctx c).sord key (s.ordinal c key + 1) }

/-- A divergence (R498): the next attempt records without a replay source. -/
def State.diverge (s : State) (c : Ctx) (kind unit : BitVec 8) : State :=
  let g := s.gctx c
  (s.setGctx c { g with sdiv := true, sbar := true, dkind := kind, dunit := unit, rpl := false, ssrc := none, snext := none,
                        sheld := [] }).veto c vFault

/-- A unit of a replaying context has held an event for 2^26 cycles without the logged one (R498). -/
def State.heldLong (s : State) (c : Ctx) (key : Nat) : Bool :=
  let b := Map.get 0 (s.gctx c).sheld key
  (s.source c).isSome && b != 0 && decide (b + 2 ^ 26 ≤ s.cyc + 1)

/-- SCRIBE_DIVERGENCE (R498): a unit of a replaying context has held too long. An event that cannot wait diverges where it happens
(State.release, State.scribeOpen). -/
def execScribeDivergence (c : Ctx) (kind unit : BitVec 8) (s : State) : Host.Outcome State Fault Refusal :=
  .next (if s.heldLong c (kind.toNat * 256 + unit.toNat) then s.diverge c kind unit else s)

/-- As a cycle passes: the units in `keys` hold an event back; one that has done so for 2^26 cycles diverges. `sheld` keeps the cycle in
which each began, plus 1. -/
def State.scribeHolds (s : State) (c : Ctx) (keys : List Nat) : State :=
  let g := s.gctx c
  let since (k : Nat) : Nat := let b := Map.get 0 g.sheld k; if b = 0 then s.cyc + 1 else b
  let s := s.setGctx c { g with sheld := keys.foldl (fun m k => Map.set 0 m k (since k)) [] }
  match keys.find? (s.heldLong c) with
  | some k => s.diverge c (BitVec.ofNat 8 (k / 256)) (BitVec.ofNat 8 k)
  | none => s

/-- An attempt opens (R498, R499): the replay source of an abort before it comes into force, and the opening is logged. In
MODE 2 the next logged opening must be this step; at the end of the log, or after a divergence, recording goes on. -/
def State.scribeOpen (s : State) (c : Ctx) : State :=
  let g := s.gctx c
  let k := (s.ctx c).step.k
  let ends := g.scrr == g.scrw || g.sbar
  let s := s.setGctx c { g with ssrc := g.snext, rpl := (g.snext.isSome && g.scribeMode == 1) || (g.scribeMode == 2 && !ends),
                                snext := none, spos := [], sord := [], sheld := [], sbar := false, smark := g.scrw.toNat }
  match g.scribeMode with
  | 1 => s.scribe c 1 devUnit k.toNat
  | 2 =>
    if ends then
      (s.setGctx c { s.gctx c with scrcfg := (g.scrcfg &&& ~~~(0x300 : W64)) ||| 0x100 }).scribe c 1 devUnit k.toNat
    else match s.nextLogged c 1 devUnit with
      | some (j, _) =>
        if !s.entryBad c j && (s.entry c j).2.2.1 = k.toNat % 2 ^ 32 then
          s.setGctx c { s.gctx c with spos := Map.set 0 (s.gctx c).spos (256 + devUnit) (j + 1) }
        else s.diverge c 1 0xFF
      | none => s.diverge c 1 0xFF
  | _ => s

/-- A decision is applied (R496, R498, R499): it is logged; after an abort in MODE 1 the attempt becomes the source of the
retry, unless it diverged; a replayed log moves to its end. -/
def State.scribeDecided (s : State) (c : Ctx) (commit lost : Bool) (vf : BitVec 5) : State :=
  let g0 := s.gctx c
  let s := s.scribe c 2 devUnit (vf.toNat + (if commit then 2 ^ 15 else 0) + (if lost then 2 ^ 16 else 0))
  let g := { s.gctx c with sheld := [] }
  match g.scribeMode with
  | 1 => (s.setGctx c { g with rpl := false, ssrc := none, sbar := false,
                               snext := if commit || g0.sbar then none else some (g0.smark, g.scrw.toNat) }).dropGot (whoCtx c)
  | 2 =>
    let s := match s.nextLogged c 2 devUnit with
      | some (j, _) => s.setGctx c { g with scrr := BitVec.ofNat 64 (j + 1), rpl := false }
      | none => s.setGctx c { g with scrr := g.scrw, rpl := false }
    s.dropGot (whoCtx c)
  | _ => s

end Sys2Proof.Machine
end

