-- ==== Sys2Proof/Machine/CoreEvents.lean ====
section
/-! DEFINITION. The other events of a core: gathers (08 R259), gadd (R267), stops (R268), EPIR rows (07 R231), landings
(07 R229, R233), translations (06 R196, 09 R281), barriers (03 R99), deadlock (06 R185), reports (09 R276), Watchdog
(13 R350), early points (03 R91), the core scratch switch (06 R194), core failure (21 R502). -/
namespace Sys2Proof.Machine

/-! ## Gather and scatter (R259) -/

/-- Operands of a gather or scatter that issue has accepted. -/
def Op.gaGeo (o : Op) : GaGeo :=
  let arg (i : Nat) : StkEnt := o.args.getD i ⟨0, .plain⟩
  let capOf (x : StkEnt) : Cap := match x.attr with
    | .cap c => c
    | _ => nullCap
  let sh := (arg 3).v.toNat
  ⟨endOf (arg 0), capOf (arg 1), capOf (arg 2), sh / 2 ^ 24, sh % 2 ^ 24, o.gauge, nb o.word.toNat 8 4 == 0⟩

def GaRun.setIn (x : GaRun) (s : State) : State :=
  s.setCore { s.core with ga := s.core.ga.map (fun y => if y.op.id == x.op.id then x else y) }

/-- A fault of a gather is reported once (R258). -/
def State.gaFault (s : State) (x : GaRun) (t : Trap) : State × GaRun :=
  if x.faulted then (s, x) else (s.reportOp x.op.li x.op.pid t, { x with faulted := true })

/-- A gather or scatter as the engine takes it. -/
def GaRun.start (o : Op) : GaRun := ⟨o, [], [], [], [], [], [], [], [], false, false, none⟩

/-- Address of a row of the table. -/
def GaGeo.tabAddr (g : GaGeo) (ix : Nat) : Int := (g.tab.cur : Int) + bitsInt 32 true ix * g.e

/-- A row lies outside the table's bounds. -/
def GaGeo.outside (g : GaGeo) (ix : Nat) : Bool :=
  decide (ix ≠ 0x80000000) && (decide (g.tabAddr ix < g.tab.bounds.1) || decide ((g.tab.bounds.2 : Int) < g.tabAddr ix + g.e))

/-- Start of the endpoint that holds row `j` at `near + j E`: an offset in the slot or an address. -/
def GaGeo.near (g : GaGeo) : Nat :=
  match g.ep with
  | .slot _ => 0
  | .mem c => c.cur

/-! ### Indices -/

/-- Index of row `j` with its poison, as the scratchpad holds it now. -/
def State.gaIndex (s : State) (x : GaRun) (row : Nat) : Chk (Nat × Bool) :=
  let g := x.op.gaGeo
  match s.engSpot (rightOf g.idx) x.op.auth (g.idx.cur + 4 * row) false with
  | .ok (.key k _) => .ok (natLE (s.vload k 4), s.vpois k)
  | .ok (.far _) => .error .wait
  | .error e => .error e

/-- The indices are read, each once, after the operation has started (R255, R259). An index of a bank that has left scratchpad mode is not to
be had; the lowest row outside the table is reported. -/
def State.gaIndices (s : State) (x : GaRun) : State × GaRun :=
  if x.idx != [] then (s, x)
  else
    let g := x.op.gaGeo
    let rs := (List.range g.rows).map (s.gaIndex x)
    let x := { x with idx := rs.map (fun r => match r with
      | .ok v => some v
      | .error _ => none) }
    let stop := rs.findSome? (fun r => match r with
      | .error (.trap t) => some t
      | .ok (ix, _) => if g.outside ix then some ⟨.capabilityFault, 4, w64 (g.tabAddr ix)⟩ else none
      | _ => none)
    match stop with
    | some t => s.gaFault x t
    | none => (s, x)

/-! ### Units -/

/-- Sectors that a row of a scatter may touch. -/
def GaGeo.perRow (g : GaGeo) : Nat := (g.e + 62) / 32

def GaGeo.numUnits (g : GaGeo) : Nat :=
  if g.gat then (unitsOf 32 g.near (g.rows * g.e)).length else g.rows * g.perRow

/-- Where a byte of a destination sector comes from: the zero bytes of a row that is inactive or outside, an address of the source, or an
index that is not to be had. -/
inductive GaSrc where
  | zero
  | src (a : Nat)
  | gone
  deriving DecidableEq, Repr

def GaSrc.addr : GaSrc → Option Nat
  | .src a => some a
  | _ => none

/-- What unit `u` writes: the base of its sector, the source of each of its bytes, and whether an index among them is poisoned: that poison
goes with the bytes (DESIGN CHOICE, log entry 79). Of a scatter whose index is inactive, outside or not to be had there is no unit. -/
def GaRun.plan (x : GaRun) (u : Nat) : Option (Nat × List (Option GaSrc) × Bool) :=
  let g := x.op.gaGeo
  let ix (j : Nat) : Option (Nat × Bool) := x.idx.getD j none
  if g.gat then
    let base := 32 * (g.near / 32 + u)
    let row (i : Nat) : Option (Nat × Nat) :=
      if g.near ≤ base + i && base + i < g.near + g.rows * g.e then some ((base + i - g.near) / g.e, (base + i - g.near) % g.e) else none
    let from_ (i : Nat) : Option GaSrc := (row i).map (fun r => match ix r.1 with
      | none => .gone
      | some (v, _) => if v = 0x80000000 || g.outside v then .zero else .src ((g.tabAddr v).toNat + r.2))
    let bad (i : Nat) : Bool := (row i).any (fun r => (ix r.1).any Prod.snd)
    if g.numUnits ≤ u then none else some (base, (List.range 32).map from_, (List.range 32).any bad)
  else
    let j := u / g.perRow
    match ix j with
    | none => none
    | some (v, p) =>
      if g.rows ≤ j || v = 0x80000000 || g.outside v then none
      else
        let a := (g.tabAddr v).toNat
        let base := 32 * (a / 32 + u % g.perRow)
        if a + g.e ≤ base then none
        else some (base, (List.range 32).map (fun i =>
          if a ≤ base + i && base + i < a + g.e then some (.src (g.near + j * g.e + (base + i - a))) else none), p)

/-- Units of row `j`, in ascending order. -/
def GaRun.unitsOfRow (x : GaRun) (j : Nat) : List Nat :=
  let g := x.op.gaGeo
  if g.gat then (unitsOf 32 (g.near + j * g.e) g.e).map (· - g.near / 32) else (List.range g.perRow).map (j * g.perRow + ·)

/-- Bytes of row `j` that have landed. -/
def GaRun.rowBytes (x : GaRun) (j : Nat) : Nat :=
  let g := x.op.gaGeo
  ((x.unitsOfRow j).filter (fun u => !x.lost.contains u)).foldl (fun n u => match x.plan u with
    | none => n
    | some (base, l, _) =>
      if g.gat then
        n + ((List.range 32).filter (fun i => decide (g.near + j * g.e ≤ base + i) && decide (base + i < g.near + j * g.e + g.e))).length
      else n + (l.filter Option.isSome).length) 0

/-- Unit `u` may perform now: of a gather the sectors of a line perform in ascending order (14 R365), of a scatter every row follows those
before it (R259). -/
def GaRun.inOrder (x : GaRun) (u : Nat) : Bool :=
  let gone (v : Nat) : Bool := x.done.contains v || x.acks.contains v || (x.plan v).isNone
  if x.op.gaGeo.gat then
    let sec (v : Nat) : Nat := x.op.gaGeo.near / 32 + v
    (List.range u).all (fun v => sec v / 4 != sec u / 4 || x.done.contains v)
  else (List.range u).all gone

/-! ### Landing -/

/-- Rows whose units are all over add what landed to the gauge; with the last the operation ends (R259). -/
def State.gaSettle (s : State) (x : GaRun) : State :=
  let g := x.op.gaGeo
  let past (u : Nat) : Bool := x.done.contains u || (x.plan u).isNone
  let new := (List.range g.rows).filter (fun j => !x.rows.contains j && (x.unitsOfRow j).all past)
  let s := match g.gauge with
    | some ga => new.foldl (fun s j => s.addGauge ga (x.rowBytes j)) s
    | none => s
  let x := { x with rows := x.rows ++ new }
  if g.rows ≤ x.rows.length then
    let s := s.setCore { s.core with ga := s.core.ga.filter (fun y => y.op.id != x.op.id) }
    match g.gat, g.ep with
    | true, .slot n =>
      if x.conflict then s else s.copyShape n.toNat ⟨true, 15, BitVec.ofNat 7 g.rows, BitVec.ofNat 10 g.e⟩
    | _, _ => s
  else x.setIn s

/-- A unit is over: performed, or lost. A stall of another unit goes on (09 R281). -/
def State.gaEndUnit (s : State) (x : GaRun) (u : Nat) (lost : Bool) : State :=
  s.gaSettle { x with done := u :: x.done, lost := if lost then u :: x.lost else x.lost, acks := x.acks.filter (· != u),
                      stall := x.stall.filter (fun p => p.1 != u) }

/-- Why a unit does not go on. -/
def State.gaStop (s : State) (x : GaRun) (u : Nat) (e : Stop') : State :=
  let hold (s : State) : State := GaRun.setIn { x with stall := some (x.stall.getD (u, s.cyc)) } s
  match e with
  | .trap t =>
    let (s, x) := s.gaFault x t
    s.gaEndUnit x u true
  | .walk va => hold (s.walkIn x.op.ctx va)
  | _ => hold s

/-- The endpoint that is read, and the one that is written. -/
def GaGeo.source (g : GaGeo) : End := if g.gat then .mem g.tab else g.ep
def GaGeo.dest (g : GaGeo) : End := if g.gat then g.ep else .mem g.tab

/-- Read the source sectors of some addresses, each once (R255): the run with what it has read, and the sectors that another peer holds and
that have not come. A sector that a check refuses is noted as bad, and its fault is reported. -/
def State.gaSources (s : State) (x : GaRun) : List Nat → Chk (State × GaRun × List (Nat × Nat))
  | [] => .ok (s, x, [])
  | a :: r =>
    if x.buf.any (fun e => e.1 == a / 32) || x.bad.contains (a / 32) then s.gaSources x r
    else
      let e := x.op.gaGeo.source
      let refuse (t : Trap) : Chk (State × GaRun × List (Nat × Nat)) :=
        let (s, x) := s.gaFault x t
        s.gaSources { x with bad := (a / 32) :: x.bad } r
      match s.sectorAt e.slot? (endRight e) x.op.auth a with
      | .error (.trap t) => refuse t
      | .error e => .error e
      | .ok (.inl l) => s.gaSources { x with buf := (a / 32, l) :: x.buf } r
      | .ok (.inr pa) =>
        if !s.peerExists (pa / 2 ^ 45) then refuse ⟨.accessFault, 0, BitVec.ofNat 64 pa⟩
        else do
          let (s, x, far) ← s.gaSources x r
          .ok (s, x, if far.any (fun e => e.1 == a / 32) then far else (a / 32, pa) :: far)

/-- A source byte that has been read. -/
def GaRun.srcByte (x : GaRun) (a : Nat) : Option (Byte × Bool) :=
  (x.buf.find? (fun e => e.1 == a / 32)).bind (fun e => (e.2.find? (fun b => b.1 == a)).map Prod.snd)

/-- Write the sector of a unit whose source bytes are at hand. -/
def State.gaPut (s : State) (x : GaRun) (u base : Nat) (b : SecBytes) (bad : Bool) : State :=
  match x.op.gaGeo.dest with
  | .slot m =>
    let (s, lost) := s.putSlotSector m base b bad x.conflict
    s.gaEndUnit { x with conflict := x.conflict || lost } u lost
  | .mem c =>
    match s.engSpot (rightOf c) x.op.auth base true with
    | .error e => s.gaStop x u e
    | .ok sp =>
      match s.engPut (rightOf c) x.op.auth (.unit s.k x.op.id u) sp base b bad x.conflict with
      | (s, .landed) => s.gaEndUnit x u false
      | (s, .discarded) => s.gaEndUnit { x with conflict := true } u true
      | (s, .stale) => s.gaEndUnit x u true
      | (s, .asked) => GaRun.setIn { x with acks := u :: x.acks } s

/-- Run unit `u`: read its sources, ask for far ones, write its sector. A sector of which a byte is not to be had is not written (R258). -/
def State.gaUnit (s : State) (x : GaRun) (u : Nat) : State :=
  match x.plan u with
  | none => s.gaSettle x
  | some (base, l, p) =>
    let srcs := l.filterMap (fun b => b.bind GaSrc.addr)
    match s.gaSources x srcs with
    | .error e => s.gaStop x u e
    | .ok (s, x, []) =>
      if l.contains (some .gone) || srcs.any (fun a => x.bad.contains (a / 32)) then s.gaEndUnit x u true
      else
        let val : Option GaSrc → Option (Byte × Byte)
          | none => none
          | some (.src a) => some (((x.srcByte a).getD (0, false)).1, 0xFF)
          | some _ => some (0, 0xFF)
        s.gaPut x u base (l.map val) (p || srcs.any (fun a => (x.srcByte a).any Prod.snd))
    | .ok (s, x, far) =>
      let new := far.filter (fun e => !x.sent.contains e.1)
      GaRun.setIn { x with sent := x.sent ++ new.map Prod.fst } (s.askSectors x.op new)

/-- An earlier operation of the queue is stalled: later ones wait behind it (09 R281). -/
def Core.gaBehind (c : Core) (x : GaRun) : Bool := c.ga.any (fun y => decide (y.op.id < x.op.id) && y.stall.isSome)

/-- Try unit `u` of run `id`, where its order allows it. -/
def State.gaTry (s : State) (id u : Nat) : State :=
  match s.core.ga.find? (fun x => x.op.id == id) with
  | none => s
  | some x => if x.done.contains u || x.acks.contains u || !x.inOrder u then s else s.gaUnit x u

/-- GATHER_ROW_LAND (R259): row `row` of a gather or scatter, sector by sector; a sector that several rows of a gather share lands whole with
the first of them. -/
def execGatherRowLand (id : Nat) (row : Nat) (s : State) : Host.Outcome State Fault Refusal :=
  .next (match s.core.ga.find? (fun x => x.op.id == id) with
    | none => s
    | some x =>
      if x.op.gaGeo.rows ≤ row || x.rows.contains row || s.core.halt == .freeze || s.core.gaBehind x then s
      else
        let (s, x) := s.gaIndices x
        (x.unitsOfRow row).foldl (fun s u => s.gaTry id u) ((x.setIn s).gaSettle x))

/-- The answer to a request for source sector `sec` of a gather: its bytes, or a failure at the first byte of it that is read. -/
def State.gaSrcAnswer (s : State) (k id sec : Nat) (bs : Bytes) (bad : Bool) (f : Option Trap) : State :=
  s.at k (fun s =>
    match s.core.ga.find? (fun x => x.op.id == id) with
    | none => s
    | some x =>
      let x := { x with sent := x.sent.filter (· != sec) }
      match f with
      | none => GaRun.setIn { x with buf := (sec, (bs.zip (List.range 32)).map (fun e => (32 * sec + e.2, e.1, bad))) :: x.buf } s
      | some t =>
        let (s, x) := s.gaFault x t
        GaRun.setIn { x with bad := sec :: x.bad } s)

/-- The answer to the write of a unit of a gather. -/
def State.gaUnitAnswer (s : State) (k id u : Nat) (f : Option Trap) : State :=
  s.at k (fun s =>
    match s.core.ga.find? (fun x => x.op.id == id) with
    | none => s
    | some x =>
      match f with
      | some t =>
        let (s, x) := s.gaFault x t
        s.gaEndUnit x u true
      | none => s.gaEndUnit x u false)

/-- The address that a stalled unit of a gather waits for. -/
def GaRun.stallAddr (x : GaRun) (s : State) (u : Nat) : W64 :=
  let e := x.op.gaGeo.source
  match x.plan u with
  | none => 0
  | some (base, l, _) =>
    match (l.filterMap (fun b => b.bind GaSrc.addr)).find? (fun a => match s.sectorAt e.slot? (endRight e) x.op.auth a with
      | .error _ => true
      | .ok _ => false) with
    | some a => BitVec.ofNat 64 a
    | none => BitVec.ofNat 64 base

/-! ## gadd (R267) -/

/-- The operation leaves its queue (08 R250, 09 R286). -/
def Core.takeOp (c : Core) (o : Op) : Core :=
  { (c.setEngineQueue o.eng ((c.engineQueue o.eng).filter (fun x => x.id != o.id))) with
    started := Map.set 0 c.started (engIdx o.eng) (Map.get 0 c.started (engIdx o.eng) + 1) }

/-- The first operation of a queue that is no `gadd`. -/
def Core.headOp (c : Core) (e : Eng) : Option Op := (c.engineQueue e).find? (fun o => !o.isGadd)

/-- Operations of an engine of this core, earlier than `id` and not complete. -/
def State.earlierOpen (s : State) (e : Eng) (id : Nat) : Bool :=
  let c := s.core
  let old (o : Op) : Bool := o.eng == e && o.core == s.k && decide (o.id < id)
  (c.engineQueue e).any old || c.copies.any (fun x => old x.op) || c.ga.any (fun x => old x.op) ||
  s.fab.colls.any (fun x => old x.op) || s.fab.sends.any (fun x => old x.op)

/-- GADD_APPLY (R267): the first gadd of a queue adds once every earlier operation of the queue has completed. -/
def execGaddApply (e : Eng) (s : State) : Host.Outcome State Fault Refusal :=
  .next (match (s.core.engineQueue e).find? Op.isGadd with
    | none => s
    | some o =>
      if s.earlierOpen e o.id || s.core.halt == .freeze then s
      else
        let s := s.setCore (s.core.takeOp o)
        s.addGauge ⟨nb o.word.toNat 8 1 == 1, BitVec.ofNat 8 o.word.toNat⟩ ((o.args.headD ⟨0, .plain⟩).v.toNat % 2 ^ 32))

/-! ## Stops (R268) -/

/-- A stop that became ready in the same cycle and fires first: a cluster's before the device's, ascending number. -/
def stopAhead (key key' : Nat) : Bool :=
  if 65536 ≤ key then decide (key' < key) else decide (key' / 16 = key / 16) && decide (key' < key)

/-- UNIT of a stop in the Scribe log: its cluster, or the device. -/
def stopUnit (key : Nat) : Nat := if 65536 ≤ key then devUnit else key / 16

/-- The firing that the Scribe log records (21 R496). -/
def State.stopEntry (s : State) (c : Ctx) (key : Nat) : Nat :=
  (if 65536 ≤ key then 64 + key % 65536 % 64 else key % 16) + 2 ^ 32 * s.ordinal c (2048 + stopUnit key)

/-! ## Epilogue rows (07 R231, R232) -/

def Epir.setIn (x : Epir) (s : State) : State :=
  s.setCore { s.core with epir := s.core.epir.map (fun y => if y.id == x.id then x else y) }

/-- Output row `r` of an EPIR: as it was read when it first left, or read now (R231, 09 R289). The flags of what is read now are set for the
piece that issued it, if it still runs. -/
def State.epirTake (s : State) (x : Epir) (r : Nat) : State × Epir × Bytes × List Bool :=
  match x.rows.find? (fun e => e.1 == r) with
  | some (_, bs, pois) => (s, x, bs, pois)
  | none =>
    let (bs, pois, fl) := s.epirRead x r
    let s := if s.core.pc.run && s.core.pc.pid == x.pid then s.flagM fl else s
    (s, { x with rows := (r, bs, pois) :: x.rows }, bs, pois)

/-- An EPIR retires when every row has performed (R232). -/
def State.settleEpir (s : State) (x : Epir) : State :=
  if x.left.isEmpty && !s.fab.req.any (fun e => match e.2 with
      | some r => (match r.who with
        | .epirRow k id _ => k == s.k && id == x.id
        | _ => false)
      | none => false) then
    let s := s.setCore { s.core with epir := s.core.epir.filter (fun y => y.id != x.id) }
    match x.gauge with
    | some g => s.addGauge ⟨false, g.zeroExtend 8⟩ 1
    | none => s
  else x.setIn s

/-- Authority of an EPIR's rows. -/
def Epir.auth (x : Epir) (k : Nat) : Auth := ⟨k, x.li, x.ctx, x.att, x.open_, x.start⟩

/-- A fault of a row is reported once (08 R258). -/
def State.epirFault (s : State) (x : Epir) (t : Trap) : State × Epir :=
  if x.faulted then (s, x) else (s.reportOp x.li x.pid t, { x with faulted := true })

/-- What a row carries so that its receiver knows it again (R231): SEQ, row, part of the row, EPIR. -/
def Epir.tag (x : Epir) (r part : Nat) : Nat := x.rt.seq.toNat + 2 ^ 16 * r + 2 ^ 24 * part + 2 ^ 32 * x.id

/-- Has a part of a row performed here, and note that it has. -/
def State.rowSeen (s : State) (p : BitVec 12) (c : Ctx) (t : Nat) : Bool := s.fab.rows.contains (p, c, t)
def State.seeRow (s : State) (p : BitVec 12) (c : Ctx) (t : Nat) : State := s.setFab { s.fab with rows := (p, c, t) :: s.fab.rows }

/-- What keeps a row from being written before its home is asked: the rights of the page through which a space 0 route was given, a versioned
line with no attempt open (16 R382), and `rm` for another peer (08 R249, R262). -/
def State.rowStop (s : State) (x : Epir) (a : Nat) : Option Trap :=
  let v : Nat := ((a : Int) + x.rt.off.getD 0).toNat
  let shut := x.rt.off.isSome && (match s.page x.ctx v with
    | some p => !p.w
    | none => false)
  if shut then some ⟨.accessFault, 0, BitVec.ofNat 64 v⟩
  else if !x.open_ && s.versPa x.ctx a then some ⟨.accessFault, 0, BitVec.ofNat 64 v⟩
  else if s.remote a && !x.rt.rm then some ⟨.capabilityFault, 3, BitVec.ofNat 64 v⟩
  else if s.remote a && !s.peerExists (a / 2 ^ 45) then some ⟨.accessFault, 0, BitVec.ofNat 64 v⟩
  else none

/-- The parts of a row as packets carry them: offset and length. A packet holds the tag and up to seven flits. -/
def rowParts (n : Nat) : List (Nat × Nat) := if n ≤ 224 then [(0, n)] else [(0, 128), (128, n - 128)]

/-- Send a row to its home, with the gauge that it adds to there: the first flit is the tag; MARK [15] DG, [14] that it carries an attempt,
[13] that the packet is an EPIR row, [7:0] DGN (the model's layout, log entry 20). -/
def State.sendRow (s : State) (x : Epir) (r a : Nat) (bs : Bytes) (pois : List Bool) : State :=
  (rowParts bs.length).foldl (fun s q =>
    let pk := storePk ((bs.drop q.1).take q.2) 0 x.att x.rt.vw
    let bad := BitVec.ofNat 8 (2 * packLanes 1 ((pois.drop (q.1 / 32)).map Bool.toNat))
    let g := x.rt.dgn.toNat + (if x.rt.dg then 2 ^ 15 else 0) + (if x.open_ then 2 ^ 14 else 0) + 2 ^ 13
    s.request ⟨.epirRow s.k x.id r, a + q.1, q.2, x.ctx, x.li, s.k, false, 0, 0⟩
      { pk with mark := BitVec.ofNat 64 g, pois := bad, data := BitVec.ofNat 256 (x.tag r (q.1 / 128)) :: pk.data }) s

/-- Write a row on this device, sector by sector: the bytes written, and the first fault. A sector of memory is poisoned by any sector of
the output that it takes bytes from (R227). -/
def State.writeRow (s : State) (x : Epir) (r a : Nat) (bs : Bytes) (pois : List Bool) : State × Epir × Nat :=
  let rt : Right := ⟨3, x.rt.rm, x.rt.vw⟩
  let bad (b : Nat) : Bool := (List.range 32).any (fun i =>
    decide (a ≤ b + i) && decide (b + i < a + bs.length) && pois.getD ((b + i - a) / 32) false)
  let put (q : State × Epir × Nat) (b : Nat) : State × Epir × Nat :=
    let (s, x, n) := q
    match s.engSpot rt (x.auth s.k) (max a b) true with
    | .error (.trap t) =>
      let (s, x) := s.epirFault x t
      (s, x, n)
    | .error _ => q
    | .ok (.far _) => q
    | .ok (.key k v) =>
      match s.engPut rt (x.auth s.k) (.epirRow s.k x.id r) (.key (k - k % 32) v) b (sectorOf b a bs) (bad b) x.conflict with
      | (s, .landed) => (s, x, n + (sectorOf b a bs).count)
      | (s, .discarded) => (s, { x with conflict := true }, n)
      | (s, _) => (s, x, n)
  (sectorBases a bs.length).foldl put (s, x, 0)

/-- One row of an EPIR leaves: on this device it performs sector by sector, else it goes to its home. A row of an attempt that has been
decided is discarded (20 R471), and one that has performed already is dropped. -/
def State.epirRow (s : State) (x : Epir) (r : Nat) : State :=
  let a := x.rt.rowAddr r
  let (s, x, bs, pois) := s.epirTake x r
  let x := { x with left := x.left.filter (· != r), since := s.cyc }
  match s.rowStop x a with
  | some t =>
    let (s, x) := s.epirFault x t
    s.settleEpir x
  | none =>
    if s.remote a then (s.sendRow x r a bs pois).settleEpir { x with acks := x.acks ++ [r] }
    else if (x.open_ && x.att ≠ (s.ctx x.ctx).step.t) || s.rowSeen s.peer x.ctx (x.tag r 0) then s.settleEpir x
    else
      let (s, x, n) := s.writeRow x r a bs pois
      let s := s.seeRow s.peer x.ctx (x.tag r 0)
      (if x.rt.dg then s.addGauge ⟨true, x.rt.dgn⟩ n else s).settleEpir x

/-- EPIR_ROW_PERFORM (R231): the next row of an EPIR, in ascending order, not before it is read (R228). One that sends no rows retires once
the tile would have been read (R232, R237). -/
def execEpirRowPerform (id : Nat) (s : State) : Host.Outcome State Fault Refusal :=
  .next (match s.core.epir.find? (fun x => x.id == id) with
    | none => s
    | some x =>
      match x.left with
      | [] => if s.cyc < x.start + 63 then s else s.settleEpir x
      | r :: _ => if s.cyc < x.start + (if x.tr then 63 else r) then s else s.epirRow x r)

/-- The answer to a packet of row `r` of an EPIR. -/
def State.epirAnswer (s : State) (k id r : Nat) (f : Option Trap) : State :=
  s.at k (fun s =>
    match s.core.epir.find? (fun x => x.id == id) with
    | none => s
    | some x =>
      let (s, x) := match f with
        | some t => s.epirFault x t
        | none => (s, x)
      s.settleEpir (if s.asking (.epirRow k id r) then x else { x with acks := x.acks.filter (· != r) }))

/-! ## Landings of EPI and XPOSE (07 R229, R233) -/

/-- The first output of a kind that is due. -/
def State.landDue (s : State) (epi : Bool) : State :=
  match s.core.land.find? (fun l => l.epi == epi && decide (l.at_ ≤ s.cyc)) with
  | some l => s.landSlot l
  | none => s

/-- EPI_OUTPUT_SEEN (R229). -/
def execEpiOutputSeen (s : State) : Host.Outcome State Fault Refusal := .next (s.landDue true)

/-- XPOSE_OUTPUT_SEEN (R233). -/
def execXposeOutputSeen (s : State) : Host.Outcome State Fault Refusal := .next (s.landDue false)

/-! ## Translations (06 R196, 09 R281) -/

/-- TRANSLATION_WALK_COMPLETE (R196): the oldest page walk returns (DESIGN CHOICE: R196 gives no order, log entry 77); its page is held from now on, and a stalled stream that
needs it goes on. A walk that finds no page leaves the stall to end as Translation Fault. -/
def execTranslationWalkComplete (s : State) : Host.Outcome State Fault Refusal :=
  .next (match s.walks with
    | [] => s
    | (c, va) :: r =>
      let x := s.ctx c
      let hit (p : Page) : Page := if p.va ≤ va && va < p.va + 2 ^ p.sz then { p with walked := true } else p
      ({ s with walks := r } : State).setCtx c { x with pages := x.pages.map hit })

/-- The address that a stalled unit waits for. -/
def Copy.stallAddr (x : Copy) (s : State) (u : Nat) : W64 :=
  match x.plan u with
  | none => 0
  | some (base, p) =>
    match (if x.unchecked then x.allReads else planReads p).find? (fun a => match s.copyByte x a with
      | .error _ => true
      | .ok _ => false) with
    | some a => BitVec.ofNat 64 a
    | none => BitVec.ofNat 64 base

/-- TRANSLATION_STALL_TIMEOUT (R281): a stream of the core stalled for 2^20 cycles reports Translation Fault, and goes on
without the access; of a copy into a slot whose source was still being checked nothing is written (R282). -/
def execTranslationStallTimeout (e : Eng) (s : State) : Host.Outcome State Fault Refusal :=
  .next (
    let late (t : Option (Nat × Nat)) : Bool := match t with
      | some (_, since) => decide (since + 2 ^ 20 ≤ s.cyc)
      | none => false
    match s.core.copies.find? (fun x => x.op.eng == e && late x.stall) with
    | some x =>
      let u := (x.stall.getD (0, 0)).1
      let t : Trap := ⟨.translationFault, 0, x.stallAddr s u⟩
      if x.unchecked then s.loseCopy x t else s.unitStop x u (.trap t)
    | none =>
      match s.core.ga.find? (fun x => x.op.eng == e && late x.stall) with
      | some x =>
        let u := (x.stall.getD (0, 0)).1
        s.gaStop x u (.trap ⟨.translationFault, 0, x.stallAddr s u⟩)
      | none => s)

/-! ## Barriers (03 R99, 11 R316) -/

/-- The round of a wait has completed. -/
def State.roundSeen (s : State) (w : BarWait) : BarWait :=
  if (s.barrier (s.barKey w.sc w.n)).round = w.round then w else { w with done := true }

/-- A waiting piece sees that its round has completed, in the program and in the handler. -/
def State.barrierSeen (s : State) : State :=
  let p := s.core.pc
  s.setPiece { p with bar := p.bar.map s.roundSeen, barH := p.barH.map s.roundSeen }

/-- BARRIER_COMPLETE (R99): the round of the barrier at which the core in focus waits has completed; the piece proceeds. -/
def execBarrierComplete (s : State) : Host.Outcome State Fault Refusal := .next s.barrierSeen

/-! ## Deadlock, reports, Watchdog -/

/-- The first active cluster in the order S, A, V, M. -/
def Core.firstActive (c : Core) : Option Cl := [Cl.s, Cl.a, Cl.v, Cl.m].find? (fun k => (c.strm k).act)

/-- Every active cluster has been stalled on a queue since `stallFrom` (R185). -/
def Core.allStalled (c : Core) : Bool :=
  c.pc.run && [Cl.s, Cl.a, Cl.v, Cl.m].all (fun k => !(c.strm k).act || c.pc.stallSet.toNat.testBit (clCode k)) &&
  c.firstActive.isSome

/-- Context Terminated waits: it goes ahead of every trap (12 R323). -/
def State.endsNow (s : State) : Bool := s.core.pc.reports.any (fun r => r.trap.cause == .contextTerminated)

/-- QUEUE_DEADLOCK (R185): after 2^20 cycles the trap is taken at the first active cluster; SUB is the queue code of its
stalled word. A piece that is being stopped takes none (R284, R290, R291), and one whose context has been terminated none either (12
R323). -/
def execQueueDeadlock (s : State) : Host.Outcome State Fault Refusal :=
  .next (match s.core.firstActive with
    | none => s
    | some k =>
      if s.core.halt == .none && !s.endsNow && s.core.allStalled && decide (s.core.pc.stallFrom + 2 ^ 20 ≤ s.cyc) then
        let code := Map.get 0 s.core.pc.stallCode (clCode k)
        s.takeTrap k ⟨.queueDeadlock, code.zeroExtend 16, 0⟩
      else s)

/-- S takes a pending report: a non-recoverable one also while a handler runs; others wait for the handler's end, and with S
inactive Promise Miss is discarded (R88, R201, R276, R278). Context Terminated goes first (11 R323). While the piece is being stopped its
reports stay pending (R284). -/
def State.takeReport (s : State) : State :=
  let rs := s.core.pc.reports
  let pick := match rs.find? (fun r => r.trap.cause == .contextTerminated) with
    | some r => some r
    | none => if s.core.pc.handler then rs.find? (fun r => !r.trap.cause.recoverable) else rs.head?
  match pick with
  | none => s
  | some r =>
    if s.core.halt != .none then s
    else
      let s := s.setPiece { s.core.pc with reports := rs.erase r }
      if !s.core.pc.run then s
      else if r.trap.cause == .promiseMiss && !s.core.cs.act then s
      else if !r.trap.cause.recoverable then
        let s := s.setPiece { s.core.pc with tcause := tcauseOf r.trap r.ins true 0, taddr := r.trap.addr }
        let s := if s.core.pc.stepIn && r.trap.cause == .contextTerminated then s.veto s.core.pc.ctx vCorr else s
        s.faultPiece (some r.trap)
      else s.takeTrap .s r.trap true r.ins

/-- REPORTED_TRAP_TAKEN (R276). -/
def execReportedTrapTaken (s : State) : Host.Outcome State Fault Refusal := .next s.takeReport

/-- Watchdog limit of a launch in cycles; 0 none (13 R337). -/
def LaunchRec.wdog (l : LaunchRec) : Nat := bitsOf l.w5 42 12 * 2 ^ 20

/-- WATCHDOG (13 R350): a piece that has occupied its core for its limit has Watchdog reported, once; the report waits for S like any other
(09 R272, R276), and while the piece is being stopped it stays pending (09 R284). -/
def execWatchdog (s : State) : Host.Outcome State Fault Refusal :=
  .next (match s.launch s.core.pc.li with
    | none => s
    | some l =>
      if s.core.pc.run && l.lr.wdog != 0 && decide (l.lr.wdog ≤ s.core.pc.onCore) &&
          !s.core.pc.reports.any (fun r => r.trap.cause == .watchdog) then s.report s.k ⟨.watchdog, 0, 0⟩
      else s)

/-! ## Early point (03 R91) -/

/-- Writes of a launch on a core that were issued before identifier `id` and have not performed at device scope; an operation keeps its
place when a stop holds or fires it, and a stalled EPIR when a checkpoint moves it into the image (09 R289). -/
def State.writesBefore (s : State) (k li id : Nat) : Bool :=
  let c := s.coreOf k
  c.pend.any (fun a => a.writes && (a.rid.isNone || a.vers) && a.li == li && decide (a.id < id)) ||
  s.opsOpen k (fun o => o.li == li && decide (o.eid < id)) || c.epir.any (fun x => x.li == li && decide (x.id < id)) ||
  (s.launch li).any (fun l => l.saved.any (fun v => v.core.epir.any (fun x => decide (x.id < id) && decide (v.k = k))))

/-- Writes of accesses of launch `li` with an identifier below `id` on core `k` that a home has not answered. -/
def State.answersBefore (s : State) (k li id : Nat) : Bool :=
  (s.coreOf k).pend.any (fun a => a.writes && a.li == li && decide (a.id < id))

/-- Add DONE of a launch (13 R342). -/
def State.addDone (s : State) (l : Launch) : State :=
  if bitsOf l.lr.w3 62 1 = 1 then s.addGauge ⟨true, BitVec.ofNat 8 (bitsOf l.lr.w3 54 8)⟩ 1 else s

/-- Pieces of a launch (13 R339): the product of the extents. -/
def LaunchRec.ext (l : LaunchRec) (n : Nat) : Nat :=
  bitsOf ([l.w0, l.w1, l.w2].getD (n / 2) 0) (24 * (n % 2)) 24

def LaunchRec.count (l : LaunchRec) : Nat := (List.range 6).foldl (fun p n => p * l.ext n) 1

/-- EARLY_REACHED (R91): piece `q` of launch `li` counts as early; with EM, the last one adds DONE (13 R342). -/
def execEarlyReached (li : Nat) (q : Nat) (s : State) : Host.Outcome State Fault Refusal :=
  .next (match s.launch li with
    | none => s
    | some l =>
      match l.earlyWait.find? (fun e => e.1 == q) with
      | none => s
      | some e =>
        if s.writesBefore e.2.1 li e.2.2 then s
        else
          let l := { l with earlyWait := l.earlyWait.erase e, early := l.early + 1 }
          let em := bitsOf l.lr.w3 63 1 == 1
          if em && l.early = l.lr.count && !l.doneAdded then
            (s.setLaunch li (some { l with doneAdded := true })).addDone l
          else s.setLaunch li (some l))

/-! ## Core scratch (06 R193, R194) -/

/-- An access issued before identifier `n` that has not performed at core scope (14 R357). -/
def Core.openBefore (c : Core) (n : Nat) : Bool :=
  c.pend.any (fun a => decide (a.id < n) && !a.isFence && (a.rid.isNone || a.reads))

/-- CORE_SCRATCH_SWITCH_END (R194): every earlier access of A has performed; the new L1CFG is in force, and the ways that
pass to core scratch read as zero. -/
def execCoreScratchSwitchEnd (s : State) : Host.Outcome State Fault Refusal :=
  .next (match s.core.pc.l1pend with
    | none => s
    | some (v, n) =>
      if s.core.openBefore n then s
      else
        let old := s.core.pc.l1cfg.toNat * 32768
        let new := v.toNat * 32768
        let lo := scrKey s.k (min old new)
        let hi := scrKey s.k (max old new)
        let out (k : Nat) : Bool := decide (k < lo) || decide (hi ≤ k)
        let s : State := { s with mem := s.mem.filter (fun c => out c.1), pois := s.pois.filter (fun p => out (32 * p.1)) }
        s.setPiece { s.core.pc with l1cfg := v, l1pend := none })

/-! ## Core failure (21 R502) -/

/-- The spare core of the cluster is used: by the repair map, or for a core that failed (11 R297). -/
def State.spareUsed (s : State) (clu : Nat) : Bool :=
  s.pkg.noSpare.toNat.testBit clu || s.allCores.any (fun e => cluOf e.1 == clu && e.2.failed)

/-- The physical core of a cluster that holds no logical index: the spare (11 R297). -/
def State.sparePhys (s : State) (clu : Nat) : BitVec 4 :=
  let used := (List.range 8).map (fun i => Map.get 0 s.pkg.phys (8 * clu + i))
  (((List.range 9).map (BitVec.ofNat 4)).find? (fun p => !used.contains p)).getD 8

/-- The core in focus fails (R502): the piece ends as faulted; the spare core takes the logical index, or, with no spare left,
the core is dead. -/
def State.failCore (s : State) : State :=
  let dead := s.spareUsed s.clu
  let s := if s.core.pc.run then s.faultPiece none else s
  let s := if dead then s else s.setPkg { s.pkg with phys := Map.set 0 s.pkg.phys s.k (s.sparePhys s.clu) }
  s.setCore { Core.reset with engq := s.core.engq, lastCopy := s.core.lastCopy, pend := s.core.pend, copies := s.core.copies,
                              ga := s.core.ga, epir := s.core.epir, started := s.core.started, vcWait := s.core.vcWait, failed := true,
                              halt := if dead then .dead else .none }

end Sys2Proof.Machine
end

