-- ==== Sys2Proof/Machine/Domain.lean ====
section
/-! DEFINITION. Glue-up domains (21 R485, R486, R501): ranks, the tree, the acting root, and the notice that a device sends of
its own loss. The layout of the payloads is the model's (log entry 20). -/
namespace Sys2Proof.Machine

def GCtx.nm (g : GCtx) : Nat := bitsOf g.glucfg 41 13
def GCtx.stride (g : GCtx) : Nat := bitsOf g.glucfg 29 12
def GCtx.base (g : GCtx) : Nat := bitsOf g.glucfg 17 12
def GCtx.alim (g : GCtx) : Nat := bitsOf g.glucfg 56 8

/-- Peer number of a rank, before substitution. -/
def GCtx.peerOf (g : GCtx) (i : Nat) : Nat := g.base + g.stride * i

/-- The device that is rank `i`. -/
def State.domPeer (s : State) (c : Ctx) (i : Nat) : BitVec 12 := s.standIn (BitVec.ofNat 12 ((s.gctx c).peerOf i))

/-- Rank of a peer in the domain of a context. -/
def State.rankOfPeer (s : State) (c : Ctx) (p : BitVec 12) : Option Nat :=
  let g := s.gctx c
  if g.nm = 0 || 4095 < g.peerOf (g.nm - 1) then none else (List.range g.nm).find? (fun i => s.domPeer c i == p)

/-- This device's rank; none where GLUCFG disables steps (R486). -/
def State.domRank (s : State) (c : Ctx) : Option Nat := s.rankOfPeer c s.peer

/-- The nearest ancestor of rank `i` that is not lost. Fuel bounds the depth of the tree. -/
def liveAncestor (lost : List Nat) : Nat → Nat → Option Nat
  | 0, _ => none
  | fuel + 1, i =>
    if i = 0 then none
    else if lost.contains ((i - 1) / 32) then liveAncestor lost fuel ((i - 1) / 32) else some ((i - 1) / 32)

/-- The lowest rank that is not lost. -/
def GCtx.rootWith (g : GCtx) (lost : List Nat) : Nat := ((List.range g.nm).find? (fun i => !lost.contains i)).getD 0

/-- The acting root, as declared. -/
def GCtx.root (g : GCtx) : Nat := g.rootWith g.lost

/-- The acting root once the ranks reported lost are counted as lost too. -/
def GCtx.nextRoot (g : GCtx) : Nat := g.rootWith (g.lost ++ g.notices)

/-- Where rank `i` sends (R485): its nearest live ancestor, else the acting root; the acting root sends to none. -/
def GCtx.parent (g : GCtx) (i : Nat) : Option Nat :=
  if i = g.root then none else some ((liveAncestor g.lost 4 i).getD g.root)

/-- Live ranks that send to rank `j`. -/
def GCtx.children (g : GCtx) (j : Nat) : List Nat :=
  (List.range g.nm).filter (fun i => !g.lost.contains i && i != j && g.parent i == some j)

/-- A GLU packet to a rank. -/
def State.sendGlu (s : State) (c : Ctx) (rank : Nat) (op : BitVec 8) (bs : Bytes) : State :=
  s.send { pkZero with dst := BitVec.ofNat 12 ((s.gctx c).peerOf rank), vc := vcGlu, ctx := c, op := op, data := flitsOf 8 bs }

/-- A lost notice for a rank, to the rank that is acting root without it (R501). -/
def State.sendNotice (s : State) (c : Ctx) (rank : Nat) : State :=
  let g := s.gctx c
  let r := g.rootWith (rank :: (g.lost ++ g.notices))
  if some r = s.domRank c then s else s.sendGlu c r 0x25 (bytesLE 2 rank)

/-- The device is lost to every domain that it is in: it sends a lost notice for itself (R501, R502). -/
def State.lostSelf (s : State) : State :=
  (List.range 16).foldl (fun s n =>
    match s.domRank (BitVec.ofNat 4 n) with
    | some r => s.sendNotice (BitVec.ofNat 4 n) r
    | none => s) s

end Sys2Proof.Machine
end

