-- ==== Sys2Proof/Machine/Die.lean ====
section
/-! DEFINITION. The command processor (13 R328 to R335, R514) and the life of a launch up to its placement (R336 to R343):
streams, the fourteen commands, acceptance, completion, and the terms of a predicate. -/
namespace Sys2Proof.Machine

/-! ## Streams -/

def streamEmpty : Stream :=
  ⟨0, 0, 0, 0, 0, 0, 0, 0, [], 0, [], [], none, none, false, [], []⟩
def State.streamOf (s : State) (n : BitVec 6) : Stream := Map.get streamEmpty s.die.streams n.toNat
def State.setStream (s : State) (n : BitVec 6) (x : Stream) : State :=
  s.setDie { s.die with streams := Map.set streamEmpty s.die.streams n.toNat x }

def State.mapStreams (s : State) (f : Stream → Stream) : State :=
  s.setDie { s.die with streams := Map.mapVals streamEmpty f s.die.streams }

/-- The index after `i` in the ring (R329). -/
def Stream.next (x : Stream) (i : W32) : W32 := if x.size = 0 then i + 1 else BitVec.ofNat 32 ((i.toNat + 1) % x.size.toNat)

/-- HEAD and TAIL count modulo SIZE (R329). -/
def Stream.index (x : Stream) (i : W32) : Nat := if x.size = 0 then i.toNat else i.toNat % x.size.toNat

/-- Raise the stream's host interrupt (R331, R334). -/
def Stream.interrupt (x : Stream) (on : Bool) : Stream := { x with intr := x.intr || on }

/-- A context's glue-up holds back its steps: STATE 5, 6 or 7 (21 R489). -/
def State.gluHolds (s : State) (c : Ctx) : Bool := decide (5 ≤ (s.gctx c).st.toNat)

/-- A stream runs (R328), the boot has ended well (18 R424), and its previous command has completed (R514). One that holds a
step waits while its context's glue-up is in STATE 5, 6 or 7 (21 R489). In one cycle streams are served in ascending order. -/
def State.streamRuns (s : State) (n : BitVec 6) : Bool :=
  let x := s.streamOf n
  !(x.step.isSome && s.gluHolds x.ctx) &&
  bitsOf s.pkg.bootst 0 4 == 4 && !s.pkg.off && (x.state == 1 || x.state == 2) && x.index x.head != x.index x.tail &&
  s.mayGo resStreams n.toNat && (match x.busy with
    | some c => decide (c ≤ s.cyc)
    | none => true) && !s.asking (.cmd n.toNat)

/-- What became of a command: it has finished and HEAD goes on, or to a place of its own; it waits (STATE 2), with or without
an effect; or it is a stream fault. -/
inductive CmdRes where
  | done (s : State)
  | goto (s : State) (head : W32)
  | hold (s : State)
  | wait
  | fault (code : Nat)
  deriving DecidableEq, Repr

/-- A stream fault (R334): HEAD stays. -/
def State.streamFault (s : State) (n : BitVec 6) (code : Nat) : State :=
  s.setStream n (({ s.streamOf n with state := 4, fcode := BitVec.ofNat 8 code } : Stream).interrupt true)

/-- Run the command at HEAD of stream `n`. What was read for it is forgotten once it has finished or has been refused. -/
def command (n : BitVec 6) (s : State) (f : Stream → CmdRes) : Host.Outcome State Fault Refusal :=
  .next (
    let x := s.streamOf n
    if !s.streamRuns n then s
    else match f { x with busy := none } with
      | .done s =>
        let s := s.dropGot (whoStream n.toNat)
        (s.setStream n { s.streamOf n with head := x.next x.head, state := (if (s.streamOf n).state = 3 then 3 else 1) }).went
          resStreams n.toNat
      | .goto s h => ((s.dropGot (whoStream n.toNat)).setStream n { s.streamOf n with head := h, state := 1 }).went resStreams n.toNat
      | .hold s => (s.setStream n { s.streamOf n with state := 2 }).went resStreams n.toNat
      | .wait => s.setStream n { x with state := 2 }
      | .fault c => ((s.dropGot (whoStream n.toNat)).streamFault n c).went resStreams n.toNat)

/-- A command that is passed over when it stands in a part of a LOOP or IF that does not run. -/
def commandUnless (n : BitVec 6) (s : State) (f : Stream → CmdRes) : Host.Outcome State Fault Refusal :=
  command n s (fun x => if x.skip ≠ 0 then .done s else f x)

/-! ## Memory of the command processor -/

/-- Bytes and granule tags at a device-virtual address of a context, as the command processor reads them; a poisoned sector cannot be read
(log entry 32). What another peer holds is asked of it for `who`, sector by sector (19 R441). -/
def State.cpRead (s : State) (c : Ctx) (va n who : Nat) : Chk (Bytes × List Bool) :=
  match s.page c va with
  | none => raise .translationFault
  | some p =>
    let pa := p.pa + (va - p.va)
    if p.transit then .error .wait
    else if !p.r then raise .accessFault
    else if s.remote pa then
      (sectorBases pa n).foldlM (fun (x : Bytes × List Bool) b => do
        let lo := max pa b
        let m := min (pa + n) (b + 32) - lo
        let g ← s.farSector who lo
        if g.bad then raise .poisonConsumed
        else .ok (x.1 ++ (g.bs.drop (lo % 32)).take m, x.2 ++ (List.range (m / 16)).map (fun i => g.tags.toNat.testBit (lo / 16 % 2 + i)))) ([], [])
    else
      let k := pa % 2 ^ 45
      if (unitsOf 32 k n).any (fun u => s.vpois (32 * u)) then raise .poisonConsumed
      else .ok (s.vload k n, (List.range (n / 16)).map (fun i => s.vtag (k + 16 * i)))

/-! ## The launch record (R336, R337) -/

def lrOf (bs : Bytes) (tags : List Bool) : LaunchRec :=
  let cap (i : Nat) : Cap := ⟨tags.getD i false, BitVec.ofNat 128 (natLE ((bs.drop (16 * i)).take 16))⟩
  let w (i : Nat) : W64 := BitVec.ofNat 64 (natLE ((bs.drop (80 + 8 * i)).take 8))
  ⟨cap 0, cap 1, cap 2, cap 3, cap 4, w 0, w 1, w 2, w 3, w 4, w 5, false⟩

def LaunchRec.wid (l : LaunchRec) (n : Nat) : Nat := bitsOf ([l.w0, l.w1, l.w2].getD (n / 2) 0) (48 + 6 * (n % 2)) 6
def LaunchRec.ordAt (l : LaunchRec) (k : Nat) : Nat := bitsOf l.w3 (3 * k) 3
def LaunchRec.ctx (l : LaunchRec) : Ctx := BitVec.ofNat 4 (bitsOf l.w3 26 4)
def LaunchRec.pri (l : LaunchRec) : Nat := bitsOf l.w3 22 3
def LaunchRec.tok (l : LaunchRec) : Nat := max 1 (bitsOf l.w3 46 8)
def LaunchRec.bind (l : LaunchRec) : Nat := bitsOf l.w3 19 3
def LaunchRec.fixed (l : LaunchRec) : Bool := bitsOf l.w3 18 1 == 1
def LaunchRec.idem (l : LaunchRec) : Bool := bitsOf l.w3 25 1 == 1
def LaunchRec.est (l : LaunchRec) : Nat := bitsOf l.w4 48 16

/-- A word W0 to W2 with the extent of field `n` replaced (R331). -/
def putExt (w : W64) (odd : Bool) (v : W32) : W64 :=
  let sh := if odd then 24 else 0
  (w &&& ~~~((0xFFFFFF : W64) <<< sh)) ||| ((v.zeroExtend 64 &&& 0xFFFFFF) <<< sh)

/-- Replace EXTn by a word of LAUNCHI; a word with [31:24] nonzero is noted (R340). -/
def LaunchRec.replace (l : LaunchRec) (n : Nat) (v : W32) : LaunchRec :=
  let l := { l with big := l.big || decide (2 ^ 24 ≤ v.toNat) }
  match n / 2 with
  | 0 => { l with w0 := putExt l.w0 (n % 2 == 1) v }
  | 1 => { l with w1 := putExt l.w1 (n % 2 == 1) v }
  | _ => { l with w2 := putExt l.w2 (n % 2 == 1) v }

/-- The checks of R340, as one question: the launch is rejected with Extent Overflow. -/
def LaunchRec.rejects (l : LaunchRec) : Bool :=
  l.big || (List.range 6).any (fun n => decide (2 ^ l.wid n < l.ext n)) ||
  decide (64 < ((List.range 6).map l.wid).foldl (· + ·) 0) ||
  (List.range 6).any (fun lv => !((List.range 6).map l.ordAt).contains lv)

/-- Terms of the predicate (R343): used, gauge, threshold. -/
def LaunchRec.term (l : LaunchRec) (second : Bool) : Bool × Term :=
  let w := if second then l.w5 else l.w4
  (bitsOf w 40 1 == 1, ⟨BitVec.ofNat 32 (bitsOf w 0 32), second && bitsOf l.w5 41 1 == 1, 65536 + bitsOf w 32 8⟩)

/-- The predicate of a launch on the gauges as they stand (R343). -/
def State.launchHolds (s : State) (l : LaunchRec) : Bool :=
  let (u0, t0) := l.term false
  let (u1, t1) := l.term true
  if u0 && u1 then (if t1.or_ then s.termHolds t0 || s.termHolds t1 else s.termHolds t0 && s.termHolds t1)
  else if u0 then s.termHolds t0
  else if u1 then s.termHolds t1 else true

/-- Error bit of a device gauge (R342). -/
def State.gaugeErr (s : State) (n : Nat) : Bool := Map.get false s.shr.gerr n
def State.setGaugeErr (s : State) (n : Nat) (b : Bool) : State :=
  s.setShr { s.shr with gerr := Map.set false s.shr.gerr n b }

/-! ## Completion (R341, R342) -/

/-- How a launch completes; `aborted` is a cancellation by abort. -/
inductive LEnd where
  | retired | faulted | cancelled | rejected | aborted
  deriving DecidableEq, Repr

/-- Requests of a launch that await their answer. -/
def State.reqsOf (s : State) (li : Nat) : List (Nat × Nat) :=
  s.fab.req.filterMap (fun e => match e.2 with
    | some r => if r.li = li then some (e.1, r.sent) else none
    | none => none)

/-- Free slots for a peer's link (17 R415): OP 0x07, the count in the first flit (the model's layout, log entry 20). -/
def freeSlotsPk (peer : BitVec 12) (c : Ctx) (att : BitVec 16) (m : Nat) : Packet :=
  { pkZero with dst := peer, vc := vcReq, ctx := c, op := 7, att := att, data := [BitVec.ofNat 256 m] }

/-- Fields of a Dovetail entry (17 R409). -/
def dvKind (e : BitVec 128) : Nat := nb e.toNat 0 4
def dvAf (e : BitVec 128) : Bool := nb e.toNat 4 1 == 1
def dvLidx (e : BitVec 128) : Nat := nb e.toNat 18 10
def dvSlot (e : BitVec 128) : Nat := nb e.toNat 28 6
def dvUp (e : BitVec 128) : Option Nat := if nb e.toNat 36 1 = 1 then some (nb e.toNat 34 2) else none
def dvDn (e : BitVec 128) : Option Nat := if nb e.toNat 39 1 = 1 then some (nb e.toNat 37 2) else none
def dvIg (e : BitVec 128) : Nat := nb e.toNat 88 8
def dvTh (e : BitVec 128) : W32 := BitVec.ofNat 32 (nb e.toNat 96 32)

def State.setDove (s : State) (d : Dove) : State := s.setPkg { s.pkg with dv := d }
def Dove.slot (d : Dove) (n : Nat) : BitVec 2 := Map.get 0 d.slots n
def Dove.setSlot (d : Dove) (n : Nat) (v : BitVec 2) : Dove := { d with slots := Map.set 0 d.slots n v }
def Dove.link (d : Dove) (n : Nat) : W64 := Map.get 0 d.links n
def linkPeer (l : W64) : BitVec 12 := BitVec.ofNat 12 (bitsOf l 32 12)

/-- Send `m` free slots to the peer of an UP link. -/
def State.sendFree (s : State) (l : Nat) (m : Nat) : State :=
  let d := s.pkg.dv
  s.send (freeSlotsPk (linkPeer (d.link l)) d.ctx (s.ctx d.ctx).step.t m)

/-- A Dovetail launch has completed (17 R413, R414): a retired F holds its slot and may send a free slot upstream, a
retired B frees it; a launch that ends otherwise never retires. -/
def State.doveEnds (s : State) (li : Nat) (e : LEnd) : State :=
  let d := s.pkg.dv
  match d.live.find? (fun x => x.1 == li) with
  | none => s
  | some (_, en) =>
    if e = .retired then
      let adv := d.cur == some li
      let d := { d with live := d.live.filter (fun x => x.1 != li), cur := if adv then none else d.cur,
                        pos := if adv then d.pos + 1 else d.pos }
      let s := s.setDove (d.setSlot (dvSlot en) (if dvKind en = 1 then 2 else 0))
      match dvUp en with
      | some l => if dvKind en = 1 && dvAf en then s.sendFree l 1 else s
      | none => s
    else s.setDove { d with live := d.live.map (fun x => if x.1 = li then (li + 1024, x.2) else x),
                            cur := if d.cur = some li then some (li + 1024) else d.cur }

/-- A launch completes: DONE and its error bit (R342), the streams that wait for it, the index is freed. -/
def State.finishLaunch (s : State) (li : Nat) (e : LEnd) : State :=
  match s.launch li with
  | none => s
  | some l =>
    let rs := s.reqsOf li
    let ws := if s.allCores.any (fun c => s.writesBefore c.1 li s.nextId || s.answersBefore c.1 li s.nextId) then [(li, s.nextId)]
      else []
    let s := s.setLaunch li none
    let s := s.setDie { s.die with promoted := s.die.promoted.filter (· != li) }
    let s := s.mapStreams (fun x =>
      { x with owed := if x.launches.contains li then x.owed ++ rs else x.owed,
               wrote := if x.launches.contains li then x.wrote ++ ws else x.wrote,
               launches := x.launches.filter (· != li),
               signals := x.signals.map (fun g => { g with after := g.after.filter (· != li) }) })
    let s := if e = .aborted || l.doneAdded then s else s.addDone l
    let bad := bitsOf l.lr.w3 62 1 == 1 && (match e with
      | .faulted | .cancelled | .rejected => true
      | _ => false)
    let s := if bad then s.setGaugeErr (bitsOf l.lr.w3 54 8) true else s
    s.doveEnds li e

/-! ## Acceptance (R333, R340) -/

/-- A launch index in no use, by free choice. -/
def State.freeLaunch (s : State) : Option Nat :=
  let l := (List.range 1024).filter (fun i => (s.launch i).isNone)
  if l.isEmpty then none else some (l.getD (s.freeIdx 300 % l.length) 0)

/-- A launch as it stands when it is accepted. -/
def newLaunch (uid : Nat) (lr : LaunchRec) (n : BitVec 6) (head : Nat) (inStep : Bool) : Launch :=
  { lr := lr, uid := uid, state := .waiting, stream := n, seq := 0, taken := [], again := [], saved := [], groups := [], earlyWait := [],
    ended := 0, early := 0, doneAdded := false, deficit := [], waitFrom := 0, inStep := inStep, halted := false,
    debugger := false, holds := false, head := head, given := [] }

/-- Accept a launch under index `li`: rejected, retired at once, or waiting (R340, R341). It is inside the attempt if its
context has one open (DEDUCED, log entry 30). -/
def State.acceptLaunch (s : State) (li : Nat) (lr : LaunchRec) (n : BitVec 6) (head : Nat) (inStep : Bool) : State :=
  let s := s.setLaunch li (some (newLaunch s.nextId lr n head inStep)) |>.fresh
  if lr.rejects then (s.nameTrap li ⟨.extentOverflow, 0, 0⟩).finishLaunch li .rejected
  else if lr.count = 0 then s.finishLaunch li .retired else s

/-- Read a launch record, and the extents of LAUNCHI (R331, R333). -/
def State.readRecord (s : State) (c : Ctx) (ra : W64) (msk : BitVec 6) (xa : W64) (who : Nat) : Chk LaunchRec := do
  if ra.toNat % 128 ≠ 0 || (msk ≠ 0 && xa.toNat % 32 ≠ 0) then raise .misaligned
  else
    let (bs, ts) ← s.cpRead c ra.toNat 128 who
    let lr := lrOf bs ts
    if msk = 0 then .ok lr
    else
      let (xs, _) ← s.cpRead c xa.toNat 24 who
      .ok ((List.range 6).foldl (fun lr n =>
        if msk.toNat.testBit n then lr.replace n (BitVec.ofNat 32 (natLE ((xs.drop (4 * n)).take 4))) else lr) lr)

/-- LAUNCH and LAUNCHI (R333). -/
def launchCmd (n : BitVec 6) (msk : BitVec 6) (ra xa : W64) (s : State) : Host.Outcome State Fault Refusal :=
  commandUnless n s (fun x =>
    match s.readRecord x.ctx ra msk xa (whoStream n.toNat) with
    | .error .wait => .wait
    | .error (.ask who pa) => .hold (s.askFar who pa x.ctx 1024 0)
    | .error _ => .fault 3
    | .ok lr =>
      if !x.cmsk.toNat.testBit lr.ctx.toNat then .fault 4
      else match s.freeLaunch with
        | none => .wait
        | some li =>
          let s := s.setStream n { x with launches := x.launches ++ [li] }
          .done (s.acceptLaunch li lr n x.head.toNat (s.ctx lr.ctx).step.open_))

def execLaunch (n : BitVec 6) (ra : W64) (s : State) : Host.Outcome State Fault Refusal := launchCmd n 0 ra 0 s

/-- LAUNCHI with an empty mask still needs its extents address to be aligned and to translate (R333). -/
def execLaunchi (n : BitVec 6) (msk : BitVec 6) (ra xa : W64) (s : State) : Host.Outcome State Fault Refusal :=
  if (s.streamOf n).skip = 0 && (decide (xa.toNat % 32 ≠ 0) || (s.page (s.streamOf n).ctx xa.toNat).isNone) then
    command n s (fun _ => .fault 3)
  else launchCmd n msk ra xa s

/-! ## Loops and conditions (R331, R332) -/

/-- A device gauge by number. -/
def dgauge (g : BitVec 8) : Gauge := ⟨true, g⟩

def execCmdLoop (n : BitVec 6) (cnt : W64) (s : State) : Host.Outcome State Fault Refusal :=
  command n s (fun x =>
    if 8 ≤ x.nest.length then .fault 2
    else if x.skip ≠ 0 || cnt = 0 then
      .done (s.setStream n { x with nest := .loop 0 0 :: x.nest, skip := x.skip + 1 })
    else .done (s.setStream n { x with nest := .loop (x.next x.head).toNat cnt.toNat :: x.nest }))

def execEndLoop (n : BitVec 6) (s : State) : Host.Outcome State Fault Refusal :=
  command n s (fun x =>
    match x.nest with
    | .loop pos left :: r =>
      if x.skip ≠ 0 then .done (s.setStream n { x with nest := r, skip := x.skip - 1 })
      else if left > 1 then .goto (s.setStream n { x with nest := .loop pos (left - 1) :: r }) (BitVec.ofNat 32 pos)
      else .done (s.setStream n { x with nest := r })
    | _ => .fault 2)

def execCmdIf (n : BitVec 6) (neg : Bool) (tau : BitVec 32) (g : BitVec 8) (s : State) : Host.Outcome State Fault Refusal :=
  command n s (fun x =>
    if 8 ≤ x.nest.length then .fault 2
    else if x.skip ≠ 0 then .done (s.setStream n { x with nest := .cond false false :: x.nest, skip := x.skip + 1 })
    else
      let c := reached (s.gauge (dgauge g)) tau != neg
      .done (s.setStream n { x with nest := .cond c false :: x.nest, skip := if c then 0 else 1 }))

def execCmdElse (n : BitVec 6) (s : State) : Host.Outcome State Fault Refusal :=
  command n s (fun x =>
    match x.nest with
    | .cond c false :: r =>
      let skip := if x.skip = 0 then 1 else if x.skip = 1 then 0 else x.skip
      .done (s.setStream n { x with nest := .cond c true :: r, skip := skip })
    | _ => .fault 2)

def execEndIf (n : BitVec 6) (s : State) : Host.Outcome State Fault Refusal :=
  command n s (fun x =>
    match x.nest with
    | .cond _ _ :: r => .done (s.setStream n { x with nest := r, skip := x.skip - 1 })
    | _ => .fault 2)

def execCmdWaitg (n : BitVec 6) (tau : BitVec 32) (g : BitVec 8) (s : State) : Host.Outcome State Fault Refusal :=
  commandUnless n s (fun _ => if reached (s.gauge (dgauge g)) tau then .done s else .wait)

/-! ## Signals, fences, writes -/

def execSignalImmediate (n : BitVec 6) (h : Bool) (amt : BitVec 32) (g : BitVec 8) (s : State) :
    Host.Outcome State Fault Refusal :=
  commandUnless n s (fun x => .done ((s.setStream n (x.interrupt h)).addGaugeAt (s.gKey (dgauge g)) amt))

def execSignalDeferred (n : BitVec 6) (h : Bool) (amt : BitVec 32) (g : BitVec 8) (s : State) :
    Host.Outcome State Fault Refusal :=
  commandUnless n s (fun x => .done (s.setStream n { x with signals := x.signals ++ [⟨x.launches, g, amt, h⟩] }))

/-- SIGNAL_DEFERRED_APPLY (R331): the oldest deferred SIGNAL whose launches have all completed. -/
def execSignalDeferredApply (n : BitVec 6) (s : State) : Host.Outcome State Fault Refusal :=
  .next (
    let x := s.streamOf n
    match x.signals with
    | ⟨[], g, amt, h⟩ :: r => (s.setStream n ({ x with signals := r }.interrupt h)).addGaugeAt (s.gKey (dgauge g)) amt
    | _ => s)

/-- FENCE (R331): every launch accepted earlier has completed, and the writes of those that completed with writes outstanding (faulted
or cancelled ones) have performed; at fabric scope the answers must have come too. -/
def execCmdFence (n : BitVec 6) (fab : Bool) (s : State) : Host.Outcome State Fault Refusal :=
  commandUnless n s (fun x =>
    let open_ := x.owed.filter (fun e => match Map.get none s.fab.req e.1 with
      | some r => r.sent == e.2
      | none => false)
    let near (e : Nat × Nat) : Bool := s.allCores.any (fun c => s.writesBefore c.1 e.1 e.2)
    let far (e : Nat × Nat) : Bool := s.allCores.any (fun c => s.answersBefore c.1 e.1 e.2)
    if !x.launches.isEmpty || x.wrote.any near || (fab && (!open_.isEmpty || x.wrote.any far)) then .wait
    else .done (s.setStream n { x with owed := open_, wrote := x.wrote.filter (fun e => near e || far e) }))

/-- WRITE with G = 0 (R514). -/
def execWrite (n : BitVec 6) (v : W64) (ad : W64) (s : State) : Host.Outcome State Fault Refusal :=
  commandUnless n s (fun x =>
    let st := (s.ctx x.ctx).step
    match s.page x.ctx ad.toNat with
    | none => .fault 7
    | some p =>
      let pa := p.pa + (ad.toNat - p.va)
      if ad.toNat % 8 ≠ 0 || !p.w || (p.vers && !st.open_) then .fault 7
      else if p.transit then .wait
      else if s.remote pa then
        (if !s.peerExists (pa / 2 ^ 45) then .fault 7
         else .done (s.request ⟨.cmd n.toNat, pa, 8, x.ctx, 1024, 0, false, 0, 0⟩ (storePk (bytesLE 8 v.toNat) 0 st.t true)))
      else .done ((s.clean (pa % 2 ^ 45)).vstore (pa % 2 ^ 45) (bytesLE 8 v.toNat) false))

/-- WRITE with G = 1 (R331): takes effect 20 cycles later and clears the gauge's error bit. -/
def execWriteGauge (n : BitVec 6) (v : W64) (g : BitVec 8) (s : State) : Host.Outcome State Fault Refusal :=
  commandUnless n s (fun x =>
    let key := s.gKey (dgauge g)
    let w : GaugeWr := ⟨s.cyc + 20, 0, v.truncate 32, true⟩
    let s := s.setStream n { x with busy := some (s.cyc + 20) }
    .done (s.setShr { s.shr with gaugeWr := Map.set [] s.shr.gaugeWr key (Map.get [] s.shr.gaugeWr key ++ [w]) }))

def execHalt (n : BitVec 6) (h : Bool) (s : State) : Host.Outcome State Fault Refusal :=
  commandUnless n s (fun x => .done (s.setStream n ({ x with state := 3 }.interrupt h)))

/-! ## Steps (R335) -/

/-- What an abort gives back to the Dovetail (17 R418): position, slots, and FREE of each link as the attempt opens. -/
def State.doveOpens (s : State) (c : Ctx) : State :=
  let d := s.pkg.dv
  if d.ctx ≠ c then s
  else s.setDove { d with old := some (d.pos, d.slots, (List.range 4).map (fun i => (d.link i).truncate 16)) }

/-- The attempt opens (R335, R81, 20 R461): vetoes cleared, gauges saved, the sequence numbers as they stand. -/
def State.openStep (s : State) (n : BitVec 6) (x : Stream) (k : W64) (stok f : BitVec 8) (m : BitVec 9) : State :=
  let r := s.ctx x.ctx
  let keys := (List.range m.toNat).map (fun i => f.toNat + i)
  let saved := keys.map (fun i => (s.gauge (dgauge (BitVec.ofNat 8 i)), s.gaugeErr i))
  let st := { r.step with k := k, vf := 0, open_ := true, closed := false, wait := false, stok := stok, f := f.toNat,
                          saved := saved, stream := n, pos := x.next x.head, nest := x.nest, notes := [], lossCnt := false,
                          lossPend := none }
  let s := s.setCtx x.ctx { r with step := st, knext := none }
  let g := s.gctx x.ctx
  let s := s.setGctx x.ctx { g with nseqOld := g.nseq, voted := false, vetoed := false }
  let s := s.doveOpens x.ctx
  s.scribeOpen x.ctx

/-- The retry of an aborted attempt opens (R335, 21 R493): the same step, with what STEPOPEN saved. -/
def State.reopenStep (s : State) (c : Ctx) : State :=
  let r := s.ctx c
  if !r.step.wait then s
  else
    let st := { r.step with vf := 0, open_ := true, closed := false, wait := false, notes := [], lossCnt := false, lossPend := none }
    let s := s.setCtx c { r with step := st }
    let g := s.gctx c
    let s := s.setGctx c { g with nseqOld := g.nseq, voted := false, vetoed := false }
    (s.doveOpens c).scribeOpen c

/-- STEPOPEN (R335, 16 R386, R391, 21 R486, R489). -/
def execStepopen (n : BitVec 6) (k : W64) (stok : BitVec 8) (f : BitVec 8) (m : BitVec 9) (s : State) :
    Host.Outcome State Fault Refusal :=
  commandUnless n s (fun x =>
    let r := s.ctx x.ctx
    if (s.domRank x.ctx).isNone then .fault 5
    else if s.logAway x.ctx then .hold (s.scribeFetch x.ctx)
    else if r.step.open_ || r.step.wait || s.gluHolds x.ctx || decide (2 ^ 12 - 1 ≤ r.lag) ||
        (s.pkg.mo.await.isSome && bitsOf s.pkg.mo.cfg 4 4 == x.ctx.toNat) then .wait
    else if 256 < f.toNat + m.toNat then .fault 5
    else match r.knext with
      | some k' =>
        if k' ≠ k then .fault 5
        else .done ((s.setStream n { x with step := some x.nest.length }).openStep n x k stok f m)
      | none => .done ((s.setStream n { x with step := some x.nest.length }).openStep n x k stok f m))

/-- STEPCLOSE (R335): the step closes, and the stream waits until the decision has been applied and the device has left
STATE 5. A commit lets it go on; what an abort does to the stream stands with the decision. -/
def execStepclose (n : BitVec 6) (s : State) : Host.Outcome State Fault Refusal :=
  commandUnless n s (fun x =>
    let r := s.ctx x.ctx
    let mine := r.step.open_ && r.step.stream == n
    match x.step with
    | none => .fault 5
    | some d =>
      if mine && !r.step.closed then
        (if x.nest.length ≠ d then .fault 2
         else .hold (s.setCtx x.ctx { r with step := { r.step with closed := true } }))
      else if mine || r.step.wait then .wait
      else .done (s.setStream n { x with step := none }))

/-! ## Events of a launch -/

/-- LAUNCH_READY (R343): the predicate held at an evaluation; an error bit on a used term's gauge cancels the launch. -/
def execLaunchReady (li : Nat) (s : State) : Host.Outcome State Fault Refusal :=
  .next (match s.launch li with
    | none => s
    | some l =>
      if l.state ≠ .waiting || !l.holds then s
      else
        let bad := [false, true].any (fun b => (l.lr.term b).1 && s.gaugeErr ((l.lr.term b).2.g - 65536))
        if bad then s.finishLaunch li .cancelled
        else
          let s := s.setDie { s.die with seq := s.die.seq + 1 }
          s.setLaunch li (some { l with state := .ready, seq := s.die.seq, waitFrom := s.cyc }))

/-- A piece of the launch runs on some core. -/
def State.runsOf (s : State) (li : Nat) : Bool := s.allCores.any (fun e => e.2.pc.run && e.2.pc.li == li)

/-- LAUNCH_RETIRE (R341): every piece has ended, and their writes and engine operations have performed at device scope. -/
def execLaunchRetire (li : Nat) (s : State) : Host.Outcome State Fault Refusal :=
  .next (match s.launch li with
    | none => s
    | some l =>
      if l.state = .running && l.ended = l.lr.count && !(bitsOf l.lr.w3 63 1 == 1 && !l.doneAdded) &&
          !s.allCores.any (fun e => s.writesBefore e.1 li s.nextId) then s.finishLaunch li .retired
      else s)

/-- LAUNCH_FAULTED (R350): a frozen launch of which no piece runs or waits checkpointed. -/
def execLaunchFaulted (li : Nat) (s : State) : Host.Outcome State Fault Refusal :=
  .next (match s.launch li with
    | none => s
    | some l => if l.state = .frozen && l.saved.isEmpty && !s.runsOf li then s.finishLaunch li .faulted else s)

end Sys2Proof.Machine
end

