-- ==== Sys2Proof/Machine/Image.lean ====
section
/-! DEFINITION. The save image of a checkpointed piece (09 R284 to R287, R289): when the piece has settled, the bytes of the image, its
cut vector and checksum, and when a restore is refused. -/
namespace Sys2Proof.Machine

/-! ## Results in flight (01 R41, R284) -/

/-- The cycle from which no register, row, window or control register of the core reads as undefined (R41). -/
def Core.landed (c : Core) : Nat :=
  let p := c.pc
  let top (n : Nat) (l : List Nat) : Nat := l.foldl max n
  let n := top c.sLanded (c.a.toList.map AReg.rdy ++ c.m.toList.map MReg.rdy ++ c.i.toList.map IReg.rdy)
  let n := top n (c.tiles.map (fun e => e.2.rdy) ++ c.hold.map (fun e => max e.2.vFrom (max e.2.mFrom e.2.epi)))
  top n (p.csrRdy.map Prod.snd ++ p.rngOld.flatMap (fun e => e.2.map (fun w => w.1 + 3)) ++ c.spOld.map (fun e => e.1 + 3) ++ [p.vwinAt + 2, p.vtAt + 2])

/-- An EPIR whose next row could have left and has not: it is stalled by back-pressure (R289). -/
def Epir.stalledAt (x : Epir) : Option Nat :=
  match x.left with
  | [] => none
  | r :: _ => some (max x.since (x.start + (if x.tr then 63 else r)))

/-- Results, operations, copies and accesses of the piece have landed (R284); of its EPIRs only stalled ones remain (R289). -/
def State.settled (s : State) : Bool :=
  let c := s.core
  c.engq.all (fun e => e.2.isEmpty) && c.copies.isEmpty && c.ga.isEmpty &&
  c.land.isEmpty && c.usePend.isEmpty && c.routePend.isEmpty && c.pend.isEmpty && decide (c.array ≤ s.cyc) &&
  !s.fab.colls.any (fun x => x.op.core == s.k) && !s.fab.sends.any (fun x => x.op.core == s.k) &&
  c.pc.l1pend.isNone && decide (c.landed ≤ s.cyc) &&
  c.epir.all (fun x => x.pid != c.pc.pid || (match x.stalledAt with
    | some t => decide (t < s.cyc)
    | none => false))

/-! ## The cut vector (R286) -/

/-- The queues of the cut vector in its order: q0 to q7, fq, pq, the three bq. -/
def cutQueues : List Nat := List.range 13

/-- The cut vector: entries pushed and popped since piece start, and operations started of each engine. -/
def Core.cut (c : Core) : Cut :=
  ⟨cutQueues.map (fun n => ((c.q n).pushed + (c.rq n).pushed, (c.q n).popped + (c.rq n).popped)),
    (List.range 7).map (fun e => Map.get 0 c.started e)⟩

/-- Pushed minus popped equals each queue's occupancy, modulo 2^32. -/
def Core.cutHolds (c : Core) : Bool :=
  (cutQueues.zip c.cut.qs).all (fun e => decide ((e.2.1 + 2 ^ 32 - e.2.2 % 2 ^ 32) % 2 ^ 32 = (c.q e.1).ents.length + (c.rq e.1).ents.length))

/-! ## The bytes (R285) -/

/-- Poison bits as bytes, bit 0 of byte 0 first. -/
def bitBytes (n : Nat) (f : Nat → Bool) : Bytes :=
  (List.range n).map (fun i => BitVec.ofNat 8 (packLanes 1 ((List.range 8).map (fun j => (f (8 * i + j)).toNat))))

/-- The header: work identifier, CYC at save, context, launch index, checksum, and from 0x40 the cut vector. -/
def Saved.header (v : Saved) (sum : Nat) : Bytes :=
  let p := v.core.pc
  let cut := v.cut.qs.flatMap (fun e => bytesLE 4 e.1 ++ bytesLE 4 e.2) ++ v.cut.started.flatMap (bytesLE 4)
  let h := bytesLE 8 p.wid.toNat ++ bytesLE 8 v.cyc ++ bytesLE 2 p.ctx.toNat ++ bytesLE 2 p.li ++ bytesLE 4 sum ++ List.replicate 40 0
  (h ++ cut ++ List.replicate 256 0).take 256

/-- A list of numbers with its length before it. -/
def counted (l : List Nat) : List Nat := l.length :: l

/-- What the part of the per-piece control registers holds. -/
def Saved.control (v : Saved) : List Nat :=
  let p := v.core.pc
  [p.tcause.toNat, p.taddr.toNat, p.tpc.toNat, p.tvec.toNat, p.epc.toNat, p.lc.toNat, p.lb.toNat, p.le.toNat, p.vwin.toNat, p.erchk.toNat,
    p.fpst.toNat, p.l1cfg.toNat, p.rngtid.toNat, p.rngcrd.toNat, p.rngstr.toNat, p.rngadv.toNat, p.mgrant.toNat, p.stepIn.toNat,
    p.handler.toNat, clCode p.hcl]

/-- A LOOP as the image holds it. -/
def LoopSt.nats (l : LoopSt) : List Nat := [l.n.toNat, l.b.toNat, l.e.toNat]

/-- A route as the image holds it. -/
def Route.nats (r : Route) : List Nat :=
  [r.addr.toNat, r.adv.toNat, r.pitch.toNat, r.val.toNat, r.dg.toNat, r.dgn.toNat, r.vw.toNat, r.seq.toNat, r.lo, r.hi, r.rm.toNat]

/-- What the part of the hidden state holds: tags and poison of g and a, VT, i registers, loop and REP state, route state, epilogue state
(R289), pending arms, pending reports. -/
def Saved.hidden (v : Saved) : List Nat :=
  let c := v.core
  let p := c.pc
  let epi (x : Epir) : List Nat :=
    [x.tile.toNat, x.job.of_.toNat, x.tr.toNat, (x.gauge.map BitVec.toNat).getD 64] ++ x.rt.nats ++ counted x.left
  c.g.toList.map (fun r => r.p.toNat) ++ c.a.toList.map (fun r => 2 * r.c.tag.toNat + r.p.toNat) ++ [p.vt.toNat] ++
  c.i.toList.map (fun r => r.v.toNat) ++ counted (p.aloop.toList.flatMap LoopSt.nats) ++ counted (p.mloop.toList.flatMap LoopSt.nats) ++
  counted (p.loopr.toList.flatMap (fun l => [l.left, l.kk, l.cnt, l.map.toNat, l.b.toNat, l.e.toNat])) ++
  counted (p.rep.toList.flatMap (fun r => [r.n, r.ia.toNat, r.ib.toNat, r.first.toNat])) ++
  counted (c.route.flatMap (fun e => e.1 :: e.2.nats)) ++ counted (c.epir.flatMap epi) ++
  counted (c.arm.flatMap (fun e => e.1 :: e.2.toList)) ++
  counted (p.reports.flatMap (fun r => [r.trap.cause.code, r.trap.sub.toNat, r.trap.addr.toNat, r.ins.toNat]))

/-- What the part of the queues holds: the entries of each, with their poison. -/
def Saved.queued (v : Saved) : List Nat :=
  cutQueues.flatMap (fun n => counted ((v.core.q n).ents.flatMap (fun e => [e.v.v.toNat, e.v.p.toNat])) ++
    counted ((v.core.rq n).ents.flatMap (fun e => [e.v.bits.toNat, e.v.p.toNat])))

/-- An entry of an engine stack as the image holds it. -/
def StkEnt.nats (e : StkEnt) : List Nat :=
  match e.attr with
  | .plain => [e.v.toNat, 0]
  | .cap c => [e.v.toNat, 1, c.tag.toNat, c.bits.toNat]
  | .slot => [e.v.toNat, 2]

/-- What the part of the engine stacks holds. -/
def Saved.stacks (v : Saved) : List Nat := v.core.stk.flatMap (fun e => e.1 :: counted (e.2.flatMap StkEnt.nats))

/-- What the part of the shape records and in-use bits holds. -/
def Saved.shapes (v : Saved) : List Nat :=
  v.core.use.toNat :: v.core.shape.flatMap (fun e => [e.1, e.2.val.toNat, e.2.fmt.toNat, e.2.rows.toNat, e.2.klen.toNat])

/-- Bytes of a part whose inner layout R285 does not give: free, as a function of what the part holds (log entry 69). -/
def inner (part : List Nat) (n : Nat) : Bytes := (List.range n).map (Config.imageByte part)

/-- The save image with a given checksum: 348,160 bytes, then core scratch. -/
def Saved.bytes (v : Saved) (sum : Nat) : Bytes :=
  let c := v.core
  (List.range 16).flatMap (fun n => c.slotBytes n 0 slotSize) ++
  (List.range 256).flatMap (fun k => bytesLE 256 (c.row k).bits.toNat) ++
  v.header sum ++
  c.g.toList.flatMap (fun r => bytesLE 8 r.v.toNat) ++
  c.a.toList.flatMap (fun r => bytesLE 16 r.c.bits.toNat) ++
  c.m.toList.flatMap (fun r => bytesLE 32 r.v.toNat) ++
  inner v.control 256 ++ inner v.hidden 256 ++ inner v.queued 4096 ++ inner v.stacks 2048 ++ inner v.shapes 256 ++
  bitBytes 1024 (fun i => Map.get false c.slotPois i) ++
  bitBytes 2048 (fun i => (c.row (i / 64)).p.toNat.testBit (i % 64)) ++
  List.replicate 8960 0 ++
  (List.range (32768 * c.pc.l1cfg.toNat)).map (fun i => readByte v.scr i)

/-- The checksum that the image's bytes give, its own field taken as 0 (log entry 69). -/
def Saved.checksum (v : Saved) : BitVec 32 := Config.imageSum (v.bytes 0)

/-- The save image of the piece on the core in focus. A stalled EPIR of the piece is in it, with the cursor: the lowest row not yet
acknowledged, from which rows are sent again (R289). Whether memory keeps the image whole is a free choice. -/
def State.image (s : State) : Saved :=
  let lo := scrKey s.k 0
  let hi := scrKey (s.k + 1) 0
  let again (x : Epir) : Epir :=
    let cur := (x.left ++ x.acks).foldl min x.nr
    { x with left := (List.range x.nr).filter (fun r => decide (cur ≤ r)), acks := [] }
  let c := { s.core with halt := .none, pc := s.core.pc.restart s.cyc, epir := (s.core.epir.filter (fun x => x.pid == s.core.pc.pid)).map again }
  let v : Saved := ⟨c, s.k, s.cyc, 0, c.cut, s.choice 302,
    (s.mem.filter (fun e => decide (lo ≤ e.1) && decide (e.1 < hi))).map (fun e => (e.1 - lo, e.2)),
    (s.pois.filter (fun p => decide (lo ≤ 32 * p.1) && decide (32 * p.1 < hi))).map (fun p => p.1 - lo / 32)⟩
  { v with sum := v.checksum }

/-- The checks of a restore (R287): the checksum of what memory gives back, which is a free value where the image was hit, and the cut
vector. -/
def State.imageHolds (s : State) (v : Saved) : Bool :=
  (if v.hit then s.free 32 303 else v.checksum) == v.sum && v.cut == v.core.cut && v.core.cutHolds

/-! ## What the debugger sees (R292) -/

/-- What the debugger sees of a halted core: registers with tags and poison, TCAUSE and the pc of each cluster, tiles, slots and records,
queues with their entries and counts, command queues, and the gauges, stops and barriers of its cluster. -/
structure DebugView where
  g : List GReg
  a : List AReg
  m : List MReg
  i : List IReg
  tcause : W64
  pcs : List W64
  tiles : Map Row
  slot : Nat → Byte
  slotBad : Nat → Bool
  shape : Map Shape
  qs : Map (Queue PV)
  qr : Map (Queue RowV)
  cut : Cut
  engq : Map (List Op)
  gauges : List W32
  stops : List Stop
  bars : List Barrier

/-- The debugger's view of core `k`. -/
def State.debugView (s : State) (k : Nat) : DebugView :=
  let c := s.coreOf k
  { g := c.g.toList, a := c.a.toList, m := c.m.toList, i := c.i.toList, tcause := c.pc.tcause,
    pcs := [c.cs.pc, c.ca.pc, c.cv.pc, c.cm.pc], tiles := c.tiles,
    slot := fun n => c.slotByte (n / slotSize) (n % slotSize), slotBad := fun n => c.slotBad (n / slotSize) (n % slotSize),
    shape := c.shape, qs := c.qs, qr := c.qr, cut := c.cut, engq := c.engq,
    gauges := (List.range 64).map (fun n => Map.get 0 s.shr.gauge (64 * cluOf k + n)),
    stops := (List.range 16).map (fun n => s.stop (16 * cluOf k + n)),
    bars := (List.range 16).map (fun n => s.barrier (16 * cluOf k + n)) }

end Sys2Proof.Machine
end

