-- ==== Sys2Proof/Machine/Jig.lean ====
section
/-! DEFINITION. The Jig walker (13 R338 to R353) and pre-emption at the core (09 R284 to R289): which piece a free core
receives, what a piece starts with, what becomes of a victim, and how a stopped piece leaves its core. -/
namespace Sys2Proof.Machine

/-! ## The pieces of a launch (R338, R339) -/

/-- Fields f0 to f5 of enumeration index `q` (R339): the innermost position of ORD varies fastest. -/
def LaunchRec.fields (l : LaunchRec) (q : Nat) : Map Nat :=
  ([5, 4, 3, 2, 1, 0].foldl (fun (st : Nat × Map Nat) k =>
    let lv := l.ordAt k
    (st.1 / l.ext lv, Map.set 0 st.2 lv (st.1 % l.ext lv))) (q, [])).2

/-- Offset of field `n` in the work identifier. -/
def LaunchRec.off (l : LaunchRec) (n : Nat) : Nat := ((List.range n).map l.wid).foldl (· + ·) 0

/-- The work identifier (R339). -/
def LaunchRec.widOf (l : LaunchRec) (q : Nat) : W64 :=
  BitVec.ofNat 64 ((List.range 6).foldl (fun w lv => w + Map.get 0 (l.fields q) lv * 2 ^ l.off lv) 0)

/-- A core on which pieces of the launch may run (R338). -/
def State.mayRun (s : State) (l : LaunchRec) (x : Nat) : Bool :=
  decide (x < 384) && (s.ctx l.ctx).coreSet.toNat.testBit x && bitsOf l.w3 (30 + x / 96) 1 == 1 &&
  bitsOf l.w3 (34 + x / 8 % 12) 1 == 1

def State.launchCores (s : State) (l : LaunchRec) : List Nat := (List.range 384).filter (fun x => s.mayRun l x)

/-- Position of `x` in a rising list: its rank. -/
def rankIn (l : List Nat) (x : Nat) : Nat := (l.filter (fun y => decide (y < x))).length

/-- Distinct values of a rising list. -/
def dedupe : List Nat → List Nat
  | [] => []
  | x :: r => if r.contains x then dedupe r else x :: dedupe r

/-- An operation that reads or writes the core's slots or tiles (06 R205). -/
def Op.local_ (o : Op) : Bool := o.args.any (fun e => e.attr == .slot)

/-- A core that may receive a piece (06 R205): it runs none, no copy into its slots is under way, nothing still reads its slots or tiles
(rows of an EPIR among them), and no access to its core scratch is open (06 R194). -/
def State.coreFree (s : State) (x : Nat) : Bool :=
  let c := s.coreOf x
  !c.pc.run && c.halt == .none && !(c.engq.any (fun e => e.2.any Op.local_)) &&
  !(c.copies.any (fun y => y.op.local_)) && !(c.ga.any (fun y => y.op.local_)) && c.land.isEmpty &&
  c.epir.all (fun y => y.left.isEmpty) && decide (c.array ≤ s.cyc) && !(c.pend.any (fun a => match a.loc with
    | .scr _ => true
    | _ => false))

/-- Piece `q` waits: it was never given to a core, or it was killed. -/
def Launch.due (l : Launch) (q : Nat) : Bool := l.again.contains q || !l.taken.contains q

/-- A piece of the launch waits (R347). -/
def Launch.waits (l : Launch) : Bool :=
  !l.saved.isEmpty || (l.state != .frozen && (!l.again.isEmpty || decide (l.taken.length < l.lr.count)))

/-- The first waiting piece among `f lo`, `f (lo + 1)`, ..., `f (hi - 1)`. -/
def Launch.firstDue (l : Launch) (f : Nat → Nat) (lo hi : Nat) : Option Nat :=
  ((List.range (min (hi - lo) (l.taken.length + 1))).map (fun i => f (lo + i))).find? l.due

/-- Pieces of a group (R344): the product of the extents from the bound level inwards. -/
def LaunchRec.groupSize (l : LaunchRec) : Option Nat :=
  if 5 < l.bind then none
  else
    let p := ((List.range 6).find? (fun k => l.ordAt k == l.bind)).getD 0
    some ((List.range (6 - p)).foldl (fun g i => g * l.ext (l.ordAt (p + i))) 1)

/-- The pieces of the groups that fall to rank `r` of `n`, in ascending order: how many, and the `j`-th (R345, R346). -/
def groupCount (total g r n : Nat) : Nat := (total / g + n - 1 - r) / n * g
def groupPiece (g r n j : Nat) : Nat := (r + n * (j / g)) * g + j % g

/-- The next piece of a launch under fixed placement on core `x` (R345). -/
def State.fixedPiece (s : State) (l : Launch) (x : Nat) : Option Nat :=
  let cores := s.launchCores l.lr
  let n := l.lr.count
  match l.lr.groupSize with
  | none =>
    let c := rankIn cores x
    l.firstDue (fun j => j) (c * n / cores.length) ((c + 1) * n / cores.length)
  | some g =>
    let clus := dedupe (cores.map cluOf)
    let mine := cores.filter (fun y => cluOf y == cluOf x)
    let r := rankIn clus (cluOf x)
    let nk := groupCount n g r clus.length
    let c := rankIn mine x
    l.firstDue (groupPiece g r clus.length) (c * nk / mine.length) ((c + 1) * nk / mine.length)

/-- Cluster of a placed group. -/
def Launch.groupAt (l : Launch) (g : Nat) : Option Nat := (l.groups.find? (fun e => e.1 == g)).map Prod.snd

/-- The cluster of a die with the most free launch cores; the lowest on a tie (R346). -/
def State.roomiest (s : State) (cores : List Nat) (die : Nat) : Nat :=
  let count (c : Nat) : Nat := (cores.filter (fun y => cluOf y == c && s.coreFree y)).length
  ((List.range 12).map (12 * die + ·)).foldl (fun b c => if count b < count c then c else b) (12 * die)

/-- The next piece under dynamic placement that core `x` may take or place (R346), with its group if that is not placed
yet. -/
def State.dynamicPiece (s : State) (l : Launch) (x : Nat) : Option (Nat × Option Nat) :=
  let cores := s.launchCores l.lr
  let n := l.lr.count
  let dies := dedupe (cores.map (· / 96))
  let d := rankIn dies (x / 96)
  match l.lr.groupSize with
  | none => (l.firstDue (fun j => j) (d * n / dies.length) ((d + 1) * n / dies.length)).map (fun q => (q, none))
  | some g =>
    let placed := l.groups.filterMap (fun e =>
      if e.2 = cluOf x then l.firstDue (fun j => j) (e.1 * g) ((e.1 + 1) * g) else none)
    let new := ((List.range (l.groups.length + 1)).map (fun i => d + dies.length * i)).find? (fun e => (l.groupAt e).isNone)
    let fresh := match new with
      | some e => if e < n / g then some (e * g, some e) else none
      | none => none
    match placed.foldl (fun (b : Option Nat) q => some (match b with
        | some p => min p q
        | none => q)) none, fresh with
    | some q, some (q', e) => if q < q' then some (q, none) else some (q', e)
    | some q, none => some (q, none)
    | none, f => f

/-- What a core may receive from a launch: a checkpointed piece, or a piece that begins, with the group to place. -/
inductive Take where
  | resume (i : Nat)
  | start (q : Nat) (grp : Option Nat)
  deriving DecidableEq, Repr

/-- What core `x` may receive from a launch (R347): a checkpointed piece before a new one; a frozen launch starts nothing
new (R350), one that a debugger halts receives nothing. -/
def State.pieceFor (s : State) (l : Launch) (x : Nat) : Option Take :=
  if !s.mayRun l.lr x || l.halted || l.state == .waiting then none
  else match (List.range l.saved.length).find? (fun i => match l.saved[i]? with
      | some v => if l.lr.fixed then v.k == x else cluOf v.k == cluOf x
      | none => false) with
    | some i => some (.resume i)
    | none =>
      if l.state = .frozen then none
      else if l.lr.fixed then (s.fixedPiece l x).map (fun q => .start q none)
      else (s.dynamicPiece l x).map (fun (e : Nat × Option Nat) => .start e.1 e.2)

/-! ## A piece begins (R338, 01 R13) -/

/-- What stays with the hardware of a core when its piece goes: engine operations that write memory, and times at which
its units are free, a CLAMP or FREE still within its 3 cycles among them (log entry 63), and the newcomer that the core goes to. ROUTEn are
cleared (log entry 63). -/
def Core.idle (c : Core) : Core :=
  { Core.reset with engq := c.engq, lastCopy := c.lastCopy, pend := c.pend.filter (fun a => !a.op.isLoadCap),
                    copies := c.copies, ga := c.ga, epir := c.epir, array := c.array, epiUnit := c.epiUnit,
                    permute := c.permute, land := c.land, usePend := c.usePend, vcWait := c.vcWait, failed := c.failed,
                    newc := c.newc }

/-- The stack capability of core `x` (R338). -/
def CtxRec.stack (r : CtxRec) (x : Nat) : Cap :=
  let (b, l) := r.stk.bounds
  let lo := b + r.sz.toNat * x
  let hi := lo + r.sz.toNat
  if r.sz = 0 || !r.stk.tag || l < hi then nullCap
  else match r.stk.request lo r.sz.toNat with
    | some (c, _, _) => c.withCur (BitVec.ofNat 64 hi)
    | none => nullCap

/-- Forget core scratch of core `x` (06 R194). -/
def State.wipeScratch (s : State) (x : Nat) : State :=
  let lo := scrKey x 0
  let hi := scrKey (x + 1) 0
  let out (k : Nat) : Bool := decide (k < lo) || decide (hi ≤ k)
  { s with mem := s.mem.filter (fun c => out c.1), pois := s.pois.filter (fun p => out (32 * p.1)) }

/-- An active stream begins at its code capability's cursor (R11). -/
def Strm.begin (c : Cap) (now : Nat) : Strm := ⟨c.tag, c, curOf c, 0, 0, now, []⟩

/-- A core's fetches begin anew. -/
def State.dropFetches (s : State) : State := [Cl.s, Cl.a, Cl.v, Cl.m].foldl (fun s c => s.dropGot (whoCore s.k c)) s

/-- Start piece `q` of launch `li` on the core in focus. -/
def State.startPiece (s : State) (li : Nat) (l : Launch) (q : Nat) : State :=
  let lr := l.lr
  let f (n : Nat) : W64 := BitVec.ofNat 64 (Map.get 0 (lr.fields q) n)
  let g : Vector GReg 32 := Vector.ofFn (fun (i : Fin 32) =>
    ⟨if i.val = 1 then lr.widOf q else if 2 ≤ i.val && i.val < 8 then f (i.val - 2) else 0, false, 0⟩)
  let a : Vector AReg 32 := Vector.ofFn (fun (i : Fin 32) =>
    ⟨if i.val = 29 then lr.codeA else if i.val = 30 then lr.param else if i.val = 31 then (s.ctx lr.ctx).stack s.k else nullCap,
      false, 0⟩)
  let p := { Piece.reset with run := true, pid := s.nextId, li := li, q := q, wid := lr.widOf q, ctx := lr.ctx, began := s.cyc, onCore := 0 }
  let c := { s.core.idle with
    pc := p, cs := .begin lr.codeS s.cyc, ca := .begin lr.codeA s.cyc, cv := .begin lr.codeV s.cyc, cm := .begin lr.codeM s.cyc,
    g := g, a := a, slotSeed := s.freeIdx 301, debugger := l.debugger, newc := none }
  let s := (((s.wipeScratch s.k).dropFetches).setCore c).fresh
  if lr.codeS.tag || lr.codeA.tag || lr.codeV.tag || lr.codeM.tag then s else s.endPiece false

/-- A checkpointed piece resumes on the core in focus (09 R287, 06 R202): block bits it owned pass to this core, each
promise that it had not popped reads as the cycle of the restore; an EPIR in the image goes on from its cursor, and a stall of it begins anew (R289). A debugger that
has the launch sees its traps (R294). One whose image
fails ends as faulted with Skew Fault and freezes its launch (R353). -/
def State.resumePiece (s : State) (li : Nat) (l : Launch) (v : Saved) : State :=
  if !s.imageHolds v then
    (s.nameTrap li ⟨.skewFault, 0, 0⟩).setLaunch li (some { l with ended := l.ended + 1, state := .frozen })
  else
    let i := s.core.idle
    let pq := v.core.q 9
    let c := { v.core with
      engq := i.engq, lastCopy := i.lastCopy, pend := i.pend, copies := i.copies, ga := i.ga, epir := i.epir ++ v.core.epir.map (fun (x : Epir) => { x with since := s.cyc }),
      array := i.array, epiUnit := i.epiUnit, permute := i.permute, land := i.land, usePend := i.usePend, failed := i.failed,
      vcWait := i.vcWait, halt := .none, newc := none, debugger := v.core.debugger || l.debugger,
      pc := v.core.pc.restart s.cyc }
    let c := c.setQ 9 { pq with ents := pq.ents.map (fun e => { e with v := ⟨BitVec.ofNat 64 s.cyc, false⟩ }) }
    let go (x : Strm) : Strm := { x with start := s.cyc }
    let c := { c with cs := go c.cs, ca := go c.ca, cv := go c.cv, cm := go c.cm }
    let s := (s.wipeScratch s.k).dropFetches
    let mem := v.scr.foldl (fun (m : List Host.Cell) (e : Nat × Byte) => writeByte m (scrKey s.k e.1) e.2) s.mem
    let pois := v.scrBad.foldl (fun p o => Map.set false p (scrKey s.k (32 * o) / 32) true) s.pois
    let s := { s with mem := mem, pois := pois }
    let pass (b : Block) : Block := if b.use && b.core = v.k && b.li = li && b.pid = v.core.pc.pid then { b with core := s.k } else b
    let s := s.setShr { s.shr with blocks := Map.mapVals blockEmpty pass s.shr.blocks }
    s.setCore c

/-! ## The choice (R347) -/

/-- Ring pointers and deficits are kept for each die: the key of a die's pointer at a level. -/
def ptrKey (die pri : Nat) : Nat := 8 * die + pri

/-- A replaying log does not give the launch's next dynamic piece to another core (21 R498). -/
def State.maySit (s : State) (l : Launch) (x : Nat) : Bool :=
  l.lr.fixed || (match s.nextLogged l.lr.ctx 4 (x / 96) with
    | none => true
    | some (_, d) => nb d 30 9 == x && decide (d < 2 ^ 64))

/-- The launches that core `x` may receive a piece from. -/
def State.offers (s : State) (x : Nat) : List (Nat × Launch) :=
  s.die.launches.filterMap (fun e => match e.2 with
    | some l => if (s.pieceFor l x).isSome && s.maySit l x then some (e.1, l) else none
    | none => none)

/-- The one with the least rank by readiness. -/
def leastSeq : List (Nat × Launch) → Option (Nat × Launch)
  | [] => none
  | x :: r => match leastSeq r with
    | some y => if x.2.seq ≤ y.2.seq then some x else some y
    | none => some x

/-- The launch that serves core `x` (R347, R348): the first promoted one; else, at the highest level, the ring from its
pointer on. -/
def State.chosen (s : State) (x : Nat) : Option (Nat × Launch) :=
  let os := s.offers x
  match s.die.promoted.find? (fun li => os.any (fun e => e.1 == li)) with
  | some li => os.find? (fun e => e.1 == li)
  | none =>
    let top := os.foldl (fun m e => max m e.2.lr.pri) 0
    let ring := os.filter (fun e => e.2.lr.pri == top)
    let p := Map.get 0 s.die.ptr (ptrKey (x / 96) top)
    match leastSeq (ring.filter (fun e => decide (p ≤ e.2.seq))) with
    | some e => some e
    | none => leastSeq ring

/-- Deficits, pointer and promotion after a piece of a launch has been given on a die (R347). A promoted launch returns to its level with its
deficits and its wait count restarted (R348; DEDUCED, log entry 81). -/
def State.given (s : State) (die li : Nat) : State :=
  match s.launch li with
  | none => s
  | some l =>
    if s.die.promoted.contains li then
      let s := s.setLaunch li (some { l with waitFrom := s.cyc, deficit := [] })
      s.setDie { s.die with promoted := s.die.promoted.filter (· != li) }
    else
      let d := (if Map.get 0 l.deficit die = 0 then l.lr.tok else Map.get 0 l.deficit die) - 1
      let s := s.setLaunch li (some { l with waitFrom := s.cyc, deficit := Map.set 0 l.deficit die d })
      if d = 0 || !l.waits then s.setDie { s.die with ptr := Map.set 0 s.die.ptr (ptrKey die l.lr.pri) (l.seq + 1) } else s

/-- DATA of a placement entry (21 R496). -/
def Launch.placeData (l : Launch) (die x : Nat) : Nat :=
  l.head % 2 ^ 24 + l.stream.toNat * 2 ^ 24 + x * 2 ^ 30 + Map.get 0 l.given die % 2 ^ 24 * 2 ^ 40

/-- The core on which a new group's first piece starts (R346): the free launch core of lowest index in the cluster with the
most; a replaying log says it itself (21 R498). -/
def State.groupCore (s : State) (l : Launch) (x : Nat) : Nat :=
  if (s.nextLogged l.lr.ctx 4 (x / 96)).isSome then x
  else
    let cores := s.launchCores l.lr
    let cl := s.roomiest cores (x / 96)
    (cores.find? (fun y => cluOf y == cl && s.coreFree y)).getD x

/-- Cores that free together are served in ascending index (R346): a lower free core of the die that may receive a piece
goes first. -/
def State.firstFree (s : State) (x : Nat) : Bool :=
  !(List.range (x % 96)).any (fun i => s.coreFree (96 * (x / 96) + i) && !(s.offers (96 * (x / 96) + i)).isEmpty)

/-- The newcomer for which the core's last piece had to go (R352), while it has a piece for this core. -/
def State.heir (s : State) (x : Nat) : Option (Nat × Launch) :=
  match (s.coreOf x).newc with
  | none => none
  | some u => (s.offers x).find? (fun e => e.2.uid == u)

/-- PIECE_START (R347): the core in focus, if it is free, receives its next piece, from the newcomer that it was freed for or else from the
launch that the Jig chooses; a group that goes to another cluster starts its first piece there. -/
def execPieceStart (s : State) : Host.Outcome State Fault Refusal :=
  .next (
    let x := s.k
    if !s.coreFree x || s.pkg.off || !s.firstFree x then s
    else match (s.heir x).orElse (fun _ => s.chosen x) with
      | none => s
      | some (li, l) =>
        match s.pieceFor l x with
        | none => s
        | some (.resume i) =>
          match l.saved[i]? with
          | none => s
          | some v =>
            let die := x / 96
            let data := l.placeData die x
            if !l.lr.fixed && !s.scribeAllows l.lr.ctx 4 die data then s
            else
              let s := if l.lr.fixed then s else s.scribeEvent l.lr.ctx 4 die data
              let l := { l with saved := l.saved.eraseIdx i, given := Map.set 0 l.given die (Map.get 0 l.given die + 1) }
              ((s.setLaunch li (some l)).resumePiece li l v).given die li
        | some (.start q grp) =>
          let y := match grp with
            | some _ => s.groupCore l x
            | none => x
          let die := x / 96
          let data := l.placeData die y
          if !l.lr.fixed && !s.scribeAllows l.lr.ctx 4 die data then s
          else
            let s := if l.lr.fixed then s else s.scribeEvent l.lr.ctx 4 die data
            let l := { l with
              state := .running, again := l.again.filter (· != q),
              taken := if l.taken.contains q then l.taken else l.taken ++ [q],
              groups := match grp with
                | some g => l.groups ++ [(g, cluOf y)]
                | none => l.groups,
              given := Map.set 0 l.given die (Map.get 0 l.given die + 1) }
            let s := s.setLaunch li (some l)
            (s.at y (fun s => s.startPiece li l q)).given die li)

/-- PROMOTION (R348): a launch that has had a waiting piece for 2^24 cycles without receiving a core. -/
def execPromotion (li : Nat) (s : State) : Host.Outcome State Fault Refusal :=
  .next (match s.launch li with
    | none => s
    | some l =>
      if (l.state == .ready || l.state == .running) && l.waits && decide (l.waitFrom + 2 ^ 24 ≤ s.cyc) &&
          !s.die.promoted.contains li then s.setDie { s.die with promoted := s.die.promoted ++ [li] }
      else s)

/-! ## Pre-emption (R351, R352) -/

/-- Remaining time of the piece of a core (R351). -/
def remaining (l : LaunchRec) (p : Piece) : Nat := 256 * l.est - p.onCore

/-- A core whose piece is on its way out for a newcomer. -/
def Core.leaving (c : Core) : Bool := c.halt == .checkpoint || c.halt == .kill || c.pc.drained

/-- Order of preference among victims (R351), as numbers to compare. -/
def victimKey (c : Core) (l : LaunchRec) (x : Nat) : List Nat :=
  [if c.pc.stepIn then 1 else 0, l.pri, remaining l c.pc, x]

def lexLess : List Nat → List Nat → Bool
  | a :: r, b :: t => decide (a < b) || (a == b && lexLess r t)
  | _, _ => false

/-- Cores among `p` that are on their way to newcomer `u`: their piece is going or gone, and they are not free yet. -/
def State.goingTo (s : State) (u : Nat) (p : Nat → Bool) : Nat :=
  ((List.range 384).filter (fun x => p x && (s.coreOf x).newc == some u && !s.coreFree x)).length

/-- Pieces of `l` in a range of the enumeration that wait. -/
def Launch.duePieces (l : Launch) (lo hi : Nat) : Nat :=
  hi - lo - (l.taken.filter (fun q => decide (lo ≤ q) && decide (q < hi) && !l.again.contains q)).length

/-- Waiting pieces of a launch under dynamic placement that only cluster `c` may take: checkpointed ones and those of placed groups (R346,
R347). -/
def Launch.dueIn (l : Launch) (c : Nat) : Nat :=
  (l.saved.filter (fun v => cluOf v.k == c)).length + (match l.lr.groupSize with
    | none => 0
    | some g => ((l.groups.filter (fun e => e.2 == c)).map (fun e => l.duePieces (e.1 * g) ((e.1 + 1) * g))).foldl (· + ·) 0)

/-- Waiting pieces of a launch under dynamic placement that any cluster of the die of core `x` may take (R346). -/
def State.dueOn (s : State) (l : Launch) (x : Nat) : Nat :=
  let dies := dedupe ((s.launchCores l.lr).map (· / 96))
  let d := rankIn dies (x / 96)
  let n := l.lr.count
  match l.lr.groupSize with
  | none => l.duePieces (d * n / dies.length) ((d + 1) * n / dies.length)
  | some g => ((n / g + dies.length - 1 - d) / dies.length - (l.groups.filter (fun e => e.1 % dies.length == d)).length) * g

/-- A waiting piece that core `x` may take has no core on its way to it (R351): under fixed placement the pieces of a core are its own. -/
def State.wants (s : State) (l : Launch) (x : Nat) : Bool :=
  (s.pieceFor l x).isSome && (l.lr.fixed ||
    (let going (c : Nat) : Nat := s.goingTo l.uid (fun y => cluOf y == c)
     let rest := ((List.range 12).map (fun i => going (12 * (x / 96) + i) - l.dueIn (12 * (x / 96) + i))).foldl (· + ·) 0
     decide (going (cluOf x) < l.dueIn (cluOf x)) || decide (rest < s.dueOn l x)))

/-- Victims that a newcomer may choose from. -/
def State.victims (s : State) (l : Launch) : List (Nat × List Nat) :=
  (List.range 384).filterMap (fun x =>
    let c := s.coreOf x
    if !c.pc.run || c.halt != .none || c.leaving || c.newc == some l.uid || !s.wants l x then none
    else match s.launch c.pc.li with
      | none => none
      | some v =>
        if v.lr.pri < l.lr.pri && (!c.pc.stepIn || decide ((s.ctx c.pc.ctx).step.stok.toNat < l.lr.tok)) then
          some (x, victimKey c v.lr x) else none)

/-- What becomes of a victim (R352) whose core goes to the newcomer `u`. -/
def State.evict (s : State) (tok u : Nat) : State :=
  match s.launch s.core.pc.li with
  | none => s
  | some v =>
    let s := s.setCore { s.core with newc := some u }
    let p := s.core.pc
    if p.stepIn then
      (s.veto p.ctx vPre).setCore { s.core with halt := .kill }
    else if remaining v.lr p ≤ 4096 * tok then s.setPiece { p with drained := true }
    else if v.lr.idem && p.onCore ≤ 8192 then s.setCore { s.core with halt := .kill }
    else s.setCore { s.core with halt := .checkpoint }

/-- PREEMPTION (R351): one victim for a waiting piece of the ready launch `li` that has no free core and no core on its way to it. -/
def execPreemption (li : Nat) (s : State) : Host.Outcome State Fault Refusal :=
  .next (match s.launch li with
    | none => s
    | some l =>
      let cores := s.launchCores l.lr
      if l.state != .ready || !l.waits ||
          cores.any (fun x => s.coreFree x && (s.pieceFor l x).isSome) then s
      else
        match (s.victims l).foldl (fun (b : Option (Nat × List Nat)) v => match b with
            | some w => if lexLess v.2 w.2 then some v else some w
            | none => some v) none with
        | none => s
        | some (x, _) => s.at x (fun s => s.evict l.lr.tok l.uid))

/-- DRAIN_CONVERSION (09 R289): a drain that has found an EPIR stalled for 2^16 consecutive cycles becomes a checkpoint. -/
def execDrainConversion (s : State) : Host.Outcome State Fault Refusal :=
  .next (
    let p := s.core.pc
    if p.run && p.drained && !p.stepIn && s.core.epir.any (fun x => x.pid == p.pid && (match x.stalledAt with
        | some t => decide (t + 2 ^ 16 ≤ s.cyc)
        | none => false)) then
      s.setCore { s.core with halt := .checkpoint, pc := { p with drained := false } }
    else s)

/-! ## A stopped piece leaves its core (09 R284, R288) -/

/-- Stops that the piece armed and that still hold operations are cleared by a kill (R288). -/
def State.dropHeld (s : State) : State :=
  let p := s.core.pc
  let drop (x : Stop) : Stop := match x.held with
    | some o => if o.pid = p.pid && !x.going then { x with held := none } else x
    | none => x
  s.setShr { s.shr with stops := Map.mapVals stopEmpty drop s.shr.stops }

/-- A killed piece's arrival leaves the open round in which it is counted (11 R316). -/
def State.withdrawn (s : State) (w : BarWait) : State :=
  let k := s.barKey w.sc w.n
  let b := s.barrier k
  if w.done || b.round ≠ w.round || !b.open_ || b.ctx ≠ s.core.pc.ctx then s
  else if b.arr = 1 then s.setBarrier k ⟨b.round, 0, false, 0, 0⟩ else s.setBarrier k { b with arr := b.arr - 1 }

/-- The arrivals of the piece on the core in focus, in its program and in its handler, leave their rounds. -/
def State.withdraw (s : State) : State :=
  (s.core.pc.bar.toList ++ s.core.pc.barH.toList).foldl State.withdrawn s

/-- Change every piece, running or checkpointed. -/
def State.mapPieces (s : State) (f : Piece → Piece) : State :=
  let s := s.allCores.foldl (fun s e => s.at e.1 (fun s => s.setPiece (f s.core.pc))) s
  let img (v : Saved) : Saved := { v with core := { v.core with pc := f v.core.pc } }
  s.setDie { s.die with launches := Map.mapVals none (Option.map (fun l => { l with saved := l.saved.map img })) s.die.launches }

/-- A terminated context loses its open rounds (11 R316), and with them the arrivals that its pieces have made there. -/
def State.dropRounds (s : State) (c : Ctx) : State :=
  let s := s.mapPieces (fun p => if p.ctx = c then { p with bar := none, barH := none } else p)
  s.setShr { s.shr with bars := Map.mapVals barEmpty (fun b => if b.open_ && b.ctx == c then ⟨b.round, 0, false, 0, 0⟩ else b) s.shr.bars }

/-- The core in focus is empty again; nothing is counted for its launch. -/
def State.vacate (s : State) : State := s.setCore s.core.idle

/-- A killed piece that had come to its EARLY no longer counts as early (13 R342): it starts again from the beginning. -/
def Launch.unEarly (l : Launch) (p : Piece) : Launch :=
  if !p.isEarly then l
  else if l.earlyWait.any (fun e => e.1 == p.q) then { l with earlyWait := l.earlyWait.filter (fun e => e.1 != p.q) }
  else { l with early := l.early - 1 }

/-- A piece of the launch waits from now on; a launch that had a waiting piece before goes on waiting (R348). -/
def Launch.waitsAt (l : Launch) (now : Nat) : Launch := if l.waits then l else { l with waitFrom := now }

/-- A piece that is being checkpointed or killed leaves once it has settled. The rows of its stalled EPIRs go with the image; inside a step their
tiles are discarded (09 R289). -/
def State.settleLeave (s : State) : State :=
  let p := s.core.pc
  if !p.run || !s.settled then s
  else match s.core.halt, s.launch p.li with
    | .checkpoint, some l =>
      let v := s.image
      let s := s.setCore { s.core with epir := s.core.epir.filter (fun x => x.pid != p.pid) }
      (s.setLaunch p.li (some { l.waitsAt s.cyc with saved := l.saved ++ [v] })).vacate
    | .kill, some l =>
      let l := (l.waitsAt s.cyc).unEarly p
      let s := if p.stepIn then s.setCore { s.core with epir := s.core.epir.filter (fun x => x.pid != p.pid) } else s
      (((s.setLaunch p.li (some { l with again := l.again ++ [p.q] })).dropHeld).withdraw).vacate
    | _, _ => s

/-- A piece ends with no further effect (03 R107): its launch counts nothing. -/
def State.stopPiece (s : State) : State := s.vacate

/-- A launch is cancelled by an abort (03 R107, R335): its pieces stop, and it completes as cancelled with no error bit and no
DONE. -/
def State.cancelLaunch (s : State) (li : Nat) : State :=
  let s := s.allCores.foldl (fun s e => if e.2.pc.run && e.2.pc.li = li then s.at e.1 (fun s => s.stopPiece) else s) s
  s.finishLaunch li .aborted

/-! ## Termination of a context (12 R323) -/

/-- Context `o` is terminated: its pieces, checkpointed ones too, take Context Terminated, reported, with `addr` as detail; operations that
wait unstarted and held ones are discarded; a launch that has started a piece is frozen, the others complete as
cancelled. The Mortise's orphan queue is emptied if it serves the context (17 R399). -/
def State.terminate (s : State) (o : Ctx) (addr : W64) : State :=
  let keep (l : List Op) : List Op := l.filter (fun x => x.ctx != o)
  let s := s.allCores.foldl (fun s e => s.at e.1 (fun s =>
    let s := s.setCore { s.core with engq := Map.mapVals [] keep s.core.engq }
    if s.core.pc.run && s.core.pc.ctx = o then
      (if s.core.pc.stepIn then s.veto o vCorr else s).report e.1 ⟨.contextTerminated, 0, addr⟩
    else s)) s
  let drop (x : Stop) : Stop :=
    let x := if x.held.any (fun h => h.ctx == o) then { x with held := none, going := false } else x
    { x with fired := x.fired.filter (fun f => f.2.ctx != o) }
  let s := (s.setShr { s.shr with stops := Map.mapVals stopEmpty drop s.shr.stops }).dropRounds o
  let mo := s.pkg.mo
  let s := if bitsOf mo.cfg 4 4 = o.toNat then s.setPkg { s.pkg with mo := { mo with orph := [] } } else s
  s.die.launches.foldl (fun s e => match e.2 with
    | some l =>
      if l.lr.ctx ≠ o then s
      else if l.taken.isEmpty then s.finishLaunch e.1 .cancelled
      else
        let s := if l.saved.any (fun v => v.core.pc.stepIn) then s.veto o vCorr else s
        let hit (v : Saved) : Saved := v.reported v.core.pc.pid ⟨.contextTerminated, 0, addr⟩
        s.setLaunch e.1 (some { l with saved := l.saved.map hit, state := .frozen })
    | none => s) s

end Sys2Proof.Machine
end

