-- ==== Sys2Proof/Machine/ClusterEvents.lean ====
section
/-! DEFINITION. Events of a cluster: the switching of a bank (11 R298 to R302), errors that the SRAM's code finds
(R317 to R321, 12 R323 to R325), and the retirement of a frame (16 R388, R389) that a lost sector or an HBM error asks for. -/
namespace Sys2Proof.Machine

/-! ## Bank switches -/

/-- Numbers of the cores of a cluster. -/
def coresOf (clu : Nat) : List Nat := (List.range 8).map (8 * clu + ·)

/-- The dirty line of set `t` that lies in bank `n`, which is leaving cache mode: a bank is one way, so it is at most one, and which way holds a
line is not architectural (R303): a free choice, but that the other cache banks must hold the rest. -/
def State.dirtyWay (s : State) (clu n t : Nat) : Option Nat :=
  let ls := s.dirtyLines clu t
  let others := ((s.cacheBanks clu).filter (· != n)).length
  let i := s.freeIdx (2 ^ 21 + t)
  if others < ls.length then ls[i % ls.length]? else ls[i % (ls.length + 1)]?

/-- Dirty sectors of a cluster that lie in bank `n`. -/
def State.dirtyIn (s : State) (clu n : Nat) : List Nat :=
  let mine := s.shr.dirty.filter (fun e => e.2.clu == clu)
  let sets := (mine.map (fun e => lineSet (e.1 / 4))).eraseDups
  let out := sets.filterMap (s.dirtyWay clu n)
  (mine.filter (fun e => out.contains (e.1 / 4))).map Prod.fst

/-- Sectors that accesses issued before a switch may still make dirty (R301); a bank has 16,384 sectors in all. -/
def State.dirtyYet (s : State) (clu : Nat) : Nat :=
  ((coresOf clu).flatMap (fun k => (s.coreOf k).pend)).foldl (fun n a => match a.loc with
    | .hbm pa => if a.writes then n + (unitsOf 32 pa a.n).length else n
    | _ => n) 0

/-- Sectors that have been written back are dirty no longer. -/
def State.wroteBack (s : State) (l : List Nat) : State :=
  s.setShr { s.shr with dirty := s.shr.dirty.filter (fun e => !l.contains e.1) }

/-- Drop the waiting switches at the head that have no effect: to the bank's own mode, or of a retired bank. -/
def dropIdle (mode : BitVec 2) : List (BitVec 2 × Nat × Nat) → List (BitVec 2 × Nat × Nat)
  | [] => []
  | w :: r => if mode = w.1 || mode = 3 then dropIdle mode r else w :: r

/-- A switch begins (R299 to R301): not while another runs, not in the cycle of its BANKSET, and not in the cycle in which the switch
before it ended. -/
def State.switchBegin (s : State) (clu n : Nat) : State :=
  let b := s.bank clu n
  match dropIdle b.mode b.wait with
  | [] => if b.cur.isSome then s else s.setBank clu n { b with wait := b.wait.filter (fun w => decide (s.cyc ≤ w.2.1)) }
  | (m, c, _) :: r =>
    if b.cur.isSome || s.cyc ≤ c || s.cyc ≤ b.last then s
    else
      let out := if b.mode = 0 then s.dirtyIn clu n else []
      let ds := if b.mode = 0 then min 16384 (out.length + s.dirtyYet clu) else 0
      let z := if m = 1 then 2048 else 0
      (s.wroteBack out).setBank clu n
        { mode := m, cur := some (b.mode, s.cyc, s.cyc + 32 + 4 * ds + z), wait := r, last := b.last,
          left := if b.mode = 0 then b.left else s.cyc }

/-- An access issued before the switch has yet to perform in the old mode (R302). -/
def State.bankPending (s : State) (clu n : Nat) : Bool :=
  (coresOf clu).any (fun k => (s.coreOf k).pend.any (fun a => match a.loc with
    | .sram off => off / 2 ^ 19 == n
    | .fifo bank => bank == n
    | _ => false))

/-- Forget the bytes of a bank: content, poison, tags and in-use bits (R300). -/
def State.wipeBank (s : State) (clu n : Nat) : State :=
  let lo := sramKey clu (n * 2 ^ 19)
  let hi := sramKey clu ((n + 1) * 2 ^ 19)
  let out (k : Nat) : Bool := decide (k < lo) || decide (hi ≤ k)
  let blk (j : Nat) : Bool := decide (j < clu * 6144 + n * 128) || decide (clu * 6144 + (n + 1) * 128 ≤ j)
  let s : State := { s with mem := s.mem.filter (fun c => out c.1), pois := s.pois.filter (fun p => out (32 * p.1)),
                            tags := s.tags.filter (fun t => out (16 * t.1)) }
  s.setShr { s.shr with blocks := s.shr.blocks.filter (fun e => blk e.1), fifo := Map.set [] s.shr.fifo (clu * 48 + n) [] }

/-- A switch ends (R300, R301); with the last cache bank gone nothing of the cluster is dirty. -/
def State.switchEnd (s : State) (clu n : Nat) : State :=
  let b := s.bank clu n
  match b.cur with
  | none => s
  | some _ =>
    if s.bankPending clu n then s
    else
      let s := s.setBank clu n { b with cur := none, last := s.cyc }
      let s := if s.cached clu then s else s.wroteBack (s.dirtyIn clu n)
      s.wipeBank clu n

/-- BANK_SWITCH_BEGIN (R299): bank `n` of the cluster of the core in focus. -/
def execBankSwitchBegin (n : BitVec 6) (s : State) : Host.Outcome State Fault Refusal := .next (s.switchBegin s.clu n.toNat)

/-- BANK_SWITCH_END (R300). -/
def execBankSwitchEnd (n : BitVec 6) (s : State) : Host.Outcome State Fault Refusal := .next (s.switchEnd s.clu n.toNat)

/-! ## Retirement of a frame (16 R388, R389) -/

/-- Versioned or not, the frames that hold a frame's content: its shadow goes with it. -/
def State.shadowOf (s : State) (f : Nat) : Option Nat := (Map.get none s.frames f).map Frame.shadow

/-- The frame whose shadow is `f`. -/
def State.primaryOf (s : State) (f : Nat) : Nat :=
  ((s.frames.find? (fun e => e.2.any (fun x => x.shadow == f))).map Prod.fst).getD f

/-- Copy a frame's bytes, tags, poison and attempt tags over another frame. -/
def State.copyFrame (s : State) (f t : Nat) : State :=
  let mem := (s.mem.filter (fun c => c.1 / 65536 == f)).foldl (fun (m : List Host.Cell) (c : Nat × Byte) =>
    writeByte m (t * 65536 + c.1 % 65536) c.2) (s.mem.filter (fun c => c.1 / 65536 != t))
  let tags := (s.tags.filter (fun c => c.1 / 4096 == f)).foldl (fun m c => Map.set false m (t * 4096 + c.1 % 4096) c.2)
    (s.tags.filter (fun c => c.1 / 4096 != t))
  let pois := (s.pois.filter (fun c => c.1 / 2048 == f)).foldl (fun m c => Map.set false m (t * 2048 + c.1 % 2048) c.2)
    (s.pois.filter (fun c => c.1 / 2048 != t))
  let lt := (s.leafTag.filter (fun c => c.1 / 1024 == f)).foldl (fun m c => Map.set 0 m (t * 1024 + c.1 % 1024) c.2)
    (s.leafTag.filter (fun c => c.1 / 1024 != t))
  { s with mem := mem, tags := tags, pois := pois, leafTag := lt }

/-- The part of a page that maps the 64 KiB frame at local address `f`, cut out: the pieces around it, and the piece itself
through `new`. Larger pages split, smaller ones go whole. -/
def Page.cut (p : Page) (pa : Nat) (new : Page → List Page) : List Page :=
  if p.pa ≤ pa && pa + 65536 ≤ p.pa + 2 ^ p.sz then
    (List.range (2 ^ (p.sz - 16))).flatMap (fun i =>
      let q := { p with va := p.va + 65536 * i, pa := p.pa + 65536 * i, sz := 16 }
      if q.pa = pa then new q else [q])
  else if pa ≤ p.pa && p.pa < pa + 65536 then new p else [p]

/-- A page maps a byte of the 64 KiB at `pa`. -/
def Page.maps (p : Page) (pa : Nat) : Bool := decide (p.pa < pa + 65536) && decide (pa < p.pa + 2 ^ p.sz)

/-- Fabric physical address of a frame of this device. -/
def State.framePa (s : State) (f : Nat) : Nat := s.peer.toNat * 2 ^ 45 + f * 65536

/-- Change every page of every context that maps a frame of this device. -/
def State.remap (s : State) (f : Nat) (new : Page → List Page) : State :=
  let one (p : Page) : List Page := if p.maps (s.framePa f) then new p else [p]
  { s with ctxs := Map.mapVals CtxRec.reset (fun (r : CtxRec) => { r with pages := r.pages.flatMap one }) s.ctxs }

/-- Step 1 of R388: every page that maps the frame, whole, is marked in transit. -/
def State.markTransit (s : State) (f : Nat) : State := s.remap f (fun p => [{ p with transit := true, walked := false }])

/-- A table, a page or a retirement names the frame. -/
def State.frameUsed (s : State) (g : Nat) : Bool :=
  Map.get false s.pkg.retired g || s.frames.any (fun e => e.1 == g || e.2.any (fun x => x.shadow == g)) ||
  s.ctxs.any (fun e => e.2.pages.any (fun p => decide (p.pa / 65536 ≤ s.peer.toNat * 2 ^ 29 + g) &&
    decide ((s.peer.toNat * 2 ^ 29 + g) * 65536 < p.pa + 2 ^ p.sz)))

/-- An installed frame of the stack of frame `f` that nothing names. -/
def State.frameBeside (s : State) (f : Nat) : Option Nat :=
  let n := s.pkg.inst.toNat
  ((List.range n).map (fun i => n - 1 - i)).find? (fun g => g % 12 == f % 12 && !s.frameUsed g)

/-- A frame of the spare pool for frame `f`: one that nothing names, of the same stack if there is one, else of any, else beyond the frames
that the repair map lists (log entry 70). -/
def State.spareFrame (s : State) (f : Nat) : Nat :=
  let n := s.pkg.inst.toNat
  match s.frameBeside f with
  | some g => g
  | none => match ((List.range n).map (fun i => n - 1 - i)).find? (fun g => !s.frameUsed g) with
    | some g => g
    | none => ((List.range 4096).find? (fun i => !s.frameUsed (n + i))).getD 0 + n

def stackEmpty : Stack := ⟨false, 0, 0, 0⟩
def State.stackAt (s : State) (n : Nat) : Stack := Map.get stackEmpty s.pkg.hbms n
def State.setStack (s : State) (n : Nat) (x : Stack) : State :=
  s.setPkg { s.pkg with hbms := Map.set stackEmpty s.pkg.hbms n x }

/-- Frames leave service: they are named retired, and their stacks count them (R392). -/
def State.outOfService (s : State) (l : List Nat) : State :=
  let s := s.setPkg { s.pkg with retired := l.foldl (fun r g => Map.set false r g true) s.pkg.retired }
  l.foldl (fun s f => s.setStack (f % 12) { s.stackAt (f % 12) with ret := (s.stackAt (f % 12)).ret + 1 }) s

/-- The content of frame `f` now lies in frame `t`: bytes, tags, poison, attempt tags. What clusters hold of `f` is written back. -/
def State.moveFrame (s : State) (f t : Nat) : State :=
  let s := s.copyFrame f t
  let s := s.setShr { s.shr with dirty := s.shr.dirty.filter (fun e => decide (e.1 / 2048 ≠ f)) }
  let on (g : Option Nat) : Option Nat := if g = some f then some t else g
  s.setPkg { s.pkg with moved := Map.set none (Map.mapVals none on s.pkg.moved) f (some t) }

/-- A frame leaves service (R388, R389): with frames left in the pool its content, poison and tags move to one, a versioned
page's shadow with it; with too few left for both, or none, every page that maps it is unmapped (log entry 70). -/
def State.retireFrame (s : State) (f : Nat) : State :=
  let f := s.primaryOf f
  let olds := f :: (s.shadowOf f).toList
  if s.pkg.pfree.toNat < olds.length then (s.remap f (fun _ => [])).outOfService olds
  else
    let s := s.outOfService olds
    let n := s.spareFrame f
    let s := s.moveFrame f n
    let s := match Map.get none s.frames f with
      | some x =>
        let s : State := { s with frames := Map.set none (Map.set none s.frames f none) n (some { x with shadow := n }) }
        let m := s.spareFrame x.shadow
        let s := s.moveFrame x.shadow m
        ({ s with frames := Map.set none s.frames n (some { x with shadow := m }) } : State)
      | none => s
    let move (q : Page) : List Page := [{ q with pa := s.framePa n + q.pa % 65536 }]
    let s := s.remap f (fun p => (p.cut (s.framePa f) move).map (fun q => { q with transit := false, walked := false }))
    s.setPkg { s.pkg with pfree := s.pkg.pfree - BitVec.ofNat 32 olds.length }

/-- A sector of HBM is lost (R376): it is counted, its poison bit is written, and its bytes and tags are gone (log entry 70). A sector that a
cluster holds dirty shows nothing of it: the line's data are the newer. -/
def State.loseHbm (s : State) (frame sec : Nat) : State :=
  let x := frame * 2048 + sec % 2048
  let st := s.stackAt (frame % 12)
  let s := s.setStack (frame % 12) { st with ue := st.ue + 1 }
  if s.shr.dirty.any (fun e => e.1 == x) then s
  else
    { s with mem := writeBytes s.mem (32 * x) ((List.range 32).map (fun i => s.free 8 (2 ^ 21 + i))),
             tags := Map.set false (Map.set false s.tags (2 * x) false) (2 * x + 1) false, pois := Map.set false s.pois x true }

/-- The next stage of a retirement (R388): the pages of the frame are marked in transit, or, once they are, the frame is moved. -/
def State.retireNext (s : State) (frame : Nat) : State :=
  let f := s.primaryOf frame
  let mapped (f : Page → Bool) : Bool := s.ctxs.any (fun e => e.2.pages.any f)
  let marked := mapped (fun p => p.transit && p.maps (s.framePa f))
  let mapped := mapped (fun p => p.maps (s.framePa f))
  if Map.get false s.pkg.retired f then s
  else if marked || !mapped then s.retireFrame f else s.markTransit f

/-- PAGE_RETIREMENT (R376, R388): what the code of HBM finds in a frame, or firmware's retirement of it. A corrected error is counted; an
uncorrectable one is counted, poisons its sector and begins the retirement. Streams that meet the mark stall (09 R281). -/
def execPageRetirement (x : HbmFind) (s : State) : Host.Outcome State Fault Refusal :=
  .next (match x with
    | .corrected frame =>
      let st := s.stackAt (frame % 12)
      s.setStack (frame % 12) { st with ce := st.ce + 1 }
    | .lost frame sec => (s.loseHbm frame sec).retireNext frame
    | .firmware frame => s.retireNext frame)

/-! ## Errors in the SRAM (R317 to R321) -/

/-- Count in CLERR (R317): CE in [31:0], UE in [47:32]. -/
def State.countErr (s : State) (clu : Nat) (ue : Bool) : State :=
  let v := Map.get 0 s.shr.clerr clu
  let ce := bitsOf v 0 32
  let u := bitsOf v 32 16
  let v' := if ue then ce + (u + 1) % 2 ^ 16 * 2 ^ 32 else (ce + 1) % 2 ^ 32 + u * 2 ^ 32
  s.setShr { s.shr with clerr := Map.set 0 s.shr.clerr clu (BitVec.ofNat 64 v') }

/-- Spare banks left in a cluster (R321); two unless the repair map says otherwise (log entry 3). -/
def State.spares (s : State) (clu : Nat) : BitVec 2 := Map.get 2 s.shr.spare clu

/-- Quarantine of a cache bank (R321): its other dirty sectors are written back; a spare takes its number, or the number is
retired. -/
def State.quarantine (s : State) (clu n : Nat) : State :=
  let s := s.wroteBack (s.dirtyIn clu n)
  if s.spares clu ≠ 0 then s.setShr { s.shr with spare := Map.set 2 s.shr.spare clu (s.spares clu - 1) }
  else s.setBank clu n { s.bank clu n with mode := 3, wait := [] }

/-- The banks in which lines were lost in this cycle are quarantined at its end, each once (R321, 12 R323). -/
def State.quarantineDue (s : State) : State :=
  s.turns.foldl (fun s e =>
    if 2 ^ 14 ≤ e.1 && e.1 < 2 ^ 15 then s.quarantine ((e.1 - 2 ^ 14) / 48) ((e.1 - 2 ^ 14) % 48) else s) s

/-- A bank that holds lines of the cluster cache; banks in another mode are never quarantined (R321). -/
def State.cacheBank (s : State) (clu n : Nat) : Bool :=
  decide (n < 48) && (s.bank clu n).mode == 0 && (s.bank clu n).cur.isNone

/-- A dirty sector is lost (R320, R324): memory keeps its older content and reads poisoned; the owner is terminated; the
page is marked in transit and retired. -/
def State.loseSector (s : State) (x : Nat) (d : Dirty) (owners : List Ctx) : State :=
  let k := 32 * x
  let s := s.setShr { s.shr with dirty := s.shr.dirty.filter (fun e => e.1 != x) }
  let s : State := { s with mem := writeBytes s.mem k d.old,
                            tags := Map.set false (Map.set false s.tags (2 * x) (d.oldTags.toNat.testBit 0)) (2 * x + 1)
                              (d.oldTags.toNat.testBit 1),
                            pois := Map.set false s.pois x true }
  let line := BitVec.ofNat 64 (s.peer.toNat * 2 ^ 45 + x / 4 * 128)
  (owners.foldl (fun s o => s.terminate o line) s).markTransit (k / 65536)

/-- Contexts that have a piece on a cluster (R318). -/
def State.ctxsOn (s : State) (clu : Nat) : List Ctx :=
  (coresOf clu).filterMap (fun k => if (s.coreOf k).pc.run then some (s.coreOf k).pc.ctx else none)

/-- SRAM_SCRUB (R317): what the background scrub, or an access, finds in cluster `clu`. -/
def execSramScrub (clu : Nat) (fnd : ScrubFind) (s : State) : Host.Outcome State Fault Refusal :=
  .next (match fnd with
    | .clean => s
    | .corrected => s.countErr clu false
    | .cacheClean => s.countErr clu true
    | .scratch off =>
      if (s.bank clu (off / 2 ^ 19)).mode ≠ 1 then s
      else
        let x := sramKey clu off / 32
        let s := s.countErr clu true
        { s with pois := Map.set false s.pois x true, tags := Map.set false (Map.set false s.tags (2 * x) false) (2 * x + 1) false }
    | .fifo bank i =>
      let l := Map.get [] s.shr.fifo (clu * 48 + bank)
      match l[i]? with
      | none => s
      | some (b, _) =>
        let s := s.countErr clu true
        s.setShr { s.shr with fifo := Map.set [] s.shr.fifo (clu * 48 + bank) (l.set i (b, true)) }
    | .dirty bank sector =>
      if !s.cacheBank clu bank then s
      else
        let s := s.countErr clu true
        match s.shr.dirty.find? (fun e => e.1 == sector && e.2.clu == clu) with
        | some (x, d) => (s.loseSector x d [d.owner]).went (resQuarantine clu bank) 1
        | none => s
    | .lineTag bank line =>
      if !s.cacheBank clu bank then s
      else
        let s := s.countErr clu true
        let bad := s.shr.dirty.filter (fun e => e.1 / 4 == line && e.2.clu == clu)
        let on := s.ctxsOn clu
        if bad.isEmpty then s
        else (bad.foldl (fun s e => s.loseSector e.1 e.2 on) s).went (resQuarantine clu bank) 1)

end Sys2Proof.Machine
end

