-- ==== Sys2Proof/Machine/Units.lean ====
section
/-! DEFINITION. Accesses of the units of the IO die (Mortise, Dovetail, collectives, Ethernet ports) to memory: engine
accesses (08 R249, R258, 14 R365) in a context, without a TLB of a cluster. -/
namespace Sys2Proof.Machine

/-- Authority of a unit's own accesses (17 R393, 18 R430): device-virtual addresses of its context. They use no capability, so that none has to
grant `rm` (DEDUCED, log entry 89); a versioned page they never write. -/
def unitRight : Right := ⟨0, true, false⟩

/-- Who accesses: a unit on behalf of a context, with no core of its own. -/
def State.unitAuth (s : State) (c : Ctx) : Auth := ⟨s.k, 1024, c, (s.ctx c).step.t, (s.ctx c).step.open_, s.cyc⟩

/-- Where a byte lies for a unit (R258). A page whose walk has not been made costs only time. -/
def State.unitSpot (s : State) (r : Right) (a : Auth) (addr : Nat) (wr : Bool) : Chk Spot :=
  if r.spc ≠ 0 then s.engSpot r a addr wr
  else match s.page a.ctx addr with
    | none => raise .translationFault 0 (BitVec.ofNat 64 addr)
    | some p =>
      if p.transit then .error .wait else s.engHbm r a (some p) (p.pa + (addr - p.va)) wr (BitVec.ofNat 64 addr)

/-- Read `n` bytes for `who`: each with the poison of its sector. What another peer holds is asked of it sector by sector (19 R441). -/
def State.unitRead (s : State) (r : Right) (a : Auth) (addr n who : Nat) : Chk (Bytes × List Bool) :=
  (sectorBases addr n).foldlM (fun (x : Bytes × List Bool) b => do
    let lo := max addr b
    let m := min (addr + n) (b + 32) - lo
    match ← s.unitSpot r a lo false with
    | .key k _ => .ok (x.1 ++ s.vload k m, x.2 ++ List.replicate m (s.vpois k))
    | .far pa =>
      let (bs, bad) ← s.farBytes who pa m
      .ok (x.1 ++ bs, x.2 ++ List.replicate m bad)) ([], [])

/-- What stopped a unit that reads: a sector to ask for, or nothing to be done now. -/
def State.unitWaits (s : State) (a : Auth) : Stop' → State
  | .ask who pa => s.askFar who pa a.ctx a.li a.k
  | _ => s

/-- The granule tag of a unit's address; that of another peer comes with the sector it has read. -/
def State.unitTag (s : State) (r : Right) (a : Auth) (addr who : Nat) : Bool :=
  match s.unitSpot r a addr false with
  | .ok (.key k _) => s.vtag k
  | .ok (.far pa) => (match s.farSector who pa with
    | .ok g => g.tags.toNat.testBit (pa / 16 % 2)
    | .error _ => false)
  | .error _ => false

/-- What stopped a write of a unit, if anything did; sectors before it have been written. -/
abbrev Wrote := State × Option Stop'

/-- Some byte of a range lies on a page in transit. -/
def State.unitStalls (s : State) (r : Right) (a : Auth) (addr n : Nat) : Bool :=
  (sectorBases addr n).any (fun b => match s.unitSpot r a (max addr b) true with
    | .error .wait => true
    | _ => false)

/-- Write bytes, sector by sector, each poisoned where one of its bytes is (04 R126); `plain` refuses versioned pages (17 R393). -/
def State.unitPut (s : State) (r : Right) (a : Auth) (addr : Nat) (bs : Bytes) (plain : Bool) (pois : List Bool := []) (who : Nat := 0) : Wrote :=
  (sectorBases addr bs.length).foldl (fun (x : Wrote) b =>
    match x.2 with
    | some _ => x
    | none =>
      let lo := max addr b
      let m := min (addr + bs.length) (b + 32) - lo
      let part := (bs.drop (lo - addr)).take m
      let bad := ((pois.drop (lo - addr)).take m).any (fun b => b)
      match x.1.unitSpot r a lo true with
      | .error e => (x.1, some e)
      | .ok (.key k v) =>
        if v && plain then (x.1, some (.trap ⟨.accessFault, 0, BitVec.ofNat 64 lo⟩))
        else if v && a.att ≠ (x.1.ctx a.ctx).step.t then x
        else ((x.1.clean k).vstore k part bad, none)
      | .ok (.far pa) =>
        (x.1.request ⟨.sector who (pa / 32), pa, m, a.ctx, a.li, a.k, false, 0, 0⟩ (storePk part (if bad then 1 else 0) a.att r.vw), none)) (s, none)

/-! ## Owner requests (18 R423) -/

/-- A request that its rule may refuse. -/
def orRefuse (f : Option State) : Chk State :=
  match f with
  | some t => .ok t
  | none => raise .accessFault

/-- A request of the mailbox (18 R423), with its operands. A repair map update names an image that the device fetches. -/
inductive OwnReq where
  | handle (c : Ctx) (i : BitVec 12) (r : BitVec 512)
  | version (c : Ctx) (va : W64) (on : Bool)
  | cores (c : Ctx) (set : BitVec 384) (stk : BitVec 128) (sz : W64)
  | unit (dove : Bool) (c : Ctx) (v : W64)
  | restore (c : Ctx) (ra : W64)
  | halt (freeze : Bool) (t : DebugTarget)
  | resume (t : DebugTarget)
  | repair
  | quote (n : BitVec 256)
  | power (v : BitVec 16)
  | ring (n : BitVec 7) (d : BitVec 256)

/-- A core or a launch, and its number. -/
def targetBytes : DebugTarget → Bytes
  | .core k => bytesLE 4 0 ++ bytesLE 4 k
  | .launch li => bytesLE 4 1 ++ bytesLE 4 li

/-- The code of a request, and its operands from byte 8 of the mailbox on. Their places are the model's (log entry 20). -/
def OwnReq.bytes : OwnReq → Nat × Bytes
  | .handle c i r => (1, bytesLE 4 c.toNat ++ bytesLE 4 i.toNat ++ bytesLE 64 r.toNat)
  | .version c va on => (if on then 2 else 3, bytesLE 8 c.toNat ++ bytesLE 8 va.toNat)
  | .cores c m stk sz => (4, bytesLE 8 c.toNat ++ bytesLE 48 m.toNat ++ bytesLE 16 stk.toNat ++ bytesLE 8 sz.toNat)
  | .unit d c v => (5, bytesLE 4 d.toNat ++ bytesLE 4 c.toNat ++ bytesLE 8 v.toNat)
  | .restore c ra => (6, bytesLE 8 c.toNat ++ bytesLE 8 ra.toNat)
  | .halt f t => (7, bytesLE 4 f.toNat ++ targetBytes t)
  | .resume t => (8, bytesLE 4 0 ++ targetBytes t)
  | .repair => (9, [])
  | .quote n => (10, bytesLE 32 n.toNat)
  | .power v => (11, bytesLE 2 v.toNat)
  | .ring n d => (12, bytesLE 8 n.toNat ++ bytesLE 32 d.toNat)

/-- The request that a code and operands ask of the device; none for another code. -/
def reqOf (code : Nat) (bs : Bytes) : Option OwnReq :=
  let f (o n : Nat) : Nat := natLE ((bs.drop o).take n)
  let c : Ctx := BitVec.ofNat 4 (f 0 1)
  let q (o : Nat) : W64 := BitVec.ofNat 64 (f o 8)
  let t : DebugTarget := if f 4 1 = 0 then .core (f 8 4 % 384) else .launch (f 8 4)
  match code with
  | 1 => some (.handle c (BitVec.ofNat 12 (f 4 2)) (BitVec.ofNat 512 (f 8 64)))
  | 2 => some (.version c (q 8) true)
  | 3 => some (.version c (q 8) false)
  | 4 => some (.cores c (BitVec.ofNat 384 (f 8 48)) (BitVec.ofNat 128 (f 56 16)) (q 72))
  | 5 => some (.unit (f 0 1 % 2 == 1) (BitVec.ofNat 4 (f 4 1)) (q 8))
  | 6 => some (.restore c (q 8))
  | 7 => some (.halt (f 0 1 % 2 == 1) t)
  | 8 => some (.resume t)
  | 9 => some .repair
  | 10 => some (.quote (BitVec.ofNat 256 (f 0 32)))
  | 11 => some (.power (BitVec.ofNat 16 (f 0 2)))
  | 12 => some (.ring (BitVec.ofNat 7 (f 0 1)) (BitVec.ofNat 256 (f 8 32)))
  | _ => none

/-- A request stands in the mailbox. -/
def State.mailPut (s : State) (code : Nat) (bs : Bytes) : State :=
  s.setPkg { s.pkg with mbox := bytesLE 4 code ++ List.replicate 4 0 ++ bs ++ s.pkg.mbox.drop (8 + bs.length) }

/-- A request ends, or goes on: status 2 done, 3 refused, 1 while it waits for a page in transit or for another peer. -/
def State.mailEnds (s : State) (w code : Nat) (f : Chk State) : State :=
  match f with
  | .ok t => t.setPkg { t.pkg with mail := 2, req := none }
  | .error (.ask who pa) => (s.askFar who pa (BitVec.ofNat 4 (who / 8)) 1024 s.k).setPkg { s.pkg with mail := 1, req := some (w, code) }
  | .error .wait => s.setPkg { s.pkg with mail := 1, req := some (w, code) }
  | .error _ => s.setPkg { s.pkg with mail := 3, req := none }

/-- An owner request (18 R423): the owner `w` writes it and the device executes it. From another master, or while a request is busy, it is
discarded; the repair map update for which the mailbox already waits is the one whose image has come. A request that is written as an event is
executed at once; one that is posted through the window waits its turn (DESIGN CHOICE, log entry 85). -/
def owner (w : Nat) (q : OwnReq) (s : State) (f : Chk State) : Host.Outcome State Fault Refusal :=
  let (code, bs) := q.bytes
  .next (
    if code = 9 && s.pkg.req = some (w, 9) then s.mailEnds w 9 f
    else if s.pkg.owner.toNat ≠ w || s.pkg.req.isSome then s
    else (s.mailPut code bs).mailEnds w code (f.map (fun t => t.mailPut code bs)))

/-- Raise the owner's host interrupt: an MSI-X vector of the function that owns the device (18 R421). -/
def State.hostIntr (s : State) : State :=
  s.setPkg { s.pkg with intr := if s.pkg.owner.toNat < 16 then s.pkg.intr ||| BitVec.ofNat 16 (2 ^ s.pkg.owner.toNat) else s.pkg.intr }

end Sys2Proof.Machine
end

