-- ==== Sys2Proof/Machine/Versions.lean ====
section
/-! DEFINITION. Versioned memory as the owner and the background scrub work on it (16 R378, R380, R383, R386, R390, R391, 21
R503): marking a page, the scrub, tensor handles, the restore of a step position, and the repair of poisoned lines. -/
namespace Sys2Proof.Machine

/-- INSTALL_TENSOR_HANDLE (R378). -/
def execInstallTensorHandle (w : Nat) (ctx : Ctx) (idx : BitVec 12) (rec : BitVec 512) (s : State) :
    Host.Outcome State Fault Refusal :=
  owner w (.handle ctx idx rec) s (.ok (s.setPkg { s.pkg with handles := Map.set handleReset s.pkg.handles (ctx.toNat * 4096 + idx.toNat) rec }))

/-! ## Marking (R380) -/

/-- The leaf that holds the set version of a line: the one that the read rule returns when no leaf is dry. -/
def State.setLeaf (s : State) (c : Ctx) (line : Nat) : Nat :=
  let r := s.ctx c
  let t0 := s.leaf line 0
  let t1 := s.leaf line 1
  let ok (t : BitVec 16) : Bool := t != r.step.t && (Map.get none r.dead t.toNat).isNone && atOrBefore r.step.g t
  if ok t0 && ok t1 then (if (r.step.g - t1).toNat < (r.step.g - t0).toNat then 1 else 0)
  else if ok t1 then 1 else 0

/-- Set the attempt tags of both leaves of the lines `lo`, ..., `lo + n - 1`. -/
def State.tagLines (s : State) (lo n : Nat) (t0 t1 : BitVec 16) : State :=
  { s with leafTag := (List.range n).foldl (fun m i => Map.set 0 (Map.set 0 m (2 * (lo + i)) t0) (2 * (lo + i) + 1) t1) s.leafTag }

/-- The 4 KiB parts of frame `f` that the local range [a, a + n) covers. -/
def partsOf (f a n : Nat) : BitVec 16 :=
  BitVec.ofNat 16 (packLanes 1 ((List.range 16).map (fun i =>
    (decide (a ≤ f * 65536 + 4096 * i) && decide (f * 65536 + 4096 * i < a + n)).toNat)))

/-- Mark the part of frame `f` that a page covers: both leaves start with the content of the line and the tag G, and no cluster cache
holds a sector of it dirty (R385). None when the frame is versioned for another context, or no frame of the same stack is free for a
shadow. -/
def State.markFrame (s : State) (c : Ctx) (a n f : Nat) : Option State :=
  let g := (s.ctx c).step.g
  let m := partsOf f a n
  let sh := match Map.get none s.frames f with
    | some x => if x.ctx = c && x.part &&& m = 0 then some (x.shadow, x.part, if x.born = s.pkg.pass.toNat then x.fresh else 0) else none
    | none => (s.frameBeside f).map (fun g => (g, 0, 0))
  match sh with
  | none => none
  | some (x, old, young) =>
    let lo := max a (f * 65536)
    let len := min (a + n) (f * 65536 + 65536) - lo
    let k := x * 65536 + lo % 65536
    let s := { s with mem := writeBytes s.mem k (readBytes s.mem lo len) }
    let s := (List.range (len / 16)).foldl (fun s i => s.setTag (k + 16 * i) (s.tagAt (lo + 16 * i))) s
    let s := (List.range (len / 32)).foldl (fun (s : State) i =>
      { s with pois := Map.set false s.pois (k / 32 + i) (s.poisAt (lo + 32 * i)) }) s
    let s := s.tagLines (lo / 128) (len / 128) g g
    let s := s.setShr { s.shr with dirty := s.shr.dirty.filter (fun e => !(unitsOf 32 lo len).contains e.1) }
    some { s with frames := Map.set none s.frames f (some ⟨c, x, s.pkg.pass.toNat, old ||| m, young ||| m⟩) }

/-- Unmark it: each line keeps its set leaf. -/
def State.unmarkFrame (s : State) (a n f : Nat) : State :=
  match Map.get none s.frames f with
  | none => s
  | some x =>
    let lo := max a (f * 65536)
    let len := min (a + n) (f * 65536 + 65536) - lo
    let s := (List.range (len / 128)).foldl (fun s i =>
      let line := lo / 128 + i
      if s.setLeaf x.ctx line = 0 then s
      else
        let k := x.shadow * 65536 + (128 * line) % 65536
        let s := { s with mem := writeBytes s.mem (128 * line) (readBytes s.mem k 128) }
        let s := (List.range 8).foldl (fun s j => s.setTag (128 * line + 16 * j) (s.tagAt (k + 16 * j))) s
        (List.range 4).foldl (fun (s : State) j =>
          { s with pois := Map.set false s.pois (4 * line + j) (s.poisAt (k + 32 * j)) }) s) s
    let s := s.tagLines (lo / 128) (len / 128) 0 0
    let left := x.part &&& ~~~(partsOf f a n)
    { s with frames := Map.set none s.frames f (if left = 0 then none else some { x with part := left }) }

/-- Whether another context maps a byte of a local range (R380). -/
def State.sharedRange (s : State) (c : Ctx) (pa n : Nat) : Bool :=
  s.ctxs.any (fun e => e.1 != c.toNat && e.2.pages.any (fun p => decide (p.pa < pa + n) && decide (pa < p.pa + 2 ^ p.sz)))

/-- Mark or unmark the page of a context that holds `va`. Refused while an attempt of the context is open or awaits its
decision, and for a page that another context maps. Of a page of another peer only the mark is held here: its lines have their leaves at
its home (log entry 68). -/
def State.setVersioned (s : State) (c : Ctx) (va : Nat) (on : Bool) : Option State :=
  match s.page c va with
  | none => none
  | some p =>
    let st := (s.ctx c).step
    let a := p.pa % 2 ^ 45
    let n := 2 ^ p.sz
    if st.open_ || st.wait || p.vers == on || s.sharedRange c p.pa n then none
    else
      let fs := if s.remote p.pa then [] else unitsOf 65536 a n
      let s' := if on then fs.foldl (fun (x : Option State) f => x.bind (fun s => s.markFrame c a n f)) (some s)
                else some (fs.foldl (fun s f => s.unmarkFrame a n f) s)
      s'.map (fun s =>
        let r := s.ctx c
        s.setCtx c { r with pages := r.pages.map (fun q => if q.va = p.va then { q with vers := on } else q) })

/-- MARK_VERSIONED (R380). -/
def execMarkVersioned (w : Nat) (ctx : Ctx) (va : W64) (s : State) : Host.Outcome State Fault Refusal :=
  owner w (.version ctx va true) s (orRefuse (s.setVersioned ctx va.toNat true))

/-- UNMARK_VERSIONED (R380). -/
def execUnmarkVersioned (w : Nat) (ctx : Ctx) (va : W64) (s : State) : Host.Outcome State Fault Refusal :=
  owner w (.version ctx va false) s (orRefuse (s.setVersioned ctx va.toNat false))

/-! ## The scrub (R383, R386) -/

/-- One visit: the set leaf's tag is brought up to G when it is old, the free leaf is parked. -/
def State.visitLine (s : State) (f : Frame) (line : Nat) : State :=
  let st := (s.ctx f.ctx).step
  let l := s.setLeaf f.ctx line
  let tag := s.leaf line l
  let s := if 2 ^ 14 ≤ (st.g - tag).toNat then { s with leafTag := Map.set 0 s.leafTag (2 * line + l) st.g } else s
  if s.leaf line (1 - l) = st.t then s
  else { s with leafTag := Map.set 0 s.leafTag (2 * line + (1 - l)) (st.g + 0x8000) }

/-- VERSION_SCRUB_VISIT (R386): the scrub visits a versioned line, once in a pass. -/
def execVersionScrubVisit (line : Nat) (s : State) : Host.Outcome State Fault Refusal :=
  .next (match s.frame (128 * line) with
    | none => s
    | some f =>
      if Map.get false s.pkg.seen line then s
      else (s.visitLine f line).setPkg { s.pkg with seen := Map.set false s.pkg.seen line true })

/-- Every line that was versioned when the pass began has been visited. -/
def State.passDone (s : State) : Bool :=
  s.frames.all (fun e => match e.2 with
    | none => true
    | some f => (List.range 512).all (fun i =>
        !f.part.toNat.testBit (i / 32) || (f.born == s.pkg.pass.toNat && f.fresh.toNat.testBit (i / 32)) || Map.get false s.pkg.seen (e.1 * 512 + i)))

/-- SCRUB_PASS_END (R386): the next pass begins; tags that were aborted before this pass began leave DEAD, and the count of
decisions starts again. -/
def execScrubPassEnd (s : State) : Host.Outcome State Fault Refusal :=
  .next (
    if !s.passDone then s
    else
      let p := s.pkg.pass.toNat
      let drop (r : CtxRec) : CtxRec := { r with dead := r.dead.filter (fun e => e.2 == some p), lag := 0 }
      ({ s with ctxs := Map.mapVals CtxRec.reset drop s.ctxs } : State).setPkg
        { s.pkg with pass := s.pkg.pass + 1, seen := [] })

/-! ## Restoring a step position (R390, R391) -/

/-- Where the set version of the byte at a key lies (R391). -/
def State.setKey (s : State) (k : Nat) : Nat :=
  match s.frame k with
  | none => k
  | some f => leafKey f k (s.setLeaf f.ctx (k / 128))

/-- Bytes of a context's memory, each of this device where `at_` says that it lies. What another peer holds is asked of it, and its home
answers by the read rule, which returns the set version while no step is open. Poison refuses (log entry 32). -/
def State.ctxBytes (s : State) (c : Ctx) (at_ : Nat → Nat) (va n : Nat) : Chk Bytes :=
  (sectorBases va n).foldlM (fun (l : Bytes) b =>
    let lo := max va b
    let m := min (va + n) (b + 32) - lo
    match s.page c lo with
    | none => raise .translationFault 0 (BitVec.ofNat 64 lo)
    | some p =>
      if p.transit then .error .wait
      else
        let pa := p.pa + (lo - p.va)
        if s.remote pa then do
          let (bs, bad) ← s.farBytes (whoCtx c) pa m
          if bad then raise .poisonConsumed else .ok (l ++ bs)
        else if s.poisAt (at_ (s.homeKey pa)) then raise .poisonConsumed
        else .ok (l ++ readBytes s.mem (at_ (s.homeKey pa)) m)) []

/-- The range lies wholly in versioned pages of the context. -/
def State.allVersioned (s : State) (c : Ctx) (va n : Nat) : Bool :=
  (unitsOf 4096 va n).all (fun j => match s.page c (max va (4096 * j)) with
    | some p => p.vers
    | none => false)

/-- What a restore record gives to a context and to its units (R391). -/
def State.restored (s : State) (c : Ctx) (seed knext : W64) (cseq morc : W32) (dvpos : Nat) : State :=
  let s := s.setCtx c { s.ctx c with rngseed := seed, knext := some knext }
  let g := s.gctx c
  let s := s.setGctx c { g with nseq := (List.range 16).foldl (fun m i => Map.set 0 m i cseq) g.nseq,
                                st := if g.st = 7 then 0 else g.st, abrt := if g.st = 7 then 0 else g.abrt }
  let s := if bitsOf s.pkg.mo.cfg 4 4 = c.toNat then s.setPkg { s.pkg with mo := { s.pkg.mo with rc := morc } } else s
  if s.pkg.dv.ctx = c then s.setDove { s.pkg.dv with restore := some dvpos } else s

/-- The checks of R391 in order, and what the record gives; a check that fails refuses with Skew Fault. -/
def State.restore (s : State) (c : Ctx) (ra : Nat) : Chk State := do
  let r := s.ctx c
  if r.step.open_ || r.step.wait || ra % 64 ≠ 0 then raise .skewFault
  let bs ← s.ctxBytes c s.readKey ra 64
  let f (o n : Nat) : Nat := natLE ((bs.drop o).take n)
  let curl := f 0x18 4
  let ok := decide ((crc32c (bs.take 0x3C)).toNat = f 0x3C 4) && decide (f 0x30 1 % 16 = c.toNat) &&
    decide (f 0x10 8 % 128 = 0) && decide (curl % 128 = 0) && decide (curl ≤ 2 ^ 20) && s.allVersioned c (f 0x10 8) curl
  if !ok then raise .skewFault
  let data ← s.ctxBytes c s.setKey (f 0x10 8) curl
  if (crc32c data).toNat ≠ f 0x1C 4 then raise .skewFault
  .ok ((s.dropGot (whoCtx c)).restored c (BitVec.ofNat 64 (f 8 8)) (BitVec.ofNat 64 (f 0 8)) (BitVec.ofNat 32 (f 0x28 4))
    (BitVec.ofNat 32 (f 0x20 4)) (f 0x24 2))

/-- RESTORE_STEP_POSITION (R391). -/
def execRestoreStepPosition (w : Nat) (ctx : Ctx) (ra : W64) (s : State) : Host.Outcome State Fault Refusal :=
  owner w (.restore ctx ra) s (s.restore ctx ra.toNat)

/-! ## Repair of poison (21 R503) -/

/-- POISON_REPAIR (R503): a poisoned set leaf of a versioned line of the context takes what the first live replica sent for
it: data, poison, granule tags and attempt tag. -/
def execPoisonRepair (ctx : Ctx) (line : Nat) (data : BitVec 1024) (pois : BitVec 4) (tg : LineTags) (s : State) :
    Host.Outcome State Fault Refusal :=
  .next (match s.frame (128 * line) with
    | none => s
    | some f =>
      let l := s.setLeaf ctx line
      let k := leafKey f (128 * line) l
      if f.ctx ≠ ctx || !(List.range 4).any (fun i => s.poisAt (k + 32 * i)) || (s.ctx ctx).step.open_ then s
      else
        let s := { s with mem := writeBytes s.mem k (bytesLE 128 data.toNat), leafTag := Map.set 0 s.leafTag (2 * line + l) tg.att }
        let s := (List.range 8).foldl (fun s i => s.setTag (k + 16 * i) (tg.gran.toNat.testBit i)) s
        (List.range 4).foldl (fun (s : State) i =>
          { s with pois := Map.set false s.pois (k / 32 + i) (pois.toNat.testBit i) }) s)

end Sys2Proof.Machine
end

