-- ==== Sys2Proof/Machine/Mortise.lean ====
section
/-! DEFINITION. The Mortise and the Plane (17 R394 to R408): episodes, rewards, orphans, time-outs, the scan, and the release
at a commit. -/
namespace Sys2Proof.Machine

def State.setMo (s : State) (m : Mortise) : State := s.setPkg { s.pkg with mo := m }
def Mortise.ctx (m : Mortise) : Ctx := BitVec.ofNat 4 (bitsOf m.cfg 4 4)
def Mortise.ifs (m : Mortise) : Nat := bitsOf m.cfg 16 5

/-- The unit is enabled: EN, and a legal IFS (R394). -/
def Mortise.enabled (m : Mortise) : Bool := bitsOf m.cfg 0 1 == 1 && decide (4 ≤ m.ifs) && decide (m.ifs ≤ 16)

def State.refuseMo (s : State) : State := s.setMo { s.pkg.mo with refuse := s.pkg.mo.refuse + 1 }

/-- Authority of the Mortise's own accesses (R393). -/
def State.moAuth (s : State) : Auth := s.unitAuth s.pkg.mo.ctx

def State.moRead (s : State) (addr n who : Nat) : Chk (Bytes × List Bool) := s.unitRead unitRight s.moAuth addr n who

/-- A write of the Mortise, which its own reads see at once, also of another peer's memory (19 R445 keeps their order). -/
def State.moWrite (s : State) (addr : Nat) (bs : Bytes) : Wrote :=
  let (t, e) := s.unitPut unitRight s.moAuth addr bs true [] whoMoW
  (match s.unitSpot unitRight s.moAuth addr true with
    | .ok (.far pa) => t.patchGot whoMo pa bs
    | _ => t, e)

/-- Of the sectors that hold some bytes, the first that another peer holds and that has not come is asked for. -/
def State.moAsk (s : State) (l : List Nat) : State :=
  match l.findSome? (fun a => match s.moRead a 1 whoMo with
    | .error (.ask who pa) => some (who, pa)
    | _ => none) with
  | some (who, pa) => s.askFar who pa s.pkg.mo.ctx 1024 s.k
  | none => s

/-! ## The table (R396, R402) -/

/-- Set of a TID (R396). -/
def moSet (tid : W64) : Nat := (bitsOf tid 32 32 ^^^ bitsOf tid 0 32) * 0x9E3779B1 % 2 ^ 32 / 2 ^ 20

/-- The record in use for a TID, with its place. -/
def Mortise.find (m : Mortise) (tid : W64) : Option (Nat × Episode) :=
  m.table.findSome? (fun e => match e.2 with
    | some x => if x.tid = tid then some (e.1, x) else none
    | none => none)

def Mortise.put (m : Mortise) (k : Nat) (e : Option Episode) : Mortise := { m with table := Map.set none m.table k e }

/-- A free record of a set. -/
def Mortise.freeWay (m : Mortise) (set : Nat) : Option Nat :=
  ((List.range 16).map (16 * set + ·)).find? (fun k => (Map.get none m.table k).isNone)

/-- An open episode that has all its rewards and values becomes complete (R401). -/
def State.moCheck (s : State) (k : Nat) : State :=
  match Map.get none s.pkg.mo.table k with
  | none => s
  | some e =>
    if e.st = .open_ && e.nrec = e.len && e.len ≤ e.nval then
      let m := s.pkg.mo
      s.setMo { (m.put k (some { e with st := .complete, seq := m.seq })) with seq := m.seq + 1 }
    else s

/-! ## Rewards (R398, R399) -/

/-- A byte of a bitmap in memory; one whose sector is poisoned cannot be read (11 R324; log entry 32). -/
def State.moByte (s : State) (addr : Nat) : Chk Nat := do
  let (bs, bad) ← s.moRead addr 1 whoMo
  if bad.any (fun b => b) then raise .poisonConsumed 0 (BitVec.ofNat 64 addr) else .ok (bs.headD 0).toNat

/-- Set or clear bit `t` of a bitmap in memory. -/
def State.moBit (s : State) (base t : Nat) (b : Bool) : Wrote :=
  match s.moByte (base + t / 8) with
  | .error e => (s, some e)
  | .ok v =>
    let bit := 2 ^ (t % 8)
    s.moWrite (base + t / 8) [BitVec.ofNat 8 (v - v / bit % 2 * bit + (if b then bit else 0))]

/-- Bit `t` of a bitmap, as memory holds it. -/
def State.moBitAt (s : State) (base t : Nat) : Chk Bool := (s.moByte (base + t / 8)).map (fun v => v.testBit (t % 8))

/-- A message goes to the orphan queue (R399). -/
def State.orphan (s : State) (r : Reward) : State :=
  let m := s.pkg.mo
  if 1024 ≤ m.orph.length then s.setMo { m with orpl := m.orpl + 1 }
  else s.setMo { m with orph := m.orph ++ [r], orphN := m.orphN + 1 }

/-- The bytes of the bitmaps that hold the bits of step `t`. -/
def Episode.bits (e : Episode) (t : Nat) : List Nat := [e.rbmp + t / 8, e.rbmp + 512 + t / 8]

/-- What follows a write of the Mortise: a fault refuses the event; at a page in transit the event is taken once the mark
clears (log entry 54). -/
def Wrote.andThen (w : Wrote) (f : State → Option State) : Option State :=
  match w with
  | (s, none) => f s
  | (s, some (.trap _)) => some s.refuseMo
  | (_, some _) => none

/-- A reward for the open episode at place `k`: r_t, done bit, received bit, in this order (R398). -/
def State.rewardTo (s : State) (k : Nat) (e : Episode) (r : Reward) : Option State :=
  let t := r.t.toNat
  if e.len ≤ t then some s.refuseMo
  else match s.moBitAt e.rbmp t with
    | .error (.trap _) => some s.refuseMo
    | .error _ => none
    | .ok true => some (s.setMo { s.pkg.mo with dup := s.pkg.mo.dup + 1 })
    | .ok false =>
      (s.moWrite (e.rwdp + 4 * t) (bytesLE 4 r.r.toNat)).andThen (fun s =>
        (s.moBit (e.rbmp + 512) t r.term).andThen (fun s =>
          (s.moBit e.rbmp t true).andThen (fun s =>
            some ((s.setMo (s.pkg.mo.put k (some { e with nrec := e.nrec + 1 }))).moCheck k))))

/-- A reward message reaches the Mortise (R398); none while a page that it needs is in transit. -/
def State.reward (s : State) (r : Reward) : Option State :=
  let m := s.pkg.mo
  if !m.enabled then some s.refuseMo
  else match m.find r.tid with
    | some (k, e) => if e.st = .open_ then s.rewardTo k e r else some (s.orphan r)
    | none => some (s.orphan r)

/-- The bytes that a reward reads. -/
def State.rewardReads (s : State) (r : Reward) : List Nat :=
  match s.pkg.mo.find r.tid with
  | some (_, e) => if e.st = .open_ then e.bits r.t.toNat else []
  | none => []

/-- A time-out is due (R400, R401): it goes ahead of every other event. -/
def State.episodeDue (s : State) : Option (Nat × Episode) :=
  s.pkg.mo.table.findSome? (fun e => match e.2 with
    | some x => if x.st = .open_ && x.deadline ≠ 0 && x.deadline.toNat ≤ s.cyc then some (e.1, x) else none
    | none => none)

/-! ## EPOPEN, EPSTEP, RWPOST (R396, R397, 08 R263) -/

/-- Join the orphans of a TID in queue order (R396). -/
def State.joinOrphans (s : State) (tid : W64) : Option State :=
  let mine := s.pkg.mo.orph.filter (fun r => r.tid == tid)
  let s := s.setMo { s.pkg.mo with orph := s.pkg.mo.orph.filter (fun r => r.tid != tid) }
  mine.foldlM (fun s r => s.reward r) s

/-- What an operation of a unit has come to: it is taken, or it stays at the head of its queue (R258) while a page is in transit or another peer
has been asked for a sector. -/
inductive Took where
  | taken (s : State)
  | stays (s : State)

/-- A refusal for a faulting access is also reported to the issuing core (R396). -/
def State.refuseFor (s : State) (o : Op) (e : Stop') : Took :=
  match e with
  | .trap t => .taken (s.refuseMo.reportOp o.li o.pid t)
  | e => .stays (s.unitWaits o.auth e)

/-- An event that needs a page in transit, or bytes that another peer has yet to give, has not happened; those are asked for. -/
def State.orStays (s : State) (reads : List Nat) (t : Option State) : Took :=
  match t with
  | some t => .taken (t.dropGot whoMo)
  | none => .stays (s.moAsk reads)

/-- The capability operand of an operation. -/
def Op.cap (o : Op) (i : Nat) : Cap :=
  match (o.args.getD i ⟨0, .plain⟩).attr with
  | .cap c => c
  | _ => nullCap

def Op.val (o : Op) (i : Nat) : W64 := (o.args.getD i ⟨0, .plain⟩).v

/-- EPOPEN (R396). A poisoned record opens nothing (11 R324; log entry 32). -/
def State.epopen (s : State) (o : Op) : Took :=
  let m := s.pkg.mo
  let c := o.cap 0
  if !m.enabled then .taken s.refuseMo
  else match s.unitRead (rightOf c) o.auth c.cur 64 (whoOp o) with
    | .error e => s.refuseFor o e
    | .ok (bs, bad) =>
      let s0 := s
      let s := s.dropGot (whoOp o)
      let f (off n : Nat) : Nat := natLE ((bs.drop off).take n)
      let len := f 0x38 2
      let tid : W64 := BitVec.ofNat 64 (f 0 8)
      let ptrs := [f 8 8, f 0x10 8, f 0x18 8, f 0x20 8]
      let badRec := len = 0 || 4096 < len || ptrs.any (fun p => decide (2 ^ 56 ≤ p)) || f 0x3F 1 ≠ 0 || bad.any (fun b => b)
      match m.freeWay (moSet tid) with
      | none => .taken s.refuseMo
      | some k =>
        if badRec || (m.find tid).isSome then .taken s.refuseMo
        else
          let z := List.replicate (cdiv len 8) (0 : Byte)
          match s.moWrite (f 0x18 8) z with
          | (s, some (.trap t)) => s.refuseFor o (.trap t)
          | (_, some e) => s0.refuseFor o e
          | (s, none) =>
            match s.moWrite (f 0x18 8 + 512) z with
            | (s, some (.trap t)) => s.refuseFor o (.trap t)
            | (_, some e) => s0.refuseFor o e
            | (s, none) =>
              let e : Episode :=
                { tid := tid, valp := f 8 8, rwdp := f 0x10 8, rbmp := f 0x18 8, advp := f 0x20 8,
                  deadline := BitVec.ofNat 64 (f 0x28 8), polv := BitVec.ofNat 32 (f 0x30 4), boot := BitVec.ofNat 32 (f 0x34 4),
                  bootBad := false, len := len, nval := 0, nrec := 0, st := .open_, tz := false, nf := false,
                  term := false, seq := 0, win := 0 }
              s0.orStays ((s.pkg.mo.orph.filter (fun r => r.tid == tid)).flatMap (fun r => e.bits r.t.toNat))
                ((s.setMo (s.pkg.mo.put k (some e))).joinOrphans tid)

/-- EPSTEP (R397): poison of a value travels with it (R404). One that a fault refuses appends nothing, and leaves no byte
written (log entry 54). -/
def State.epstep (s : State) (o : Op) : Took :=
  let m := s.pkg.mo
  let n := (o.val 2).toNat
  let c := o.cap 1
  match m.find (o.val 0) with
  | none => .taken s.refuseMo
  | some (k, e) =>
    if e.st ≠ .open_ || e.len + 1 < e.nval + n then .taken s.refuseMo
    else match s.unitRead (rightOf c) o.auth c.cur (4 * n) (whoOp o) with
      | .error (.trap _) => .taken (s.dropGot (whoOp o)).refuseMo
      | .error e => .stays (s.unitWaits o.auth e)
      | .ok (bs, bad) =>
        let inArr := min n (e.len - e.nval)
        match s.unitPut unitRight s.moAuth (e.valp + 4 * e.nval) (bs.take (4 * inArr)) true bad whoMoW with
        | (_, some (.trap _)) => .taken (s.dropGot (whoOp o)).refuseMo
        | (_, some _) => .stays s
        | (s, none) =>
          let e := if inArr < n then
              { e with boot := BitVec.ofNat 32 (natLE ((bs.drop (4 * inArr)).take 4)), bootBad := bad.getD (4 * inArr) false } else e
          .taken (((s.dropGot (whoOp o)).setMo (s.pkg.mo.put k (some { e with nval := e.nval + n }))).moCheck k)

/-- A reward packet (19 R446, OP 0x08): TID, then the message of 08 R263 (the model's layout, log entry 20). -/
def rewardPk (peer : BitVec 12) (c : Ctx) (tid msg : W64) : Packet :=
  { pkZero with dst := peer, vc := vcReq, ctx := c, op := 8, data := flitsOf 1 (bytesLE 8 tid.toNat ++ bytesLE 8 msg.toNat) }

/-- The reward a packet carries. -/
def rewardOf (p : Packet) : Reward :=
  let m := pkField p 8 8
  ⟨BitVec.ofNat 64 (pkField p 0 8), BitVec.ofNat 12 (nb m 36 12), BitVec.ofNat 32 m, nb m 48 1 == 1⟩

/-- An MO operation is taken (R401, 08 R264); none while it stalls on a page in transit. -/
def State.takeMo (s : State) (o : Op) : Took :=
  match nb o.word.toNat 8 4 with
  | 0 => s.epopen o
  | 1 => s.epstep o
  | _ => .taken (s.send (rewardPk (BitVec.ofNat 12 (o.val 0).toNat) o.ctx (o.val 1) (o.val 2)))

/-- The operation leaves its queue, if it was taken. -/
def Took.leaves (t : Took) (o : Op) : State :=
  match t with
  | .taken s => s.at o.core (fun s => s.setCore (s.core.takeOp o))
  | .stays s => s

/-! ### The order of events (R401; DEDUCED, log entry 25) -/

/-- The EPOPEN or EPSTEP at the head of a core's MO queue that the Mortise can take: issued in an earlier cycle, of a core that is not
frozen (09 R291), and not stalled. -/
def State.moReady (s : State) (c : Core) : Option Op :=
  match c.headOp .mo with
  | none => none
  | some o =>
    if nb o.word.toNat 8 4 ≤ 1 && decide (o.c < s.cyc) && c.halt != .freeze then
      (match s.takeMo o with
        | .taken _ => some o
        | .stays _ => none)
    else none

/-- The ready core of lowest package-wide index. -/
def State.moNext (s : State) : Option (Nat × Op) :=
  s.allCores.foldl (fun b e => match s.moReady e.2 with
    | none => b
    | some o => match b with
      | some x => if x.1 < e.1 then b else some (e.1, o)
      | none => some (e.1, o)) none

/-- An MO operation of core `k` waits for those of lower cores. -/
def State.moWaits (s : State) (k : Nat) (o : Op) : Bool :=
  decide (nb o.word.toNat 8 4 ≤ 1) && (decide (s.cyc ≤ o.c) || s.moNext.any (fun x => decide (x.1 < k)))

/-- The cores' operations go ahead of a fabric message. Fuel bounds their number. -/
def State.moDrain (s : State) : Nat → State
  | 0 => s
  | fuel + 1 => match s.moNext with
    | none => s
    | some x => ((s.takeMo x.2).leaves x.2).moDrain fuel

/-- A reward message is taken after time-outs and the cores' operations; none while something that it needs is in transit or has not come. -/
def State.rewardTurn (s : State) (r : Reward) : Option State :=
  if s.episodeDue.isSome then none else ((s.moDrain (8 * s.allCores.length)).reward r).map (fun s => s.dropGot whoMo)

/-- What a reward that waits needs of other peers is asked for, behind time-outs. -/
def State.rewardAsks (s : State) (r : Reward) : State := if s.episodeDue.isSome then s else s.moAsk (s.rewardReads r)

/-- REWARD_ARRIVAL (R398). -/
def execRewardArrival (tid : W64) (t : BitVec 12) (r : BitVec 32) (term : Bool) (s : State) : Host.Outcome State Fault Refusal :=
  .next ((s.rewardTurn ⟨tid, t, r, term⟩).getD (s.rewardAsks ⟨tid, t, r, term⟩))

/-! ## Time-outs (R400) -/

/-- A write of which only a page in transit holds back what follows. -/
def Wrote.unlessTransit (w : Wrote) : Option State :=
  match w with
  | (s, none) => some s
  | (s, some (.trap _)) => some s
  | (_, some _) => none

/-- Steps whose received bit is clear take +0 and done 0; none while a page is in transit. -/
def State.zeroMissing (s : State) (e : Episode) : Option State :=
  (List.range e.len).foldlM (fun s t =>
    match s.moBitAt e.rbmp t with
    | .ok true => some s
    | .error (.trap _) => some s
    | .error _ => none
    | .ok false => do
      let s ← (s.moWrite (e.rwdp + 4 * t) [0, 0, 0, 0]).unlessTransit
      (s.moBit (e.rbmp + 512) t false).unlessTransit) s

/-- EPISODE_TIMEOUT (R400). -/
def execEpisodeTimeout (tid : W64) (s : State) : Host.Outcome State Fault Refusal :=
  .next (
    let m := s.pkg.mo
    match m.find tid with
    | none => s
    | some (k, e) =>
      if e.st ≠ .open_ || e.deadline = 0 || s.cyc < e.deadline.toNat then s
      else if bitsOf m.cfg 8 1 = 1 && e.len ≤ e.nval then
        match s.zeroMissing e with
        | none => s.moAsk ((List.range (cdiv e.len 8)).flatMap (fun i => e.bits (8 * i)))
        | some s =>
          let m := s.pkg.mo
          (s.setMo { (m.put k (some { e with st := .complete, tz := true, seq := m.seq })) with
            seq := m.seq + 1, tzr := m.tzr + 1 }).dropGot whoMo
      else s.setMo { (m.put k none) with tout := m.tout + 1 })

/-! ## The Plane (R403, R404) -/

/-- One FP32 operation, rounded to nearest even, on bit patterns. -/
def pAdd (a b : Nat) : Nat := (rne f32 ((decodeF f32 a).add (decodeF f32 b)).1).1
def pSub (a b : Nat) : Nat := (rne f32 ((decodeF f32 a).add (decodeF f32 b).neg).1).1
def pMul (a b : Nat) : Nat := (rne f32 ((decodeF f32 a).mul (decodeF f32 b)).1).1

/-- Words of the scan at one step: reward, value, done. -/
structure PlaneIn where
  r : Nat
  v : Nat
  d : Bool
  deriving DecidableEq, Repr

/-- The recurrence of R403 from the last step down: the outputs (A_t, R_t) in ascending t. `an` and `vn` enter from above. -/
def planeScan (gam glam : Nat) : List PlaneIn → Nat → Nat → List (Nat × Nat)
  | [], _, _ => []
  | x :: below, an, vn =>
    let nd := if x.d then 0 else 0x3F800000
    let dl := pSub (pAdd x.r (pMul (pMul gam nd) vn)) x.v
    let at_ := pAdd dl (pMul (pMul glam nd) an)
    planeScan gam glam below at_ x.v ++ [(at_, pAdd at_ x.v)]

def finite32 (x : Nat) : Bool := nb x 23 8 != 255

/-- Values of a run of FP32 words with their poison. -/
def State.moWords (s : State) (addr n : Nat) : Chk (List (Nat × Bool)) := do
  let (bs, bad) ← s.moRead addr (4 * n) whoPlane
  .ok ((List.range n).map (fun i => (natLE ((bs.drop (4 * i)).take 4), bad.getD (4 * i) false)))

/-- The episode's inputs: none when one of them is poisoned or an access faults (R404). -/
def State.planeIn (s : State) (e : Episode) : Chk (Option (List PlaneIn)) := do
  let v ← s.moWords e.valp e.len
  let r ← s.moWords e.rwdp e.len
  let (bm, mb) ← s.moRead (e.rbmp + 512) (cdiv e.len 8) whoPlane
  if e.bootBad || v.any Prod.snd || r.any Prod.snd || mb.any (fun b => b) then .ok none
  else .ok (some ((List.range e.len).map (fun t =>
    ⟨(r.getD t (0, false)).1, (v.getD t (0, false)).1, (bm.getD (t / 8) 0).toNat.testBit (t % 8)⟩)))

/-- The episode that became complete first. -/
def Mortise.oldest (m : Mortise) : Option (Nat × Episode) :=
  m.table.foldl (fun (b : Option (Nat × Episode)) e => match e.2 with
    | some x =>
      if x.st ≠ .complete then b
      else match b with
        | some (_, y) => if x.seq < y.seq then some (e.1, x) else b
        | none => some (e.1, x)
    | none => b) none

/-- The episode at place `k` is freed (R404). -/
def State.planeDrop (s : State) (k : Nat) : State :=
  s.setMo { (s.pkg.mo.put k none) with refuse := s.pkg.mo.refuse + 1, scan := none }

/-- A scan starts: everything that it reads is read now, once. -/
def State.scanStart (s : State) (k : Nat) (e : Episode) : State :=
  let m := s.pkg.mo
  match s.planeIn e with
  | .error (.trap _) => (s.dropGot whoPlane).planeDrop k
  | .error e => s.unitWaits s.moAuth e
  | .ok none => (s.dropGot whoPlane).planeDrop k
  | .ok (some xs) =>
    let last := (xs.getLast?.map PlaneIn.d).getD false
    (s.dropGot whoPlane).setMo { m with scan := some ⟨k, planeScan (bitsOf m.parm 0 32) (bitsOf m.parm 32 32) xs.reverse 0 (if last then 0 else e.boot.toNat), last⟩ }

/-- The outputs of a scan perform, and its episode enters the window; pages in transit hold them back. -/
def State.scanEnd (s : State) (x : Scan) (e : Episode) : State :=
  if s.unitStalls unitRight s.moAuth e.advp (8 * x.out.length) then s
  else match s.moWrite e.advp (x.out.flatMap (fun p => bytesLE 4 p.1 ++ bytesLE 4 p.2)) with
    | (s, some _) => s.planeDrop x.at_
    | (s, none) =>
      let nf := x.out.any (fun p => !finite32 p.1 || !finite32 p.2)
      s.setMo { (s.pkg.mo.put x.at_ (some { e with st := .windowed, nf := nf, term := x.last, win := s.cyc })) with scan := none }

/-- PLANE_SCAN (R403, R404): the oldest complete episode is scanned; its outputs perform, and it enters the window. A page in
transit stalls the Plane. -/
def execPlaneScan (s : State) : Host.Outcome State Fault Refusal :=
  .next (
    let s := match s.pkg.mo.scan, s.pkg.mo.oldest with
      | none, some (k, e) => s.scanStart k e
      | _, _ => s
    match s.pkg.mo.scan with
    | none => s
    | some x => match Map.get none s.pkg.mo.table x.at_ with
      | none => s.setMo { s.pkg.mo with scan := none }
      | some e => s.scanEnd x e)

/-! ## Release (R405 to R407) -/

/-- Order of an episode in its window: POLV, then TID. -/
def Episode.before (x y : Episode) : Bool :=
  decide (x.polv.toNat < y.polv.toNat) || (x.polv == y.polv && decide (x.tid.toNat ≤ y.tid.toNat))

def insertEp (x : Nat × Episode) : List (Nat × Episode) → List (Nat × Episode)
  | [] => [x]
  | y :: r => if x.2.before y.2 then x :: y :: r else y :: insertEp x r

/-- Windowed episodes, sorted. -/
def Mortise.window (m : Mortise) (now : Nat) : List (Nat × Episode) :=
  (m.table.filterMap (fun e => match e.2 with
    | some x => if x.st = .windowed && x.win < now then some (e.1, x) else none
    | none => none)).foldr insertEp []

/-- An infeed entry (R406). -/
def Episode.entry (e : Episode) (stepk : W64) : Bytes :=
  bytesLE 8 e.tid.toNat ++ bytesLE 8 e.advp ++ bytesLE 4 e.polv.toNat ++ bytesLE 2 e.len ++
  bytesLE 2 (e.tz.toNat + 2 * e.nf.toNat + 4 * e.term.toNat) ++ bytesLE 8 stepk.toNat

/-- Write survivors to the ring one after another; the first write that faults ends the release. Answers the TIDs released. -/
def State.releaseRing (s : State) (stepk : W64) : List (Nat × Episode) → State × List W64
  | [] => (s, [])
  | (k, e) :: r =>
    let m := s.pkg.mo
    match s.moWrite (bitsOf m.ifb 0 56 + 32 * (m.rc.toNat % 2 ^ m.ifs)) (e.entry stepk) with
    | (s, some _) => (s.refuseMo.hostIntr, [])
    | (s, none) =>
      let m := s.pkg.mo
      let s := s.setMo { (m.put k none) with rc := m.rc + 1, rel := m.rel + 1 }
      let (s, l) := s.releaseRing stepk r
      (s, e.tid :: l)

/-- Log a window (21 R496): its size, then its TIDs. -/
def State.logWindow (s : State) (c : Ctx) (tids : List W64) : State :=
  tids.foldl (fun s t => s.scribeEvent c 6 devUnit t.toNat) (s.scribeEvent c 5 devUnit tids.length)

/-- The TIDs that a replaying log names for this window, or none of them where an entry cannot be read. -/
def State.loggedTids (s : State) (c : Ctx) : Option (Option (List W64)) :=
  match s.nextLogged c 5 devUnit, s.source c with
  | some (j, d), some (_, hi) =>
    let js := (List.range (hi - j)).map (j + ·)
    let l := (js.filter (fun i => s.entryBad c i || (s.entry c i).1 == 6)).take (d % 2 ^ 32)
    some (if 2 ^ 64 ≤ d || l.any (s.entryBad c) then none else some (l.map (fun i => BitVec.ofNat 64 (s.entry c i).2.2.2)))
  | _, _ => none

/-- An entry of the ring from RC on, of the next `n`, lies on a page in transit. -/
def State.ringInTransit (s : State) (n : Nat) : Bool :=
  let m := s.pkg.mo
  (List.range n).any (fun j => s.unitStalls unitRight s.moAuth (bitsOf m.ifb 0 56 + 32 * ((m.rc.toNat + j) % 2 ^ m.ifs)) 32)

/-- The release at a commit (R405). A replay takes exactly the logged episodes, and waits until each is windowed and its entries can be read;
one that no record holds is a divergence. Pages of the ring in transit hold the release back. -/
def State.release (s : State) (a : Await) : State :=
  let m := s.pkg.mo
  let c := m.ctx
  let held := s.setMo { m with await := some a }
  let go := s.setMo { m with await := none }
  match s.loggedTids c with
  | some none => held
  | some (some tids) =>
    if tids.any (fun t => (m.find t).isNone) then go.diverge c 5 0xFF
    else
      let es := tids.filterMap m.find
      if es.all (fun e => e.2.st == .windowed) && !s.ringInTransit es.length then
        let (s, l) := go.releaseRing a.stepk es
        s.logWindow c l
      else held
  | none =>
    let lver := bitsOf a.lag 0 32
    let maxlag := (BitVec.ofNat 32 (bitsOf a.lag 32 32)).toInt
    let w := m.window a.now
    let stale (e : Nat × Episode) : Bool := decide (maxlag < (BitVec.ofNat 32 (lver + 2 ^ 32 - e.2.polv.toNat)).toInt)
    let u := (m.rc - a.icur).toNat
    let out := (w.filter (fun e => !stale e)).take (2 ^ m.ifs - u)
    if s.ringInTransit out.length then held
    else
      let s := (w.filter stale).foldl (fun (s : State) e =>
        s.setMo { (s.pkg.mo.put e.1 none) with stale := s.pkg.mo.stale + 1 }) go
      let (s, l) := s.releaseRing a.stepk out
      s.logWindow c l

/-- A value of ICUR is accepted (R407). -/
def Mortise.icurOk (m : Mortise) (v : W32) : Bool := decide ((m.rc - v).toNat ≤ 2 ^ m.ifs)

/-- A commit of the Mortise's context: dry values come into force, then the window is released (R405, R407). An abort drops
them. -/
def State.moDecided (s : State) (c : Ctx) (commit : Bool) (stepk : W64) : State :=
  let m := s.pkg.mo
  if m.ctx ≠ c then s
  else if !commit then s.setMo { m with dryLag := none, dryIcur := none }
  else
    let icur := match m.dryIcur with
      | some v => if m.icurOk v then v else m.icur
      | none => m.icur
    let s := s.setMo { m with lag := m.dryLag.getD m.lag, icur := icur, dryLag := none, dryIcur := none }
    s.release ⟨stepk, s.cyc, s.pkg.mo.lag, s.pkg.mo.icur⟩

/-- A release that a replay or a page in transit holds back is tried again. -/
def State.moRetry (s : State) : State :=
  match s.pkg.mo.await with
  | some a => s.release a
  | none => s

/-- What the Mortise waits for on other peers: the bytes that a held reward reads are asked for, and a write that its home has refused counts
in REFUSE (DEDUCED, log entry 89). -/
def State.moFar (s : State) : State :=
  let s := match s.fab.held.find? (fun e => e.pk.op == 8) with
    | some e => s.rewardAsks (rewardOf e.pk)
    | none => s
  if s.fab.got.any (fun g => g.who == whoMoW) then
    ((s.fab.got.filter (fun g => g.who == whoMoW && g.fault.isSome)).foldl (fun s _ => s.refuseMo) s).dropGot whoMoW
  else s

/-- ASSIGN_UNIT (R393, 18 R423): the Mortise with its MOCFG fields, or the Dovetail, goes to a context. A change of CTX
empties the orphan queue and resets the counters (R399, R408). -/
def execAssignUnit (w : Nat) (dove : Bool) (ctx : Ctx) (cfg : W64) (s : State) : Host.Outcome State Fault Refusal :=
  owner w (.unit dove ctx cfg) s (.ok (
    if dove then s.setDove { s.pkg.dv with ctx := ctx }
    else
      let m := s.pkg.mo
      let v : Nat := bitsOf cfg 16 5 * 2 ^ 16 + bitsOf cfg 8 1 * 2 ^ 8 + ctx.toNat * 2 ^ 4 + bitsOf cfg 0 1
      let m' := { m with cfg := BitVec.ofNat 64 v }
      s.setMo (if m.ctx = ctx then m'
        else { m' with orph := [], dup := 0, rel := 0, orpl := 0, orphN := 0, tzr := 0, tout := 0, refuse := 0, stale := 0 })))

end Sys2Proof.Machine
end

