-- ==== Sys2Proof/Machine/Dovetail.lean ====
section
/-! DEFINITION. The Dovetail table (17 R409 to R420): loading, running, entries, free slots, end, abort and faults. -/
namespace Sys2Proof.Machine

def Dove.entry (d : Dove) (i : Nat) : BitVec 128 := d.ents.getD i 0
def linkValid (l : W64) : Bool := bitsOf l 63 1 == 1
def linkFree (l : W64) : Nat := bitsOf l 0 16
def withFree (l : W64) (n : Nat) : W64 := (l &&& ~~~(0xFFFF : W64)) ||| BitVec.ofNat 64 (min n 65535)
def Dove.setLink (d : Dove) (n : Nat) (l : W64) : Dove := { d with links := Map.set 0 d.links n l }

/-- An entry may not stand in a table (R411): an invalid KIND, a reserved field that is not zero, a slot out of service, or a
link named valid that is not. -/
def Dove.badEntry (d : Dove) (e : BitVec 128) : Bool :=
  let n := e.toNat
  (dvKind e != 1 && dvKind e != 2) || nb n 5 5 != 0 || nb n 40 48 != 0 || decide (d.nst.toNat ≤ dvSlot e) ||
  (match dvUp e with
    | some l => !linkValid (d.link l)
    | none => false) ||
  (match dvDn e with
    | some l => !linkValid (d.link l)
    | none => false)

/-- `dvtab` (R411). A restored position that the table does not reach stays for a later one. A table that is poisoned is refused whole, as
Poison Consumed (11 R324; log entry 32). -/
def State.dvtab (s : State) (o : Op) : Took :=
  let c := o.cap 0
  let n := (o.val 1).toNat
  match s.unitRead (rightOf c) o.auth c.cur (16 * n) (whoOp o) with
  | .error (.trap t) => .taken ((s.dropGot (whoOp o)).reportOp o.li o.pid t)
  | .error e => .stays (s.unitWaits o.auth e)
  | .ok (bs, bad) =>
    let s := s.dropGot (whoOp o)
    let d := s.pkg.dv
    let es := (List.range n).map (fun i => BitVec.ofNat 128 (natLE ((bs.drop (16 * i)).take 16)))
    let fault (i : Nat) (f : Cause) (code : BitVec 16) : Took := .taken (s.reportOp o.li o.pid ⟨f, code, BitVec.ofNat 64 (c.cur + 16 * i)⟩)
    match (List.range n).find? (fun i => bad.getD (16 * i) false), (List.range n).find? (fun i => d.badEntry (es.getD i 0)) with
    | some i, _ => fault i .poisonConsumed 0
    | none, some i => fault i .engineOperandFault 5
    | none, none =>
      let pos := d.restore.filter (fun p => decide (p < n))
      .taken (s.setDove { d with n := n, ents := es, slots := [], st := 1, pos := pos.getD 0,
                                 restore := if pos.isSome then none else d.restore, cur := none, live := [], fired := none })

/-- `dvrun` (R412): the table joins an open attempt of its context. Only `dvtab` leaves STATE 4 (R419): one that the stop of the table has
overtaken is reported as the word itself would have been refused (DEDUCED, log entry 32). -/
def State.dvrun (s : State) (o : Op) : State :=
  let d := s.pkg.dv
  let b := (s.ctx d.ctx).step.open_
  if d.st = 0 || d.st = 4 then s.reportOp o.li o.pid ⟨.engineOperandFault, 5, 0⟩
  else s.setDove { d with st := 2, pos := if d.st = 3 then 0 else d.pos, ina := b, was := d.was || b }

/-- `dvfree m` (R415): the UP link of the entry at POS, valid by the entry and by its DVLINK. -/
def State.dvfree (s : State) (o : Op) : State :=
  let d := s.pkg.dv
  match if d.pos < d.n then (dvUp (d.entry d.pos)).filter (fun l => linkValid (d.link l)) else none with
  | some l => s.sendFree l (nb o.word.toNat 0 8)
  | none => s.reportOp o.li o.pid ⟨.engineOperandFault, 5, 0⟩

/-- A DV operation is taken. -/
def State.takeDv (s : State) (o : Op) : Took :=
  match nb o.word.toNat 8 4 with
  | 0 => s.dvtab o
  | 1 => .taken (s.dvrun o)
  | _ => .taken (s.dvfree o)

/-- The table stops (R419). -/
def State.doveStop (s : State) (code : BitVec 8) : State :=
  let d := s.pkg.dv
  let s := if d.ina then s.veto d.ctx vFault else s
  s.setDove { s.pkg.dv with st := 4, code := code, fired := none }

/-- The cursor passes an entry whose launch counts as early (R413, 03 R91). -/
def State.doveSettle (s : State) : State :=
  let d := s.pkg.dv
  match d.cur with
  | none => s
  | some li =>
    match s.launch li with
    | none => s
    | some l => if l.early = l.lr.count then s.setDove { d with cur := none, pos := d.pos + 1 } else s

/-- What holds the entry at POS back. -/
inductive Block' where
  | none | input | free | stash | overflow
  deriving DecidableEq, Repr

/-- The first unmet condition of an entry (R413, R414, R416). -/
def State.doveBlock (s : State) (e : BitVec 128) : Block' :=
  let d := s.pkg.dv
  let f := dvKind e == 1
  let st := (d.slot (dvSlot e)).toNat
  if (f && (st == 1 || st == 2)) || (!f && (st == 0 || st == 3)) then .overflow
  else if !reached (s.gauge (dgauge (BitVec.ofNat 8 (dvIg e)))) (dvTh e) then .input
  else if f && (match dvDn e with
      | some l => linkFree (d.link l) == 0
      | none => false) then .free
  else if (f && st != 0) || (!f && st != 2) then .stash
  else .none

/-- The record of an entry, as LAUNCH reads it; none where R333 refuses it. The table launches into its own context. -/
def State.doveRecord (s : State) (e : BitVec 128) : Chk LaunchRec := do
  let d := s.pkg.dv
  let lr ← s.readRecord d.ctx (d.lrb + BitVec.ofNat 64 (128 * dvLidx e)) 0 0 whoDove
  if lr.ctx = d.ctx then .ok lr else raise .accessFault

/-- Start the entry at POS (R413). -/
def State.doveStart (s : State) (e : BitVec 128) : State :=
  match s.doveRecord e with
  | .error .wait => s
  | .error (.ask who pa) => s.askFar who pa s.pkg.dv.ctx 1024 s.k
  | .error _ => (s.dropGot whoDove).doveStop 0x13
  | .ok lr =>
    match s.freeLaunch with
    | none => s
    | some li =>
      let s := s.dropGot whoDove
      let d := { s.pkg.dv with fired := none }
      let d := d.setSlot (dvSlot e) (if dvKind e = 1 then 1 else 3)
      let d := match dvDn e with
        | some l => if dvKind e = 1 then d.setLink l (withFree (d.link l) (linkFree (d.link l) - 1)) else d
        | none => d
      let s := s.setDove { d with cur := some li, live := d.live ++ [(li, e)] }
      let s := s.acceptLaunch li lr 0 (dvLidx e) d.ina
      if lr.rejects then s.doveStop 0x13 else s

/-- A launch that a Stash Overflow concerned completes as faulted with no piece, carrying its error token (R419), once its record has been
read and an index is free. A record that cannot be read names no token. -/
def State.doveOwed (s : State) : State :=
  match s.pkg.dv.owed with
  | [] => s
  | e :: r =>
    let gone (s : State) : State := (s.dropGot whoDove).setDove { s.pkg.dv with owed := r }
    match s.doveRecord e, s.freeLaunch with
    | .error (.trap _), _ => gone s
    | .error (.ask who pa), _ => s.askFar who pa s.pkg.dv.ctx 1024 s.k
    | .ok lr, some li =>
      (((gone s).setLaunch li (some (newLaunch s.nextId lr 0 (dvLidx e) false))).fresh.nameTrap li ⟨.stashOverflow, 0, 0⟩).finishLaunch li .faulted
    | _, _ => s

/-- Stash Overflow (R419). -/
def State.doveOverflow (s : State) (e : Option (BitVec 128)) : State :=
  let s := s.doveStop 0x1E
  (s.setDove { s.pkg.dv with owed := s.pkg.dv.owed ++ e.toList }).doveOwed

/-- The entry at POS, where the table runs and no launch before it is still to become early. -/
def State.doveAt (s : State) : Option (BitVec 128) :=
  let d := s.pkg.dv
  if d.st ≠ 2 || d.cur.isSome || d.n ≤ d.pos then none else some (d.entry d.pos)

/-- The entry at POS starts if all its conditions held at the end of some cycle, or overflows. -/
def State.doveEntry (s : State) : State :=
  match s.doveAt with
  | none => s
  | some e =>
    if s.doveBlock e = .overflow then s.doveOverflow (some e)
    else if s.pkg.dv.fired.isSome then s.doveStart e else s

/-- DOVETAIL_ENTRY_START (R413). -/
def execDovetailEntryStart (s : State) : Host.Outcome State Fault Refusal := .next s.doveOwed.doveSettle.doveEntry

/-- DOVETAIL_TABLE_END (R417). -/
def execDovetailTableEnd (s : State) : Host.Outcome State Fault Refusal :=
  .next (
    let s := s.doveSettle
    let d := s.pkg.dv
    if d.st ≠ 2 || d.cur.isSome || d.pos < d.n || !d.live.isEmpty then s
    else if d.slots.isEmpty then s.setDove { d with st := 3, ina := false }
    else s.doveOverflow none)

/-- The end of a cycle (R413, R416, 11 R313): the cursor passes a launch that is early; the conditions of the entry at POS are evaluated, and
once all of them hold its start is decided; a cycle in which it waits is counted under its first unmet condition. -/
def State.doveCycle (s : State) : State :=
  let s := s.doveSettle
  let d := s.pkg.dv
  match s.doveAt with
  | none => s
  | some e =>
    let add (n : Nat) : State := s.setDove { d with bub := Map.set 0 d.bub n (Map.get 0 d.bub n + 1) }
    if d.fired.isSome then s
    else match s.doveBlock e with
      | .input => add (if dvKind e = 1 then 0 else 2)
      | .free => add 1
      | .stash => add 3
      | .none => s.setDove { d with fired := some s.cyc }
      | .overflow => s

/-- A start decided 64 cycles ago is made (R413). -/
def State.doveDue (s : State) : State :=
  match s.pkg.dv.fired with
  | some d => if d + 64 ≤ s.cyc then s.doveEntry else s
  | none => s

/-- Free slots from a peer (R415): to the lowest valid link whose PEER is the sender, saturating; from a peer on no link they
are discarded. -/
def State.freeSlots (s : State) (src : BitVec 12) (m : Nat) : State :=
  let d := s.pkg.dv
  match (List.range 4).find? (fun i => linkValid (d.link i) && linkPeer (d.link i) == src) with
  | none => s
  | some i => s.setDove (d.setLink i (withFree (d.link i) (linkFree (d.link i) + m)))

/-- A decision for the table's context (R418): an abort restores also what a table has changed that ended within the attempt (16 R387). -/
def State.doveDecided (s : State) (c : Ctx) (commit : Bool) : State :=
  let d := s.pkg.dv
  if d.ctx ≠ c then s
  else if commit || !d.was then s.setDove { d with old := none, was := false }
  else match d.old with
    | none => s.setDove { d with st := 1, ina := false, was := false, cur := none, live := [], fired := none }
    | some (pos, slots, frees) =>
      let d := (List.range 4).foldl (fun d i =>
        d.setLink i (withFree (d.link i) ((frees.getD i 0).toNat))) { d with pos := pos, slots := slots, old := none }
      s.setDove { d with st := 1, ina := false, was := false, cur := none, live := [], fired := none }

end Sys2Proof.Machine
end

