-- ==== Sys2Proof/Machine/HostLink.lean ====
section
/-! DEFINITION. The host link (18 R421 to R427): ownership, owner requests, boot, attestation; debug (09 R290 to R294); power
and temperature (R434). -/
namespace Sys2Proof.Machine

/-! ## Ownership (R422) -/

/-- Owner and offer after one OWNCMD write: its master, its operation, its target. -/
def ownAfter (o : BitVec 8 × BitVec 8) (c : Nat × Nat × BitVec 8) : BitVec 8 × BitVec 8 :=
  let me := BitVec.ofNat 8 c.1
  match c.2.1 with
  | 1 => if o.1 = 0xFF then (me, o.2) else o
  | 2 => if o.1 = me then (o.1, c.2.2) else o
  | 3 => if o.2 = me then (me, 0xFF) else o
  | 4 => if o.1 = me then (0xFF, 0xFF) else o
  | _ => o

/-- Put a write after those of this cycle that lower masters, and the same one, have made. -/
def ownInsert (c : Nat × Nat × BitVec 8) : List (Nat × Nat × BitVec 8) → List (Nat × Nat × BitVec 8)
  | [] => [c]
  | x :: r => if x.1 ≤ c.1 then x :: ownInsert c r else c :: x :: r

/-- An OWNCMD write: those of one cycle are applied in ascending master to what stood as it began. A write of no master, or with a target
above 16 other than 0xFF, has no effect. -/
def State.ownCmd (s : State) (w op : Nat) (tgt : BitVec 8) : State :=
  if 16 < w || (16 < tgt.toNat && tgt != 0xFF) then s
  else
    let p := s.pkg
    let was := if p.own.isEmpty then (p.owner, p.pend) else p.ownWas
    let l := ownInsert (w, op, tgt) p.own
    let o := l.foldl ownAfter was
    s.setPkg { p with own := l, ownWas := was, owner := o.1, pend := o.2 }

/-- CLAIM: accepted when there is no owner. -/
def execClaim (w : Nat) (s : State) : Host.Outcome State Fault Refusal := .next (s.ownCmd w 1 0xFF)

/-- GIVE: the owner offers ownership, or withdraws the offer. -/
def execGive (w : Nat) (tgt : BitVec 8) (s : State) : Host.Outcome State Fault Refusal := .next (s.ownCmd w 2 tgt)

/-- ACCEPT: the master that was offered ownership takes it. -/
def execAccept (w : Nat) (s : State) : Host.Outcome State Fault Refusal := .next (s.ownCmd w 3 0xFF)

/-- RELEASE: the owner gives ownership up. -/
def execRelease (w : Nat) (s : State) : Host.Outcome State Fault Refusal := .next (s.ownCmd w 4 0xFF)

/-- OWNER_LINK_DOWN: a reset or a link-down of the owning function acts as RELEASE, once the request it has sent has finished (R422). -/
def execOwnerLinkDown (w : Nat) (s : State) : Host.Outcome State Fault Refusal :=
  .next (if s.pkg.req.isSome && s.pkg.owner.toNat = w then s.setPkg { s.pkg with ownDown := some w } else s.ownCmd w 4 0xFF)

/-- A cycle ends: its OWNCMD writes have been applied, and an owner whose link is down leaves once no request runs. -/
def State.ownEnds (s : State) : State :=
  let s := s.setPkg { s.pkg with own := [] }
  match s.pkg.ownDown with
  | some w => if s.pkg.req.isSome then s else (s.setPkg { s.pkg with ownDown := none }).ownCmd w 4 0xFF
  | none => s

/-! ## Streams and contexts -/

/-- A stream descriptor as the window shows it (13 R329). -/
def Stream.bytes (x : Stream) : Bytes :=
  bytesLE 8 x.base.toNat ++ bytesLE 4 x.size.toNat ++ bytesLE 4 x.head.toNat ++ bytesLE 4 x.tail.toNat ++ bytesLE 1 x.ctx.toNat ++
  bytesLE 1 x.state.toNat ++ bytesLE 1 x.fcode.toNat ++ [0] ++ bytesLE 2 x.cmsk.toNat ++ List.replicate 6 0

/-- Descriptor `n` takes the fields that the host writes; HEAD stays the command processor's. -/
def State.putStream (s : State) (n : BitVec 6) (d : BitVec 256) : State :=
  let f (lo len : Nat) : Nat := nb d.toNat (8 * lo) (8 * len)
  let x := s.streamOf n
  s.setStream n { x with
    base := BitVec.ofNat 64 (f 0 8), size := BitVec.ofNat 32 (f 8 4), tail := BitVec.ofNat 32 (f 16 4),
    ctx := BitVec.ofNat 4 (f 20 1), state := BitVec.ofNat 8 (f 21 1), fcode := BitVec.ofNat 8 (f 22 1),
    cmsk := BitVec.ofNat 16 (f 24 2) }

/-- STREAM_DESCRIPTOR_WRITE (R421, 13 R329): the owner writes descriptor `n`. -/
def execStreamDescriptorWrite (w : Nat) (n : BitVec 6) (d : BitVec 256) (s : State) : Host.Outcome State Fault Refusal :=
  .next (if s.pkg.owner.toNat ≠ w then s else s.putStream n d)

/-- SET_CORE_SET (13 R338): core set, stack region and size of a context. -/
def execSetCoreSet (w : Nat) (ctx : Ctx) (cores : BitVec 384) (stk : Cap) (sz : W64) (s : State) :
    Host.Outcome State Fault Refusal :=
  owner w (.cores ctx cores stk.bits sz) s (.ok (s.setCtx ctx { s.ctx ctx with coreSet := cores, stk := stk, sz := sz }))

/-! ## Debug (09 R290 to R294) -/

/-- Halt the piece of the core in focus; the words at which it stands have not issued (R275). -/
def State.haltCore (s : State) (h : Halt) : State :=
  if s.core.pc.run && s.core.halt == .none then s.setCore { s.core with halt := h, debugger := true, pc := s.core.pc.restart s.cyc } else s

/-- Cores that run a piece of a launch. -/
def State.coresRunning (s : State) (li : Nat) : List Nat :=
  (s.allCores.filter (fun e => e.2.pc.run && e.2.pc.li == li)).map Prod.fst

/-- Halt a core or a launch. None: nothing to halt. -/
def State.debugHalt (s : State) (t : DebugTarget) (h : Halt) : Option State :=
  match t with
  | .core k => if (s.coreOf k).pc.run then some (s.at k (fun s => s.haltCore h)) else none
  | .launch li => (s.launch li).map (fun l =>
      (s.coresRunning li).foldl (fun s k => s.at k (fun s => s.haltCore h))
        (s.setLaunch li (some { l with halted := true, debugger := true })))

/-- DEBUG_HALT_DRAIN (R290). -/
def execDebugHaltDrain (w : Nat) (tgt : DebugTarget) (s : State) : Host.Outcome State Fault Refusal :=
  owner w (.halt false tgt) s (orRefuse (s.debugHalt tgt .drain))

/-- DEBUG_HALT_FREEZE (R291). -/
def execDebugHaltFreeze (w : Nat) (tgt : DebugTarget) (s : State) : Host.Outcome State Fault Refusal :=
  owner w (.halt true tgt) s (orRefuse (s.debugHalt tgt .freeze))

/-- Resume the piece of the core in focus (R277, R293); a frozen piece cannot resume and ends as faulted (R291). -/
def State.resumeCore (s : State) : State :=
  match s.core.halt with
  | .drain =>
    let go (x : Strm) : Strm := { x with start := max x.start (s.cyc + 4) }
    let c := s.core
    s.setCore { c with halt := .none, cs := go c.cs, ca := go c.ca, cv := go c.cv, cm := go c.cm }
  | .freeze => ({ s with core := { s.core with halt := .none } } : State).faultPiece none
  | _ => s

/-- DEBUG_RESUME (R293). -/
def execDebugResume (w : Nat) (tgt : DebugTarget) (s : State) : Host.Outcome State Fault Refusal :=
  owner w (.resume tgt) s (orRefuse (match tgt with
    | .core k => some (s.at k (fun s => s.resumeCore))
    | .launch li => (s.launch li).map (fun l =>
        (s.coresRunning li).foldl (fun s k => s.at k (fun s => s.resumeCore)) (s.setLaunch li (some { l with halted := false })))))

/-- A debugger's write to the core in focus, which is drain-halted. A write to an a register clears its tag; g0, a0, m0 and i0
cannot be written. The debugger may end the piece, as faulted. -/
def State.debugPut (s : State) (d : DebugWrite) : State :=
  match d with
  | .greg _ r v => s.putGP r v false 0
  | .areg _ r v => s.putAP r ⟨false, v⟩ false 0
  | .row _ r v => s.setCore { s.core with tiles := Map.set ⟨0, 0, 0⟩ s.core.tiles r.toNat ⟨v, 0, 0⟩ }
  | .mask _ r v => s.putM r v 0
  | .ireg _ r v => if r = 0 then s else s.setCore { s.core with i := s.core.i.set r.toNat ⟨v, 0⟩ r.isLt }
  | .slot _ n off v => s.setCore (s.core.putSlot n.toNat off.toNat [v])
  | .pc _ c v => s.setPc c v
  | .stop _ => (s.setCore { s.core with halt := .none }).faultPiece none

/-- The core that a debugger's write names. -/
def dwCore : DebugWrite → Nat
  | .greg k _ _ => k
  | .areg k _ _ => k
  | .row k _ _ => k
  | .mask k _ _ => k
  | .ireg k _ _ => k
  | .slot k _ _ _ => k
  | .pc k _ _ => k
  | .stop k => k

/-- A frozen piece can only be ended; one that is drain-halted can be changed (R291, R293). -/
def dwAllowed (d : DebugWrite) (h : Halt) : Bool :=
  match d with
  | .stop _ => h == .drain || h == .freeze
  | _ => h == .drain

/-- DEBUG_WRITE (R293): only under drain-halt; the end of a piece also under freeze-halt. It is no request of the mailbox (18 R423). -/
def execDebugWrite (w : Nat) (dw : DebugWrite) (s : State) : Host.Outcome State Fault Refusal :=
  .next (if s.pkg.owner.toNat = w && dwAllowed dw (s.coreOf (dwCore dw)).halt then s.at (dwCore dw) (fun s => s.debugPut dw) else s)

/-! ## Boot (R424, R427) -/

/-- BOOTST. -/
def bootWord (ph img why : Nat) : W64 := BitVec.ofNat 64 (ph + img * 2 ^ 8 + why * 2 ^ 16)

/-- Cause why an image stops the boot: 3 absent, 4 its key is not named by the firmware, 1 its signature; 0 none. -/
def imageWhy (i : Image) (named : Bool) : Nat :=
  if !i.present then 3 else if named && !i.keyFound then 4 else if !i.sigValid then 1 else 0

/-- A boot that stops. -/
def Pkg.stopped (p : Pkg) (img why : Nat) : Pkg := { p with bootst := bootWord 5 img why, booting := none }

/-- The boot ends with what the repair map says, and what its updates have kept for this boot: they name the physical core of a logical
index, and spare channels that leave service (DESIGN CHOICE, log entry 87). A spare bank that has taken the number of a retired one is not
given again (R425). -/
def State.bootEnd (s : State) (b : BootImages) : State :=
  let p := s.pkg
  let phys := (b.cores.zip (List.range 384)).foldl (fun m e => Map.set 0 m e.2 e.1) []
  let p := { p with vrm := b.rm.ver, meas := Map.set 0 p.meas 2 b.rm.digest, pfree := b.pool, inst := b.frames,
                    bootst := bootWord 4 0 0, booting := none, noSpare := ~~~b.spareCores,
                    phys := p.kept.cores.foldl (fun m e => Map.set 0 m e.1 e.2) phys, kept := ⟨0, []⟩ }
  let out := s.pkg.kept.outCh
  let s := (List.range 12).foldl (fun (s : State) n =>
    let x := s.stackAt n
    s.setStack n { x with sch := (x.sch || b.spareCh.toNat.testBit n) && !out.toNat.testBit n }) (s.setPkg p)
  let left (k : Nat) (n : BitVec 2) : BitVec 2 := if (s.spares k).toNat < n.toNat then s.spares k else n
  s.setShr { s.shr with spare := (b.spareBanks.zip (List.range 48)).foldl (fun m e => Map.set 2 m e.2 (left e.2 e.1)) s.shr.spare }

/-- The next phase of a boot (R424, R427): firmware, configuration, repair map, each loaded in its phase and then checked. A phase
lasts one cycle (DESIGN CHOICE, log entry 88). -/
def State.bootNext (s : State) : State :=
  match s.pkg.booting with
  | none => s
  | some b =>
    let p := s.pkg
    match bitsOf p.bootst 0 4 with
    | 0 => s.setPkg { p with bootst := bootWord 1 0 0 }
    | 1 =>
      if imageWhy b.fw false ≠ 0 then s.setPkg (p.stopped 1 (imageWhy b.fw false))
      else s.setPkg { p with vfw := b.fw.ver, meas := Map.set 0 p.meas 0 b.fw.digest, bootst := bootWord 2 0 0 }
    | 2 =>
      if imageWhy b.cfg true ≠ 0 then s.setPkg (p.stopped 2 (imageWhy b.cfg true))
      else if b.cfg.ver.toNat < b.vmin.toNat then s.setPkg (p.stopped 2 2)
      else
        let p := { p with vcfg := b.cfg.ver, vmin := b.vmin, meas := Map.set 0 p.meas 1 b.cfg.digest, bootst := bootWord 3 0 0 }
        let s := ({ s with peer := b.peer } : State).setFab { s.fab with groups := b.groups, members := b.members }
        s.setPkg (if b.fw.ver.toNat < b.vmin.toNat then p.stopped 1 2 else p)
    | 3 =>
      if imageWhy b.rm true ≠ 0 then s.setPkg (p.stopped 3 (imageWhy b.rm true))
      else if b.rm.ver.toNat < b.vmin.toNat then s.setPkg (p.stopped 3 2)
      else s.bootEnd b
    | _ => s

/-- What has left service for good, or waits for the next boot, as a reset finds it (R425): frames, spare channels that stand in for retired
ones, retired banks with the spares used up, and what repair map updates have kept. -/
def State.afterReset (s : State) : State :=
  let r := State.reset
  let bank (b : Bank) : Bank := if b.mode = 3 then { (r.bank 0 0) with mode := 3 } else r.bank 0 0
  let r : State := { r with nonce := s.nonce, agenda := s.agenda }
  let r := r.setPkg { r.pkg with retired := s.pkg.retired, kept := s.pkg.kept,
                                 hbms := Map.mapVals stackEmpty (fun x => { stackEmpty with sch := x.sch }) s.pkg.hbms }
  r.setShr { r.shr with banks := Map.mapVals bankReset bank s.shr.banks, spare := s.shr.spare }

/-- DEVICE_RESET (R424): the device right after reset, in the boot ROM; the images are what it will load from the host. -/
def execDeviceReset (b : BootImages) (s : State) : Host.Outcome State Fault Refusal :=
  .next (s.afterReset.setPkg { s.afterReset.pkg with booting := some b })

/-- A spare bank takes the number of a cache bank in service, whose dirty sectors are written back first (R425, 11 R321). -/
def State.bankSpare (s : State) (e : Nat × Nat) : State :=
  if s.cacheBank e.1 e.2 && s.spares e.1 ≠ 0 && e.1 < 48 then s.quarantine e.1 e.2 else s

/-- What a repair map update applies at once (R425, 16 R374, R388): data are moved before the spare stands in, so that no access sees a
difference. What entries an update has is DESIGN CHOICE (log entry 87). -/
def State.repairNow (s : State) (img : RepairImage) : State :=
  let s := img.frames.foldl (fun s f => if Map.get false s.pkg.retired f then s else (s.markTransit (s.primaryOf f)).retireFrame f) s
  let s := img.banks.foldl State.bankSpare s
  (List.range 12).foldl (fun (s : State) n =>
    if img.spareCh.toNat.testBit n then s.setStack n { s.stackAt n with sch := true } else s) s

/-- REPAIR_MAP_UPDATE (R425, R426): checked like a repair map; spares come into service, the rest waits for the next boot, m3 is extended. -/
def execRepairMapUpdate (w : Nat) (img : RepairImage) (s : State) : Host.Outcome State Fault Refusal :=
  owner w .repair s (
    let p := s.pkg
    if imageWhy img.img true ≠ 0 || img.img.ver.toNat < p.vmin.toNat then raise .accessFault
    else
      let m3 := sha256 (bytesLE 32 (Map.get 0 p.meas 3).toNat ++ bytesLE 32 img.img.digest.toNat)
      let kept : RepairKept := ⟨p.kept.outCh ||| img.outCh, p.kept.cores ++ img.cores⟩
      .ok ((s.setPkg { p with vrm := img.img.ver, meas := Map.set 0 p.meas 3 m3, kept := kept }).repairNow img))

/-- What a quote signs: the four measurement registers, the nonce, the image versions, the peer number (R426). The order of
the fields is the model's (log entry 20). -/
def State.quoteBytes (s : State) (nonce : BitVec 256) : Bytes :=
  (List.range 4).flatMap (fun i => bytesLE 32 (Map.get 0 s.pkg.meas i).toNat) ++ bytesLE 32 nonce.toNat ++
  bytesLE 4 s.pkg.vfw.toNat ++ bytesLE 4 s.pkg.vcfg.toNat ++ bytesLE 4 s.pkg.vrm.toNat ++ bytesLE 2 s.peer.toNat

/-- QUOTE (R426). -/
def execQuote (w : Nat) (nonce : BitVec 256) (s : State) : Host.Outcome State Fault Refusal :=
  owner w (.quote nonce) s (
    let bs := s.quoteBytes nonce
    .ok (s.setPkg { s.pkg with quote := some (bs, Config.sign bs) }))

/-! ## Power (R434) -/

/-- SET_POWER_CAP (R423, R434): 1,500 to 5,000 W. -/
def execSetPowerCap (w : Nat) (cap : BitVec 16) (s : State) : Host.Outcome State Fault Refusal :=
  owner w (.power cap) s (if 1500 ≤ cap.toNat && cap.toNat ≤ 5000 then .ok (s.setPkg { s.pkg with pcap := cap }) else raise .accessFault)

/-- Temperatures of the clusters, in 1/4 °C, above a bound. -/
def hotter (temps : List (BitVec 16)) (t : Nat) : Bool := temps.any (fun x => decide (t < x.toNat))

/-- POWER_CAP_THROTTLE (R434): the averaged power and the clusters' temperatures are now `x`; the device sets the clock to `mhz`, in steps of
25 MHz: the power is at or below CAP, and a cluster above 105 °C lowers the clock further. At 115 °C the device stops instead. No cycle count
changes (06 R197). Only this event and THERMAL_SHUTDOWN change what PWR and TEMP read (DESIGN CHOICE, log entry 84). -/
def execPowerCapThrottle (mhz : BitVec 16) (x : Measured) (s : State) : Host.Outcome State Fault Refusal :=
  .next (
    let p := s.pkg
    if 1900 < mhz.toNat || (1900 - mhz.toNat) % 25 ≠ 0 || p.pcap.toNat < x.pwr.toNat || 48 < x.temps.length || hotter x.temps 459 ||
      (hotter x.temps 420 && decide (p.mhz.toNat ≤ mhz.toNat) && p.mhz != 0) then s
    else s.setPkg { p with mhz := mhz, pwr := x.pwr, temp := (x.temps.zip (List.range 48)).foldl (fun m e => Map.set 0 m e.2 e.1) p.temp })

/-- THERMAL_SHUTDOWN (R434): cluster `k` has reached 115 °C, and the device stops, with a lost
notice for itself (21 R501). -/
def execThermalShutdown (k : Nat) (s : State) : Host.Outcome State Fault Refusal :=
  .next (s.setPkg { s.pkg with temp := Map.set 0 s.pkg.temp (k % 48) 460, off := true }).lostSelf

/-! ## The host window (R421) -/

/-- A little-endian range of bytes of which a write covers a part: `at_` is the place of its first byte in the range. -/
def overlay (old : Bytes) (at_ : Nat) (new : Bytes) : Bytes := old.take at_ ++ new ++ old.drop (at_ + new.length)

/-- The mailbox (R423): code, status, operands. From byte 256 on the last quote's content and signature (the model's place, log entry 20). -/
def State.mailBytes (s : State) : Bytes :=
  let b := (s.pkg.mbox ++ List.replicate 4096 0).take 4096
  let b := b.take 4 ++ bytesLE 4 s.pkg.mail.toNat ++ b.drop 8
  match s.pkg.quote with
  | none => b
  | some (q, sig) => overlay b 256 (q ++ bytesLE 96 sig.toNat)

/-- The boot and measurement block (R427). -/
def State.bootBytes (s : State) : Bytes :=
  let p := s.pkg
  bytesLE 8 p.bootst.toNat ++ bytesLE 4 p.vfw.toNat ++ bytesLE 4 p.vcfg.toNat ++ bytesLE 4 p.vrm.toNat ++ bytesLE 4 p.vmin.toNat ++
  List.replicate 40 0 ++ (List.range 4).flatMap (fun i => bytesLE 32 (Map.get 0 p.meas i).toNat) ++ List.replicate 64 0

/-- OWN (R422). -/
def State.ownWord (s : State) : W64 := BitVec.ofNat 64 (s.pkg.owner.toNat + s.pkg.pend.toNat * 2 ^ 8)

/-- A byte of the host window; a reserved one, OWNCMD and ETHDB read as 0. -/
def State.windowByte (s : State) (off : Nat) : Byte :=
  if off < 8 then (bytesLE 8 s.ownWord.toNat).getD off 0
  else if 0x1000 ≤ off && off < 0x2000 then s.mailBytes.getD (off - 0x1000) 0
  else if 0x10000 ≤ off && off < 0x10800 then (s.streamOf (BitVec.ofNat 6 ((off - 0x10000) / 32))).bytes.getD (off % 32) 0
  else if 0x20000 ≤ off && off < 0x20100 then s.bootBytes.getD (off - 0x20000) 0
  else 0

/-- A read of the host window, answered for every master (R421). -/
def State.windowRead (s : State) (off n : Nat) : Bytes := (List.range n).map (fun i => s.windowByte (off + i))

/-- A write of the mailbox by the owner (R423): while a request is busy it is discarded; the write of the code makes a request. -/
def State.mailWrite (s : State) (w off : Nat) (bs : Bytes) : State :=
  if s.pkg.req.isSome then s
  else
    let b := overlay ((s.pkg.mbox ++ List.replicate 4096 0).take 4096) off bs
    let s := s.setPkg { s.pkg with mbox := b }
    if off = 0 then s.setPkg { s.pkg with mail := 1, req := some (w, natLE (b.take 4)) } else s

/-- The request that is busy is executed: as its event with the operands in the mailbox, for the master that sent it. A code without a request
is refused; a repair map update waits for its image (REPAIR_MAP_UPDATE). `ring` is request 12 (State.assignRing). -/
def State.mailRun (s : State) (ring : Nat → BitVec 7 → BitVec 256 → State → Host.Outcome State Fault Refusal) : State :=
  match s.pkg.req with
  | none => s
  | some (w, code) =>
    let as_ : State := s.setPkg { s.pkg with req := none, owner := BitVec.ofNat 8 w }
    let back (o : Host.Outcome State Fault Refusal) : State :=
      match o with
      | .next t => t.setPkg { t.pkg with owner := s.pkg.owner }
      | _ => s
    match reqOf code (s.pkg.mbox.drop 8) with
    | none => s.setPkg { s.pkg with mail := 3, req := none }
    | some .repair => s
    | some (.handle c i r) => back (execInstallTensorHandle w c i r as_)
    | some (.version c va on) => back (if on then execMarkVersioned w c va as_ else execUnmarkVersioned w c va as_)
    | some (.cores c m stk sz) => back (execSetCoreSet w c m ⟨true, stk⟩ sz as_)
    | some (.unit d c v) => back (execAssignUnit w d c v as_)
    | some (.restore c ra) => back (execRestoreStepPosition w c ra as_)
    | some (.halt f t) => back (if f then execDebugHaltFreeze w t as_ else execDebugHaltDrain w t as_)
    | some (.resume t) => back (execDebugResume w t as_)
    | some (.quote n) => back (execQuote w n as_)
    | some (.power v) => back (execSetPowerCap w v as_)
    | some (.ring n d) => back (ring w n d as_)

/-- A write of the host window (R421): only OWNCMD takes one from a master that is not the owner. The management controller, master 16,
writes 32 bits. A write to ETHDB acts with its last byte (DESIGN CHOICE, log entry 20). `bell` is what a doorbell does (R430). -/
def State.windowWrite (s : State) (w off : Nat) (bs : Bytes) (bell : State → W64 → State) : State :=
  if 16 < w || (w = 16 && (bs.length ≠ 4 || off % 4 ≠ 0)) then s
  else if off = 8 then s.ownCmd w (bs.headD 0).toNat (bs.getD 1 0)
  else if s.pkg.owner.toNat ≠ w then s
  else if 0x1000 ≤ off && off + bs.length ≤ 0x2000 then s.mailWrite w (off - 0x1000) bs
  else if 0x10000 ≤ off && off < 0x10800 then
    let n := BitVec.ofNat 6 ((off - 0x10000) / 32)
    s.putStream n (BitVec.ofNat 256 (natLE ((overlay (s.streamOf n).bytes (off % 32) bs).take 32)))
  else if 0x30000 ≤ off && off + bs.length ≤ 0x30008 then
    let v := BitVec.ofNat 64 (natLE (overlay (bytesLE 8 s.pkg.ethdb.toNat) (off - 0x30000) bs))
    let s := s.setPkg { s.pkg with ethdb := v }
    if off + bs.length = 0x30008 then bell s v else s
  else s

end Sys2Proof.Machine
end

