-- ==== Sys2Proof/Machine/Ethernet.lean ====
section
/-! DEFINITION. The scale-out Ethernet ports (18 R428 to R433): rings and their descriptors, doorbells, sending and receiving a
frame, flow control. -/
namespace Sys2Proof.Machine

def ringEmpty : EthRing := ⟨0, 0, 0, 0, 0, false, 0, false, 0, false, false, none⟩
def portEmpty : EthPort := ⟨0, 0, 0, 0, 0, 0, 0, 0, 0, 0⟩
def State.ring (s : State) (n : Nat) : EthRing := Map.get ringEmpty s.pkg.rings n
def State.setRing (s : State) (n : Nat) (r : EthRing) : State :=
  s.setPkg { s.pkg with rings := Map.set ringEmpty s.pkg.rings n r }
def State.port (s : State) (n : Nat) : EthPort := Map.get portEmpty s.pkg.ports n
def State.setPort (s : State) (n : Nat) (p : EthPort) : State :=
  s.setPkg { s.pkg with ports := Map.set portEmpty s.pkg.ports n p }

/-- Descriptors ready in a ring. -/
def EthRing.ready (r : EthRing) : Nat :=
  if r.full then r.size.toNat else (r.tail.toNat + r.size.toNat - r.head.toNat) % r.size.toNat

/-- HEAD advances past `n` descriptors. -/
def EthRing.pass (r : EthRing) (n : Nat) : EthRing :=
  { r with head := BitVec.ofNat 32 ((r.head.toNat + n) % r.size.toNat), full := r.full && n == 0 }

/-- Priorities that a port pauses (R432): an enabled receive ring with fewer than 16 ready descriptors asks for it, and the pause lasts while
an enabled ring of the priority has fewer than 32. -/
def State.pausePort (s : State) (p : Nat) : State :=
  let rs := (List.range 4).map (fun k => s.ring (8 * p + 4 + k))
  let below (n : Nat) : BitVec 8 := (rs.filter (fun r => r.en && decide (r.ready < n))).foldl (fun b r => b ||| r.pri) 0
  let x := s.port p
  s.setPort p { x with pausing := below 16 ||| (x.pausing &&& below 32) }

/-! ## Rings (R429, R430) -/

def powerOfTwo (n : Nat) (lo hi : Nat) : Bool := n == 2 ^ Nat.log2 n && decide (2 ^ lo ≤ n) && decide (n ≤ 2 ^ hi)

def State.txBusy (s : State) (n : Nat) : List TxBusy := Map.get [] s.pkg.ethTx n
def State.setTx (s : State) (n : Nat) (l : List TxBusy) : State := s.setPkg { s.pkg with ethTx := Map.set [] s.pkg.ethTx n l }

/-- A ring that was told to stops once no frame of it is in progress. -/
def State.ringRests (s : State) (n : Nat) : State :=
  let r := s.ring n
  if r.stop && (s.txBusy n).isEmpty && r.rx.isNone then (s.setRing n { r with en := false, stop := false }).pausePort (n / 8) else s

/-- Assign a ring to a context or disable it (R429); none: refused. -/
def State.assignRing (s : State) (n : Nat) (d : BitVec 256) : Option State :=
  let f (lo len : Nat) : Nat := nb d.toNat (8 * lo) (8 * len)
  let p := n / 8
  let old := s.ring n
  let ctx : Ctx := BitVec.ofNat 4 (f 20 1)
  let en := nb (f 21 1) 0 1 == 1
  let pri : BitVec 8 := BitVec.ofNat 8 (f 24 1)
  let clash := (List.range 4).any (fun k =>
    8 * p + 4 + k != n && (s.ring (8 * p + 4 + k)).en && (s.ring (8 * p + 4 + k)).pri &&& pri != 0)
  if old.en && old.ctx ≠ ctx then none
  else if f 0 8 % 32 ≠ 0 || (s.page ctx (f 0 8)).isNone || !powerOfTwo (f 8 4) 1 16 then none
  else if !en then some ((s.setRing n { old with stop := old.en }).ringRests n)
  else if 4 ≤ n % 8 && clash then none
  else some (((s.setTx n []).setRing n ⟨BitVec.ofNat 64 (f 0 8), BitVec.ofNat 32 (f 8 4), 0, 0, ctx, true, BitVec.ofNat 8 (f 22 1),
    nb (f 23 1) 0 1 == 1, pri, false, false, none⟩).pausePort p)

/-- ASSIGN_ETHERNET_RING (R429). -/
def execAssignEthernetRing (w : Nat) (ring : BitVec 7) (d : BitVec 256) (s : State) : Host.Outcome State Fault Refusal :=
  owner w (.ring ring d) s (orRefuse (s.assignRing ring.toNat d))

/-- A doorbell takes effect (R430): TAIL from 0 to SIZE descriptors ahead of HEAD, for an enabled ring of the context; `who`
none waives the context check. Otherwise DB counts. TAIL counts modulo SIZE; HEAD plus SIZE is the ring full of ready descriptors (DEDUCED,
log entry 86). -/
def State.doorbell (s : State) (v : W64) (who : Option Ctx) : State :=
  let n := bitsOf v 0 7
  let r := s.ring n
  let t := bitsOf v 32 32
  let h := r.head.toNat
  let z := r.size.toNat
  let ok := r.en && (match who with
    | some c => r.ctx == c
    | none => true) && (decide (t < z) || (decide (h ≤ t) && decide (t ≤ h + z)))
  if ok then (s.setRing n { r with tail := BitVec.ofNat 32 (t % z), full := t == h + z }).pausePort (n / 8)
  else
    let p := s.port (n / 8)
    s.setPort (n / 8) { p with db := p.db + 1 }

/-- ETHDB_WRITE (R430): the owner writes ETHDB in the host window, with the context check waived; from another master it is discarded (R421).
A program's CSRW of ETHDB takes effect 20 cycles later. -/
def execEthdbWrite (x : HostWrite) (s : State) : Host.Outcome State Fault Refusal :=
  .next (if s.pkg.owner.toNat ≠ x.w then s else (s.setPkg { s.pkg with ethdb := x.v }).doorbell x.v none)

/-- Doorbells of programs that are due in this cycle. -/
def State.doorbellsDue (s : State) : State :=
  let due := s.pkg.dbPend.filter (fun e => decide (e.1 ≤ s.cyc))
  let s := s.setPkg { s.pkg with dbPend := s.pkg.dbPend.filter (fun e => decide (s.cyc < e.1)) }
  due.foldl (fun s e => s.doorbell e.2.1 e.2.2) s

/-! ## Descriptors -/

def EthRing.descVa (r : EthRing) (j : Nat) : Nat := r.base.toNat + 32 * (j % r.size.toNat)

def State.ringAuth (s : State) (r : EthRing) : Auth := s.unitAuth r.ctx

/-- An access of a ring that waits: the sector of another peer that it lacks is asked for. -/
def State.ringWaits (s : State) (n : Nat) (e : Stop') : State := s.unitWaits (s.ringAuth (s.ring n)) e

/-- A ring stops after a fault (R431): the descriptor takes ERR when it can be written, FLT advances, the host is told. -/
def State.ringStop (s : State) (n j flOff : Nat) (err : Nat) : State :=
  let r := s.ring n
  let va := r.descVa j + flOff
  let s := match s.unitRead unitRight (s.ringAuth r) va 1 (whoRing n) with
    | .ok (bs, _) => if err = 0 then s
        else (s.unitPut unitRight (s.ringAuth r) va [BitVec.ofNat 8 ((bs.headD 0).toNat ||| err)] true).1
    | .error _ => s
  let p := s.port (n / 8)
  (((s.setRing n { r with en := false, rx := none }).setPort (n / 8) { p with flt := p.flt + 1 }).hostIntr).pausePort (n / 8)

/-! ## Sending (R431) -/

/-- Read for a ring; a poisoned descriptor is not taken for one (11 R324; log entry 32). -/
def State.readDesc (s : State) (n j : Nat) : Chk Bytes := do
  let r := s.ring n
  let (bs, bad) ← s.unitRead unitRight (s.ringAuth r) (r.descVa j) 32 (whoRing n)
  if bad.any (fun b => b) then raise .poisonConsumed 0 (BitVec.ofNat 64 (r.descVa j)) else .ok bs

/-- A check for descriptor `j`: what stops it, and at which descriptor. -/
def atDesc {α : Type} (j : Nat) (x : Chk α) : Except (Stop' × Nat) α := x.mapError (fun e => (e, j))

/-- A transmit descriptor: its index, address, length, and PR. -/
structure TxDesc where
  j : Nat
  addr : Nat
  len : Nat
  pr : Nat

/-- The descriptors of the frame that begins at `j`; none when it is not complete. Fuel is the number of ready descriptors. -/
def State.txDescs (s : State) (n : Nat) : Nat → Nat → Except (Stop' × Nat) (Option (List TxDesc))
  | 0, _ => .ok none
  | fuel + 1, j => do
    let bs ← atDesc j (s.readDesc n j)
    let d : TxDesc := ⟨j, natLE (bs.take 7), natLE ((bs.drop 8).take 4), natLE ((bs.drop 13).take 1) % 8⟩
    if natLE ((bs.drop 12).take 1) % 2 = 1 then .ok (some [d])
    else
      let rest ← s.txDescs n fuel (j + 1)
      .ok (rest.map (fun l => d :: l))

/-- The bytes of a frame with their poison. -/
def State.txData (s : State) (n : Nat) : List TxDesc → Except (Stop' × Nat) (Bytes × Bool)
  | [] => .ok ([], false)
  | d :: l => do
    let (bs, bad) ← atDesc d.j (s.unitRead unitRight (s.ringAuth (s.ring n)) d.addr d.len (whoRing n))
    let (rest, b) ← s.txData n l
    .ok (bs ++ rest, bad.any (fun b => b) || b)

/-- A frame on the wire: padded to 60 bytes, with its FCS, which is inverted where the data are poisoned. -/
def wireFrame (bs : Bytes) (bad : Bool) : Bytes :=
  let b := bs ++ List.replicate (60 - bs.length) 0
  b ++ (frameFcs b).map (fun x => if bad then ~~~x else x)

/-- Mark descriptors `j`, `j + 1`, ... of a ring: OR a value into FL. -/
def State.markDescs (s : State) (n : Nat) (j cnt flOff v : Nat) : Wrote :=
  (List.range cnt).foldl (fun (x : Wrote) i =>
    match x.2 with
    | some _ => x
    | none =>
      let r := x.1.ring n
      match x.1.unitRead unitRight (x.1.ringAuth r) (r.descVa (j + i) + flOff) 1 (whoRing n) with
      | .error e => (x.1, some e)
      | .ok (bs, _) => x.1.unitPut unitRight (x.1.ringAuth r) (r.descVa (j + i) + flOff)
          [BitVec.ofNat 8 ((bs.headD 0).toNat ||| v)] true [] (whoRingW n)) (s, none)

/-- Take the frame at the head of transmit ring `n`: the first descriptor that no frame in progress has taken. -/
def State.txTake (s : State) (n : Nat) : State :=
  let r := s.ring n
  let taken := ((s.txBusy n).map TxBusy.n).foldl (· + ·) 0
  let j := (r.head.toNat + taken) % r.size.toNat
  let take (s : State) (x : TxBusy) : State :=
    ((s.setPort (n / 8) { s.port (n / 8) with rr := BitVec.ofNat 2 (n + 1) }).setTx n (s.txBusy n ++ [x])).dropGot (whoRing n)
  match s.txDescs n (r.ready - taken) j with
  | .error (.trap _, i) => s.ringStop n i 12 4
  | .error (e, _) => s.ringWaits n e
  | .ok none => s
  | .ok (some ds) =>
    let p := s.port (n / 8)
    let len := (ds.map TxDesc.len).foldl (· + ·) 0
    if (ds.head?.map TxDesc.pr).any p.paused.toNat.testBit then s
    else if 9212 < len then take (s.setPort (n / 8) { p with drop := p.drop + 1 }) ⟨j, ds.length, true, none⟩
    else match s.txData n ds with
      | .error (.trap _, i) => s.ringStop n i 12 4
      | .error (e, _) => s.ringWaits n e
      | .ok (bs, bad) => take s ⟨j, ds.length, bad, some (wireFrame bs bad)⟩

/-- ETH_TX_FRAME (R431): a port with link takes a frame from its next transmit ring, round robin. -/
def execEthTxFrame (port : BitVec 4) (s : State) : Host.Outcome State Fault Refusal :=
  .next (
    let p := s.port port.toNat
    let order := (List.range 4).map (fun i => 8 * port.toNat + (p.rr.toNat + i) % 4)
    if !s.pkg.ethUp.toNat.testBit port.toNat then s
    else match order.find? (fun n =>
        let r := s.ring n
        r.en && !r.stop && decide (((s.txBusy n).map TxBusy.n).foldl (· + ·) 0 < r.ready) && decide (s.txTake n ≠ s)) with
      | none => s
      | some n => s.txTake n)

/-- The last byte of a frame leaves port `p`. -/
def State.frameLeaves (s : State) (p : Nat) (b : TxBusy) : State :=
  match b.sent with
  | none => s
  | some bs =>
    let x := s.port p
    let s := s.setPort p { x with txf := x.txf + 1, poi := if b.err then x.poi + 1 else x.poi }
    s.setPkg { s.pkg with wire := s.pkg.wire ++ [(p, bs)] }

/-- ETH_TX_COMPLETE (R431): the oldest frame of a ring has left; DONE (and ERR) is written, HEAD advances, GA counts. -/
def execEthTxComplete (ring : BitVec 7) (s : State) : Host.Outcome State Fault Refusal :=
  .next (
    let n := ring.toNat
    match s.txBusy n with
    | [] => s
    | b :: rest =>
      match ((s.setTx n rest).frameLeaves (n / 8) b).markDescs n b.first b.n 12 (2 + if b.err then 4 else 0) with
      | (s, some (.trap _)) => s.ringStop n b.first 12 0
      | (_, some e) => s.ringWaits n e
      | (s, none) =>
        let r := s.ring n
        let s := (s.setRing n (r.pass b.n)).dropGot (whoRing n)
        (if r.gv then s.addGauge ⟨true, r.ga⟩ b.n else s).ringRests n)

/-! ## Receiving (R432) -/

/-- The receive ring that takes a priority. -/
def State.rxRing (s : State) (port prio : Nat) : Option Nat :=
  ((List.range 4).map (8 * port + 4 + ·)).find? (fun n => (s.ring n).en && (s.ring n).pri.toNat.testBit prio)

def State.dropFrame (s : State) (port : Nat) : State :=
  let p := s.port port
  s.setPort port { p with drop := p.drop + 1 }

/-- Priority of a frame (R428): of its IEEE 802.1Q tag, 0 without one. -/
def framePrio (bs : Bytes) : Nat := if bs.getD 12 0 = 0x81 && bs.getD 13 0 = 0 then (bs.getD 14 0).toNat / 32 else 0

/-- LEN, FL and PR as the descriptor of a received frame is written back. -/
def RxBusy.bytes (x : RxBusy) : Bytes := bytesLE 4 x.len ++ [BitVec.ofNat 8 (x.fl ||| 1), BitVec.ofNat 8 x.pr]

/-- A received frame has performed: HEAD advances, the frame and the descriptor are counted. -/
def State.rxDone (s : State) (n : Nat) : State :=
  let r := s.ring n
  let s := s.setRing n { r.pass 1 with rx := none }
  let p := s.port (n / 8)
  let s := s.setPort (n / 8) { p with rxf := p.rxf + 1 }
  let s := if r.gv then s.addGauge ⟨true, r.ga⟩ 1 else s
  ((s.dropGot (whoRing n)).ringRests n).pausePort (n / 8)

/-- Its writes have been sent or have performed: it waits for the answers of other peers (R432: the gauge gains only then). -/
def State.rxSent (s : State) (n : Nat) (x : RxBusy) : State :=
  if s.farOpen (whoRingW n) then s.setRing n { s.ring n with rx := some x } else s.rxDone n

/-- Write the descriptor of a received frame back, once the frame's bytes have performed; `old` is the state to which a page in transit leads
back. -/
def State.rxBack (s old : State) (n : Nat) (x : RxBusy) : State :=
  let r := s.ring n
  match s.unitPut unitRight (s.ringAuth r) (r.descVa r.head.toNat + 12) x.bytes true [] (whoRingW n) with
  | (s, some (.trap _)) => s.ringStop n r.head.toNat 16 0
  | (_, some _) => old
  | (s, none) => s.rxSent n { x with back := true }

/-- A frame with a good FCS, which is left out of `frame`, goes into the buffer at the head of ring `n`. While a page that it needs is in
transit, or a frame before it waits for other peers, it is not taken (log entry 54). -/
def State.rxPut (s : State) (pt n : Nat) (frame : Bytes) : State :=
  let r := s.ring n
  if r.rx.isSome then s
  else if r.ready = 0 then s.dropFrame pt
  else match s.readDesc n r.head.toNat with
    | .error (.trap _) => s.ringStop n r.head.toNat 16 0
    | .error e => s.ringWaits n e
    | .ok bs =>
      if natLE ((bs.drop 8).take 4) < frame.length then s.dropFrame pt
      else match s.unitPut unitRight (s.ringAuth r) (natLE (bs.take 7)) frame true [] (whoRingW n) with
        | (t, some (.trap _)) => t.ringStop n r.head.toNat 16 0
        | (_, some _) => s
        | (t, none) =>
          let x : RxBusy := ⟨frame.length, framePrio frame, natLE ((bs.drop 16).take 1), false⟩
          if t.farOpen (whoRingW n) then t.setRing n { r with rx := some x } else t.rxBack s n x

/-- The answers of other peers to the writes of a ring: a refused one stops it (R431, R432); with the last one of a received frame its
descriptor is written back, and then the frame is done. -/
def State.ringAnswers (s : State) (n : Nat) : State :=
  if s.farOpen (whoRingW n) then s
  else
    let bad := s.farRefused (whoRingW n)
    let r := s.ring n
    let t := s.dropGot (whoRingW n)
    if bad && r.en then t.ringStop n r.head.toNat (if 4 ≤ n % 8 then 16 else 12) 0
    else match r.rx with
      | none => t
      | some x => if x.back then t.rxDone n else t.rxBack t n x

/-- Rings whose writes to other peers have been answered. -/
def State.ringsDue (s : State) : State :=
  let busy := (s.pkg.rings.filter (fun e => e.2.rx.isSome)).map Prod.fst
  let told := (s.fab.got.filter (fun g => g.who % 8 == 6 && decide (8 * 128 ≤ g.who))).map (fun g => g.who / 8 - 128)
  (busy ++ told).eraseDups.foldl State.ringAnswers s

/-- ETH_RX_FRAME (R428, R432): a frame arrives: its addresses, what follows them, and four bytes of FCS. One of another length than 64 to 9,216
bytes, which no port supports, is dropped (DESIGN CHOICE, log entry 20: DROP counts it). -/
def execEthRxFrame (port : BitVec 4) (addrs : BitVec 96) (rest fcs : Bytes) (s : State) : Host.Outcome State Fault Refusal :=
  .next (
    let pt := port.toNat
    let p := s.port pt
    let body := bytesLE 12 addrs.toNat ++ rest
    if !s.pkg.ethUp.toNat.testBit pt then s
    else if body.length + fcs.length < 64 || 9216 < body.length + fcs.length then s.dropFrame pt
    else if fcs ≠ frameFcs body then s.setPort pt { p with fcs := p.fcs + 1 }
    else match s.rxRing pt (framePrio body) with
      | none => s.dropFrame pt
      | some n => s.rxPut pt n body)

/-! ## Links and flow control -/

/-- ETH_LINK_CHANGE (R433). -/
def execEthLinkChange (port : BitVec 4) (up : Bool) (s : State) : Host.Outcome State Fault Refusal :=
  .next (s.setPkg { s.pkg with ethUp :=
    if up then s.pkg.ethUp ||| BitVec.ofNat 16 (2 ^ port.toNat) else s.pkg.ethUp &&& ~~~(BitVec.ofNat 16 (2 ^ port.toNat)) })

/-- PRIORITY_FLOW_CONTROL_PAUSE (R428, R431): the link partner pauses or releases a priority. -/
def execPriorityFlowControlPause (port : BitVec 4) (prio : BitVec 3) (on : Bool) (s : State) :
    Host.Outcome State Fault Refusal :=
  .next (
    let p := s.port port.toNat
    let b : BitVec 8 := BitVec.ofNat 8 (2 ^ prio.toNat)
    s.setPort port.toNat { p with paused := if on then p.paused ||| b else p.paused &&& ~~~b })

end Sys2Proof.Machine
end

