-- ==== Sys2Proof/Machine/Fabric.lean ====
section
/-! DEFINITION. Packets that arrive (19 R441, R442, R445, 14 R370), links (R439), Dowel engines (R449 to R451) and their handler
programs (R452 to R458). -/
namespace Sys2Proof.Machine

/-! ## Arrival (R445, 21 R500) -/

/-- A defined OP (R446, 20 R474, 21 R487). -/
def opDefined (op : Nat) : Bool :=
  (decide (1 ≤ op) && decide (op ≤ 8)) || (decide (0x10 ≤ op) && decide (op ≤ 0x15)) || (decide (0x20 ≤ op) && decide (op ≤ 0x27))

def State.discardPk (s : State) : State := s.setFab { s.fab with disc := s.fab.disc + 1 }

/-- The attempt carried by a packet against T of its context here. -/
def State.pkAge (s : State) (p : Packet) : Age := ageOf p.att (s.ctx p.ctx).step.t

/-- Device-local address of a packet. -/
def pkLocal (p : Packet) : Nat := p.addr.toNat % 2 ^ 45

/-- A request packet writes: a store, an atomic, a handler, a line atomic. -/
def pkWrites (p : Packet) : Bool := decide (2 ≤ p.op.toNat) && decide (p.op.toNat ≤ 5)

/-- Bytes that a request packet names. -/
def pkSpan (p : Packet) : Nat :=
  match p.op.toNat with
  | 1 => p.sub.toNat + 1
  | 2 => if p.sub = 0xFF && p.data.length = 2 then 32 else p.sub.toNat + 1
  | 3 => 8
  | 4 => 8
  | _ => 128

/-- A request from another peer waits behind an operation of the same peer that waits at a Dowel engine here: one at its bytes (14 R361),
and a write behind one of its class (R362); operations of one engine go in their order of arrival. -/
def State.behindDowel (s : State) (p : Packet) : Bool :=
  decide (1 ≤ p.op.toNat) && decide (p.op.toNat ≤ 5) &&
  s.fab.dowel.any (fun e => e.2.q.any (fun o =>
    o.loc.isNone && o.pk.src == p.src && o.pk.ctx == p.ctx &&
    !(decide (3 ≤ p.op.toNat) && decide (e.1 = stackOf (pkLocal p))) &&
    ((decide (pkLocal o.pk < pkLocal p + pkSpan p) && decide (pkLocal p < pkLocal o.pk + pkSpan o.pk)) || (pkWrites p && o.pk.cl == p.cl))))

/-- A packet of the same flow waits with its flow behind it, and has not been released. -/
def State.flowHeld (s : State) (p : Packet) : Bool :=
  s.fab.held.any (fun x => x.flow && flowKey x.pk.vc x.pk.src == flowKey p.vc p.src)

/-- What makes a packet wait makes its flow wait: a newer attempt (14 R370), or a Dowel operation before it. -/
def State.stopsFlow (s : State) (p : Packet) : Bool := s.pkAge p == .newer || s.behindDowel p

def State.holdFrom (s : State) (e : Held) : State := s.setFab { s.fab with held := s.fab.held ++ [e] }
def State.hold (s : State) (p : Packet) : State := s.holdFrom ⟨s.cyc, s.flowHeld p || s.stopsFlow p, p⟩

/-- A packet that its engine had taken, and that is found to wait for a newer attempt, waits ahead of those that came after it. -/
def State.holdFirst (s : State) (p : Packet) : State := s.setFab { s.fab with held := ⟨s.cyc, true, p⟩ :: s.fab.held }

/-- A packet reaches this device. One with a bad header or an undefined OP is discarded, and its flow waits (R445); one from a
peer that has been replaced is discarded (21 R500); one that is not the next of its flow has not been delivered. `serve`
answers nothing where the packet must wait aside. A multicast copy is passed on to the rest of the group first, and has not been delivered while
the replication buffer is full (R447). -/
def State.takePacket (s : State) (p : Packet) (ops : List Nat) (serve : State → Packet → Option State) : State :=
  let k := flowKey p.vc p.src
  if p.dst ≠ s.peer then s
  else if !pkOk p || !opDefined p.op.toNat then s.discardPk
  else if !ops.contains p.op.toNat then s
  else if s.fab.subs.any (fun x => x.old == p.src) then s.discardPk
  else if p.seq ≠ Map.get 0 s.fab.seqIn k then s
  else match s.replicate (s.mcOnward p) with
    | none => s.mcWaits
    | some s =>
      let s := s.setFab { s.fab with seqIn := Map.set 0 s.fab.seqIn k (p.seq + 1) }
      if !p.mc.isEmpty && !p.mc.any (fun e => e.1 == s.peer) then s
      else if s.flowHeld p then s.hold p
      else match serve s p with
        | some s => s
        | none => s.hold p

/-- An operation that a released packet has brought to its engine arrived in the cycle in which what it waited for ended, the one before (R449). -/
def State.backdate (s : State) (p : Packet) : State :=
  s.fab.dowel.foldl (fun s e => match e.2.q.find? (fun o => o.pk == p && o.loc.isNone && decide (o.at_ = s.cyc)) with
    | none => s
    | some o =>
      let d := s.dowelOf e.1
      (s.setDowel e.1 { d with q := d.q.erase o }).toDowel e.1 { o with at_ := s.cyc - 1 }) s

/-- Try the packets that wait aside again, in order, as a cycle begins: what was decided or done in the cycle before lets them go. -/
def State.releaseHeld (s : State) (serve : State → Packet → Option State) : State :=
  s.fab.held.foldl (fun s e =>
    if s.flowHeld e.pk then s.holdFrom { e with flow := true }
    else match serve s e.pk with
      | some s => s.backdate e.pk
      | none => s.holdFrom { e with flow := s.stopsFlow e.pk }) (s.setFab { s.fab with held := [] })

/-! ## The home (R441) -/

/-- Where the bytes of a packet lie here: an operation of this device goes where a retirement has moved them (16 R388); of another peer's
the home's checks refuse a frame that has left service. -/
def State.pkKey (s : State) (p : Packet) : Nat := s.homeKey (s.peer.toNat * 2 ^ 45 + pkLocal p)

/-- The line that a packet names is versioned here. -/
def State.pkVers (s : State) (p : Packet) : Bool := (s.frame (s.pkKey p)).isSome

/-- Every byte of a range passes the home's checks. -/
def State.homeRange (s : State) (c : Ctx) (a n : Nat) : Bool := (unitsOf 4096 a n).all (fun u => s.homeOk c (max a (4096 * u)))

/-- Statuses of an answer: served, Access Fault, Capability Fault by missing `vw` (the model's layout, log entry 20). -/
def ansOk : Nat := 0
def ansAccess : Nat := 1
def ansPerm : Nat := 2

/-- Answer a request (R446): OP 0x06 on RSP with the request's identifier; GTAG are the tags of the granules whose bytes it carries. -/
def State.answer (s : State) (p : Packet) (st : Nat) (bs : Bytes) (bad : List Bool) (tags : BitVec 16 := 0) : State :=
  s.send { pkZero with dst := p.src, vc := vcRsp, ctx := p.ctx, op := 6, sub := BitVec.ofNat 8 st, rid := p.rid,
                       pois := BitVec.ofNat 8 (packLanes 1 (bad.map Bool.toNat)), data := flitsOf 8 bs, gtag := tags }

/-- Poison of each 32-byte piece of [a, a + n). -/
def State.poisOfRange (s : State) (a n : Nat) : List Bool :=
  (List.range (cdiv n 32)).map (fun i => (unitsOf 32 (a + 32 * i) (min 32 (n - 32 * i))).any (fun u => s.vpois (32 * u)))

/-- Tags of the granules of [a, a + n), for an answer whose first flit begins with byte `a`. -/
def State.tagsOfRange (s : State) (a n : Nat) : BitVec 16 :=
  BitVec.ofNat 16 (packLanes 1 ((List.range (n / 16)).map (fun i => (s.vtag (a + 16 * i)).toNat)))

/-- A load at its home: checked, held for a newer attempt on a versioned line, served with the home's tags (14 R369, R370). -/
def State.serveLoad (s : State) (p : Packet) : Option State :=
  let a := pkLocal p
  let n := p.sub.toNat + 1
  if !s.homeRange p.ctx a n then some (s.answer p ansAccess [] [])
  else if (s.pkVers p && s.pkAge p == .newer) || s.behindDowel p then none
  else some (s.answer p ansOk (s.vload a n) (s.poisOfRange a n) (s.tagsOfRange a n))

/-- A row of an EPIR that carries an attempt (20 R471): MARK [14] (the model's layout, log entry 20). -/
def pkEpir (p : Packet) : Bool := p.mark.toNat.testBit 14

/-- A packet is a part of an EPIR row, whose first flit is its tag: MARK [13]. -/
def pkRow (p : Packet) : Bool := p.mark.toNat.testBit 13

/-- Bytes that a store packet covers. -/
def pkLength (p : Packet) : Nat := if p.sub = 0xFF && p.data.length = 2 then 32 else p.sub.toNat + 1

/-- What a store packet writes: a masked sector, or bytes with the poison of each flit, sector by sector (14 R359). -/
def State.writePacket (s : State) (p : Packet) : State :=
  let a := pkLocal p
  if p.sub = 0xFF && p.data.length = 2 then
    let bs := pkBytes p
    let b : SecBytes := (List.range 32).map (fun i =>
      let m := bs.getD (32 + i) 0
      if m = 0 && !pkBad p 0 then none else some (bs.getD i 0, m))
    (s.clean a).putSector a b (pkBad p 0)
  else
    let h := if pkRow p then 1 else 0
    let bs := ((pkBytes p).drop (32 * h)).take (p.sub.toNat + 1)
    (sectorsOf ((bs.zip (List.range bs.length)).map (fun e => (a + e.2, e.1, pkBad p (h + e.2 / 32))))).foldl
      (fun s e => (s.clean e.1).putSector e.1 e.2.1 e.2.2) s

/-- A store at its home (R441, R451, 14 R370): one of an older attempt is discarded, one of a newer held; a versioned line needs
VW, and a row of an EPIR that carries no attempt does not write one (16 R382). A row of an EPIR with DG adds its bytes to the device gauge; one that has performed here already is dropped (07 R231, R232). -/
def State.serveStore (s : State) (p : Packet) : Option State :=
  let a := pkLocal p
  let vers := s.pkVers p
  if !s.homeRange p.ctx a (pkLength p) then some (s.answer p ansAccess [] [])
  else if ((vers || pkEpir p) && s.pkAge p == .newer) || s.behindDowel p then none
  else if (vers || pkEpir p) && s.pkAge p == .older then some (s.answer p ansOk [] [])
  else if vers && pkRow p && !pkEpir p then some (s.answer p ansAccess [] [])
  else if vers && !p.vw then some (s.answer p ansPerm [] [])
  else if pkRow p && s.rowSeen p.src p.ctx (pkField p 0 32) then some (s.answer p ansOk [] [])
  else
    let s := s.writePacket p
    let s := if pkRow p then s.seeRow p.src p.ctx (pkField p 0 32) else s
    let s := if p.mark.toNat.testBit 15 then s.addGauge (dgauge (p.mark.truncate 8)) (pkLength p) else s
    some (s.answer p ansOk [] [])

/-- An atomic or a handler packet reaches its engine (R449), unless it waits for a newer attempt. -/
def State.serveAtomic (s : State) (p : Packet) : Option State :=
  if (s.pkVers p && s.pkAge p == .newer && s.homeOk p.ctx (pkLocal p)) || s.behindDowel p then none
  else
    let args := if p.op = 4 then (List.range (p.sub.toNat / 32)).map (fun i => BitVec.ofNat 64 (pkField p (8 * i) 8)) else []
    some (s.toDowel (stackOf (pkLocal p)) ⟨p, args, none, 1024, s.cyc⟩)

/-- Free slots for a link (17 R415), by the attempt they carry. -/
def State.serveFree (s : State) (p : Packet) : Option State :=
  match s.pkAge p with
  | .newer => none
  | .older => some s
  | .same => some (s.freeSlots p.src (pkField p 0 4))

/-- A reward for the Mortise (17 R398): messages are taken in the order of arrival (17 R401). -/
def State.serveReward (s : State) (p : Packet) : Option State :=
  if s.fab.held.any (fun e => e.pk.op == 8) then none else s.rewardTurn (rewardOf p)

/-- REMOTE_LOAD_ARRIVAL (R441). -/
def execRemoteLoadArrival (pk : Packet) (s : State) : Host.Outcome State Fault Refusal :=
  .next (s.takePacket pk [1] State.serveLoad)

/-- Stores, atomics and handler packets (R441, R449). -/
def State.serveWrite (s : State) (p : Packet) : Option State := if p.op = 2 then s.serveStore p else s.serveAtomic p

/-- REMOTE_STORE_ARRIVAL (R441, R449): a store is served; an atomic, a handler packet or a line atomic goes to its engine. -/
def execRemoteStoreArrival (pk : Packet) (s : State) : Host.Outcome State Fault Refusal :=
  .next (s.takePacket pk [2, 3, 4, 5] State.serveWrite)

/-- FREE_SLOTS_ARRIVAL (17 R415). -/
def execFreeSlotsArrival (pk : Packet) (s : State) : Host.Outcome State Fault Refusal :=
  .next (s.takePacket pk [7] State.serveFree)

/-! ## Answers and time-outs (R441, R442) -/

/-- The handler program being loaded fails (R452). -/
def State.hloadFail (s : State) (c : Ctx) (e : BitVec 3) (w : Nat) : State :=
  s.setGctx c { s.gctx c with hload := none, herr := e, hwidx := BitVec.ofNat 6 w }

/-- A word of a handler program has arrived. -/
def State.hloadWord (s : State) (c : Ctx) (v : W32) (bad : Bool) : State :=
  let g := s.gctx c
  match g.hload with
  | none => s
  | some h => if bad then s.hloadFail c 1 0 else s.setGctx c { g with hload := some { h with words := h.words ++ [v] } }

/-- Pass an answer, or a failure, to who waits for it. A WRITE that its home refuses is a stream fault at that command. -/
def State.dispatchAnswer (s : State) (r : Req) (bs : Bytes) (bad : List Bool) (f : Option Trap) (tags : BitVec 16 := 0) : State :=
  match r.who with
  | .acc k id => s.accAnswer k id bs bad f
  | .unit k id u => (s.unitAnswer k id u f).gaUnitAnswer k id u f
  | .src k id sec =>
    (s.srcAnswer k id sec (bs.take r.n) (bad.headD false) f).gaSrcAnswer k id sec (bs.take r.n) (bad.headD false) f
  | .epirRow k id row => s.epirAnswer k id row f
  | .hload c _ => if f.isSome then s.hloadFail c 1 0 else s.hloadWord c (BitVec.ofNat 32 (natLE (bs.take 4))) (bad.headD false)
  | .sector who sec => if who = 0 then s else s.gotSector ⟨who, sec, bs.take 32, bad.headD false, tags.truncate 2, f⟩
  | .cmd n =>
    if f.isNone then s
    else
      let x := s.streamOf (BitVec.ofNat 6 n)
      let back := BitVec.ofNat 32 ((x.head.toNat + x.size.toNat - 1) % x.size.toNat)
      (s.setStream (BitVec.ofNat 6 n) { x with head := back }).streamFault (BitVec.ofNat 6 n) 7

def State.dropReq (s : State) (rid : Nat) : State := s.setFab { s.fab with req := Map.set none s.fab.req rid none }

/-- The trap that an answer's status stands for. -/
def statusTrap (st : Nat) (addr : W64) : Option Trap :=
  if st = ansOk then none
  else if st = ansPerm then some ⟨.capabilityFault, 3, addr⟩
  else some ⟨.accessFault, 0, addr⟩

/-- A request ends without an answer (R442). -/
def State.timeOut (s : State) (rid : Nat) (r : Req) : State :=
  let s := s.setFab { s.fab with tout := s.fab.tout + 1 }
  (s.dropReq rid).dispatchAnswer r (List.replicate r.n 0) [true] (some ⟨.accessFault, 0, BitVec.ofNat 64 r.addr⟩)

/-- Requests that have had no answer for 2^22 cycles time out (R442). -/
def State.timeOuts (s : State) : State :=
  s.fab.req.foldl (fun s e => match e.2 with
    | some r => if r.sent + 2 ^ 22 ≤ s.cyc then s.timeOut e.1 r else s
    | none => s) s

/-- An answer to a request that is outstanding with that peer; a later one is discarded (R442). -/
def State.serveAnswer (s : State) (p : Packet) : Option State :=
  some (match Map.get none s.fab.req p.rid.toNat with
    | none => s
    | some r =>
      if s.standIn (BitVec.ofNat 12 (r.addr / 2 ^ 45)) ≠ p.src then s
      else if r.sent + 2 ^ 22 ≤ s.cyc then s.timeOut p.rid.toNat r
      else
        let bs := if pkBytes p = [] then List.replicate r.n 0 else pkBytes p
        (s.dropReq p.rid.toNat).dispatchAnswer r bs ((List.range 8).map (pkBad p))
          (statusTrap p.sub.toNat (BitVec.ofNat 64 r.addr)) p.gtag)

/-- ANSWER_ARRIVAL (R441). -/
def execAnswerArrival (pk : Packet) (s : State) : Host.Outcome State Fault Refusal :=
  .next (s.takePacket pk [6] State.serveAnswer)

/-- REMOTE_ACCESS_TIMEOUT (R442): no answer within 2^22 cycles. -/
def execRemoteAccessTimeout (rid : Nat) (s : State) : Host.Outcome State Fault Refusal :=
  .next (match Map.get none s.fab.req rid with
    | none => s
    | some r =>
      if s.cyc < r.sent + 2 ^ 22 then s else s.timeOut rid r)

/-! ## Dowel engines (R449 to R451) -/

/-- Source of an operation in the Scribe log (21 R496). -/
def DowelOp.source (o : DowelOp) : Nat :=
  match o.loc with
  | some (k, _) => 2 ^ 15 + k
  | none => o.pk.src.toNat

/-- Key of a source's ordinals at an engine. -/
def DowelOp.ordKey (o : DowelOp) (st : Nat) : Nat := 2 ^ 20 + st * 2 ^ 16 + o.source

/-- DATA of the arrival's entry. -/
def State.dowelEntry (s : State) (st : Nat) (o : DowelOp) : Nat := o.source + 2 ^ 32 * s.ordinal o.pk.ctx (o.ordKey st)

/-- The operation that the engine performs next, once its cycle of arrival has passed, in which others may arrive ahead of it: the first to
arrive, or under replay the first that is logged next. -/
def State.dowelHead (s : State) (st : Nat) : Option DowelOp :=
  (s.dowelOf st).q.find? (fun o => decide (o.at_ < s.cyc) && s.scribeAllows o.pk.ctx 3 st (s.dowelEntry st o))

def State.dowelDrop (s : State) (st : Nat) (o : DowelOp) : State :=
  let d := s.dowelOf st
  s.setDowel st { d with q := d.q.erase o }

/-- The operation has been performed: counted, and logged in arrival order (R449). -/
def State.dowelDone (s : State) (st : Nat) (o : DowelOp) : State :=
  let s := (s.scribeEvent o.pk.ctx 3 st (s.dowelEntry st o)).countOrdinal o.pk.ctx (o.ordKey st)
  let s := s.dowelDrop st o
  let d := s.dowelOf st
  s.setDowel st { d with ops := d.ops + 1 }

/-- The result goes back: to the core of this device, or as an answer. -/
def State.dowelReply (s : State) (o : DowelOp) (st : Nat) (v : W64) (bad : Bool) : State :=
  match o.loc with
  | some (k, id) => s.accAnswer k id (bytesLE 8 v.toNat) [bad] (statusTrap st (o.pk.addr.zeroExtend 64))
  | none => s.answer o.pk st (if o.pk.ret then bytesLE 8 v.toNat else []) [bad]

/-- A line atomic at a line (04 R137): each element is added, and a poisoned sector stays poisoned. -/
def State.lineAt (s : State) (k : Nat) (is32 : Bool) (x : Bytes) : State :=
  let new := lineSum is32 (s.vload k 128) x
  (List.range 4).foldl (fun s i => s.vstore (k + 32 * i) ((new.drop (32 * i)).take 32) (s.vpois (k + 32 * i))) s

/-- The effect of a built-in or line atomic at its home. -/
def State.atomicEffect (s : State) (o : DowelOp) : State × W64 × Bool :=
  let a := s.pkKey o.pk
  let s := s.clean a
  if o.pk.op = 5 then (s.lineAt a (o.pk.sub == 2) (pkBytes o.pk), 0, false)
  else
    let n := o.pk.sub.toNat
    let (s, old, bad) := s.atomAt a (if n / 16 = 2 then 32 else 64) (BitVec.ofNat 4 n) (pkField o.pk 0 8) (pkField o.pk 8 8)
    (s, BitVec.ofNat 64 old, bad)

/-- Bytes that an atomic touches. -/
def DowelOp.length (o : DowelOp) : Nat := if o.pk.op = 5 then 128 else if o.pk.sub.toNat / 16 = 2 then 4 else 8

/-- Perform a built-in or line atomic (R451). -/
def State.dowelAtomic (s : State) (st : Nat) (o : DowelOp) : State :=
  let vers := s.pkVers o.pk
  if o.loc.isNone && !s.homeRange o.pk.ctx (pkLocal o.pk) o.length then (s.dowelDrop st o).dowelReply o ansAccess 0 true
  else if vers && s.pkAge o.pk == .newer then (s.dowelDrop st o).holdFirst o.pk
  else if vers && s.pkAge o.pk == .older then (s.dowelDrop st o).dowelReply o ansOk 0 false
  else if vers && !o.pk.vw then (s.dowelDrop st o).dowelReply o ansPerm 0 true
  else
    let (s, v, bad) := s.atomicEffect o
    (s.dowelDone st o).dowelReply o ansOk v bad

/-- DOWEL_OPERATION (R449): the engine's next operation, where it is a built-in or a line atomic. -/
def execDowelOperation (stack : BitVec 4) (s : State) : Host.Outcome State Fault Refusal :=
  .next (match s.dowelHead stack.toNat with
    | none => s
    | some o => if o.pk.op = 4 then s else s.dowelAtomic stack.toNat o)

/-! ## Handlers (R453 to R458) -/

/-- A handler as it runs: h0 to h15, the index of the next word, steps taken, words written in order, addresses read. -/
structure HRun where
  h : List W64
  pc : Int
  steps : Nat
  wr : List (W64 × W64)
  rd : List W64
  deriving DecidableEq, Repr

/-- Why a handler ends without its result: a fault of R457 with the code of `hfail`; a newer attempt; an older one. -/
inductive HStop where
  | fault (code : Nat) (c : Nat)
  | newer
  | older
  deriving DecidableEq, Repr

def HRun.r (x : HRun) (i : Nat) : W64 := x.h.getD i 0
def HRun.set (x : HRun) (i : Nat) (v : W64) : HRun := { x with h := x.h.set i v }

/-- A handler that stops: why, and the words that it has read. -/
abbrev HEnd := HStop × List W64

/-- It stops here. -/
def HRun.stop {α : Type} (r : HRun) (h : HStop) : Except HEnd α := .error (h, r.rd)

/-- Where a handler runs: its packet, its engine, its program. -/
structure HEnv where
  pk : Packet
  stack : Nat
  prog : List W32

/-- An access keeps to R456 (21 R500 for the peer number of a device that a spare replaced). -/
def State.hwordOk (s : State) (e : HEnv) (x : W64) : Bool :=
  decide (x.toNat % 8 = 0) && decide (x.toNat < 2 ^ 57) && s.standIn (BitVec.ofNat 12 (x.toNat / 2 ^ 45)) == s.peer &&
  stackOf (x.toNat % 2 ^ 45) == e.stack && s.homeOk e.pk.ctx (s.homeKey x.toNat)

/-- W(x) as a handler reads it: its own write, or memory. -/
def State.hget (s : State) (e : HEnv) (r : HRun) (x : W64) : Except HEnd (W64 × HRun) :=
  let k := s.homeKey x.toNat
  let r' := { r with rd := x :: r.rd }
  if !s.hwordOk e x then r.stop (.fault 2 0)
  else if (s.frame k).isSome && s.pkAge e.pk == .newer then r.stop .newer
  else match r.wr.find? (fun w => w.1 == x) with
    | some w => .ok (w.2, r')
    | none => if s.vpois k then r'.stop (.fault 3 0) else .ok (BitVec.ofNat 64 (natLE (s.vload k 8)), r')

/-- W(x) := v. -/
def State.hput (s : State) (e : HEnv) (r : HRun) (x v : W64) : Except HEnd HRun :=
  let k := s.homeKey x.toNat
  let vers := (s.frame k).isSome
  let wr := r.wr.filter (fun w => w.1 != x) ++ [(x, v)]
  if !s.hwordOk e x then r.stop (.fault 2 0)
  else if vers && s.pkAge e.pk == .newer then r.stop .newer
  else if vers && s.pkAge e.pk == .older then r.stop .older
  else if vers && !e.pk.vw then r.stop (.fault 7 0)
  else if 32 < wr.length then r.stop (.fault 5 0)
  else .ok { r with wr := wr }

/-- The loop of `hchase`: the pointer reached, with the steps counted. Fuel bounds the links (R457: 256 steps). -/
def State.hchase (s : State) (e : HEnv) (f : W64) : Nat → Nat → W64 → HRun → Except HEnd (W64 × HRun)
  | 0, _, _, r => r.stop (.fault 4 0)
  | fuel + 1, left, p, r =>
    if left = 0 || p = 0 then .ok (p, r)
    else do
      let (q, r) ← s.hget e r (p + f)
      if 256 < r.steps + 1 then r.stop (.fault 4 0) else s.hchase e f fuel (left - 1) q { r with steps := r.steps + 1 }

/-- Words read at consecutive addresses. -/
def State.hgets (s : State) (e : HEnv) (r : HRun) (x : W64) (n : Nat) : Except HEnd (List W64 × HRun) :=
  (List.range n).foldlM (fun (q : List W64 × HRun) i => do
    let (v, r) ← s.hget e q.2 (x + BitVec.ofNat 64 (8 * i))
    .ok (q.1 ++ [v], r)) ([], r)

/-- `hcasn` (R455). -/
def State.hcasn (s : State) (e : HEnv) (r : HRun) (d a b n : Nat) : Except HEnd HRun := do
  let (o, r) ← s.hgets e r (r.r a) n
  let same := (List.range n).all (fun i => o.getD i 0 == r.r (d + i))
  let r' ← (if same then
      (List.range n).foldlM (fun r i => s.hput e r (r.r a + BitVec.ofNat 64 (8 * i)) (r.r (b + i))) r
    else .ok r : Except HEnd HRun)
  .ok ((List.range n).foldl (fun r i => r.set (d + i) (o.getD i 0)) r')

/-- `henq` (R455). -/
def State.henq (s : State) (e : HEnv) (r : HRun) (d a b : Nat) (f : W64) : Except HEnd HRun := do
  let pa := r.r a
  let pb := r.r b
  let r ← s.hput e r (pb + f) 0
  let (t, r) ← s.hget e r (pa + 8)
  let r ← (if t = 0 then s.hput e r pa pb else s.hput e r (t + f) pb)
  let r ← s.hput e r (pa + 8) pb
  .ok (r.set d t)

/-- `hdeq` (R455). -/
def State.hdeq (s : State) (e : HEnv) (r : HRun) (d a : Nat) (f : W64) : Except HEnd HRun := do
  let pa := r.r a
  let (x, r) ← s.hget e r pa
  let r ← (if x = 0 then .ok r else do
      let (nx, r) ← s.hget e r (x + f)
      let r ← s.hput e r pa nx
      if nx = 0 then s.hput e r (pa + 8) 0 else .ok r : Except HEnd HRun)
  .ok (r.set d x)

/-- One word of a handler (R454): the run after it, or the result. -/
def State.hword (s : State) (e : HEnv) (r : HRun) (w : Nat) : Except HEnd (HRun ⊕ W64) :=
  let d := nb w 22 4
  let a := nb w 18 4
  let b := nb w 14 4
  let imm : Int := bitsInt 14 true (nb w 0 14)
  let f : W64 := BitVec.ofNat 64 (8 * nb w 0 8)
  let va := r.r a
  let vb := r.r b
  let go (r : HRun) : Except HEnd (HRun ⊕ W64) := .ok (.inl { r with pc := r.pc + 1 })
  let put (v : W64) : Except HEnd (HRun ⊕ W64) := go (r.set d v)
  let branch (c : Bool) : Except HEnd (HRun ⊕ W64) := .ok (.inl { r with pc := if c then r.pc + imm else r.pc + 1 })
  match nb w 26 6 with
  | 0x01 => put (va + vb)
  | 0x02 => put (va - vb)
  | 0x03 => put (va &&& vb)
  | 0x04 => put (va ||| vb)
  | 0x05 => put (va ^^^ vb)
  | 0x06 => put (va <<< (vb.toNat % 64))
  | 0x07 => put (va >>> (vb.toNat % 64))
  | 0x08 => put (va + w64 imm)
  | 0x09 => put (w64 (bitsInt 22 true (nb w 0 22)))
  | 0x0A => put (if va = vb then 1 else 0)
  | 0x0B => put (if va.toNat < vb.toNat then 1 else 0)
  | 0x0C => do
    let (v, r) ← s.hget e r (va + w64 (8 * imm))
    go (r.set d v)
  | 0x0D => do
    let r ← s.hput e r (va + w64 (8 * imm)) vb
    go r
  | 0x0E => do
    let (o, r) ← s.hget e r va
    let r' ← (if o = r.r d then s.hput e r va vb else .ok r : Except HEnd HRun)
    go (r'.set d o)
  | 0x0F => do
    let r ← s.hcasn e r d a b (nb w 0 2 + 1)
    go r
  | 0x10 => do
    let r ← s.henq e r d a b f
    go r
  | 0x11 => do
    let r ← s.hdeq e r d a f
    go r
  | 0x12 => do
    let (p, r) ← s.hchase e f 258 vb.toNat va r
    go (r.set d p)
  | 0x13 => branch (va == vb)
  | 0x14 => branch (va != vb)
  | 0x15 => .ok (.inr va)
  | _ => r.stop (.fault 8 (nb w 0 4))

/-- Run a handler to its end. Fuel bounds the words executed (R457: 256 steps). -/
def State.hrun (s : State) (e : HEnv) : Nat → HRun → Except HEnd (W64 × HRun)
  | 0, r => r.stop (.fault 4 0)
  | fuel + 1, r =>
    if r.pc < 0 || 63 < r.pc then r.stop (.fault 6 0)
    else if 256 ≤ r.steps then r.stop (.fault 4 0)
    else do
      match ← s.hword e { r with steps := r.steps + 1 } (e.prog.getD r.pc.toNat 0).toNat with
      | .inr v => .ok (v, r)
      | .inl r' => s.hrun e fuel r'

/-- Registers at the start (R453). -/
def hstart (o : DowelOp) (peer : BitVec 12) : HRun :=
  let args := (List.range 7).map (fun i => o.args.getD i 0)
  ⟨o.pk.addr.zeroExtend 64 :: args ++ [BitVec.ofNat 64 o.args.length, (if o.loc.isSome then peer else o.pk.src).zeroExtend 64] ++
    List.replicate 6 0, 0, 0, [], []⟩

/-- Run the handler of a packet as one unit (R458). Its own line and every line that it reads or writes is written back first where a
cluster holds it dirty (04 R138, R450). -/
def State.dowelHandler (s : State) (st : Nat) (o : DowelOp) : State :=
  let hn : BitVec 5 := o.pk.sub.truncate 5
  let prog := Map.get [] (s.gctx o.pk.ctx).prog hn.toNat
  let res := if prog = [] then .error (.fault 1 0, []) else s.hrun ⟨o.pk, st, prog⟩ 258 (hstart o s.peer)
  let read (l : List W64) : State := l.foldl (fun s x => s.clean (s.homeKey x.toNat)) (s.clean (s.pkKey o.pk))
  match res with
  | .ok (v, r) =>
    let s := read r.rd
    let s := r.wr.foldl (fun s w => (s.clean (s.homeKey w.1.toNat)).vstore (s.homeKey w.1.toNat) (bytesLE 8 w.2.toNat) false) s
    (s.dowelDone st o).dowelReply o ansOk v false
  | .error (.newer, l) => ((read l).dowelDrop st o).holdFirst o.pk
  | .error (.older, l) => ((read l).dowelDrop st o).dowelReply o ansOk 0 false
  | .error (.fault c f, l) =>
    let s := (read l).dowelDone st o
    let d := s.dowelOf st
    let code := if c = 8 then 16 * f + 8 else c
    (s.setDowel st { d with hf := d.hf + 1, lcode := BitVec.ofNat 8 code, lhn := hn }).dowelReply o ansAccess 0 true

/-- DOWEL_HANDLER (R458): the engine's next operation, where it is a handler. -/
def execDowelHandler (stack : BitVec 4) (s : State) : Host.Outcome State Fault Refusal :=
  .next (match s.dowelHead stack.toNat with
    | none => s
    | some o =>
      if o.pk.op ≠ 4 then s
      else if o.loc.isNone && !s.homeOk o.pk.ctx (pkLocal o.pk) then (s.dowelDrop stack.toNat o).dowelReply o ansAccess 0 true
      else s.dowelHandler stack.toNat o)

/-! ## Loading a handler program (R452) -/

/-- A defined handler word (R454). -/
def hdefined (w : Nat) : Bool :=
  let d := nb w 22 4
  let a := nb w 18 4
  let b := nb w 14 4
  let imm := nb w 0 14
  match nb w 26 6 with
  | 0x01 | 0x02 | 0x03 | 0x04 | 0x05 | 0x06 | 0x07 | 0x0A | 0x0B | 0x0E => imm == 0
  | 0x08 | 0x0C => b == 0
  | 0x09 => true
  | 0x0D => d == 0
  | 0x0F => imm / 4 == 0 && decide (d + imm % 4 ≤ 15) && decide (b + imm % 4 ≤ 15)
  | 0x10 | 0x12 => imm / 256 == 0
  | 0x11 => b == 0 && imm / 256 == 0
  | 0x13 | 0x14 => d == 0
  | 0x15 => d == 0 && b == 0 && imm == 0
  | 0x16 => d == 0 && a == 0 && b == 0 && imm / 16 == 0
  | _ => false

/-- `hfail 0`. -/
def hfail0 : W32 := BitVec.ofNat 32 (0x16 * 2 ^ 26)

/-- Read the next word of the program: it is here, on another peer, or cannot be read. -/
def State.hloadStep (s : State) (c : Ctx) (h : HLoad) : State :=
  let va := h.adr.toNat + 4 * h.words.length
  match s.page c va with
  | none => s.hloadFail c 1 0
  | some p =>
    let pa := p.pa + (va - p.va)
    if p.transit then s
    else if !p.r then s.hloadFail c 1 0
    else if s.remote pa then
      if !s.peerExists (pa / 2 ^ 45) then s.hloadFail c 1 0
      else if s.asking (.hload c h.words.length) then s
      else s.request ⟨.hload c h.words.length, pa, 4, c, 1024, 0, true, 0, 0⟩ (loadPk 4 (s.ctx c).step.t)
    else s.hloadWord c (BitVec.ofNat 32 (natLE (s.vload (pa % 2 ^ 45) 4))) (s.vpois (pa % 2 ^ 45))

/-- Every word has been read: decode and install, or say which is undefined. -/
def State.hloadEnd (s : State) (c : Ctx) (h : HLoad) : State :=
  match (List.range h.words.length).find? (fun i => !hdefined (h.words.getD i 0).toNat) with
  | some i => s.hloadFail c 2 i
  | none =>
    let g := s.gctx c
    s.setGctx c { g with hload := none, herr := 0, hwidx := 0,
                         prog := Map.set [] g.prog h.hn.toNat (h.words ++ List.replicate (64 - h.words.length) hfail0) }

/-- Read words until the program is complete or a word has to come from another peer. -/
def State.hloadRun (s : State) (c : Ctx) : Nat → State
  | 0 => s
  | fuel + 1 =>
    match (s.gctx c).hload with
    | none => s
    | some h =>
      if h.words.length = h.n then s.hloadEnd c h
      else
        let s' := s.hloadStep c h
        if (s'.gctx c).hload = some h then s' else s'.hloadRun c fuel

/-- HANDLER_LOAD_COMPLETE (R452): the load in progress reads on; when every word is there the program is decoded and
installed. -/
def execHandlerLoadComplete (ctx : Ctx) (s : State) : Host.Outcome State Fault Refusal := .next (s.hloadRun ctx 66)

/-! ## Links (R436, R437, R439) -/

/-- Number of a link: local link L, or 32 + port. -/
def linkKey (glob : Bool) (n : Nat) : Nat := if glob then 32 + n else n

/-- A link exists and joins two devices (R436, R437). -/
def State.linkUsed (s : State) (glob : Bool) (n : Nat) : Bool :=
  let g := s.peer.toNat / 32
  let m := s.peer.toNat % 32
  let gs := s.fab.groups.toNat
  if glob then decide (n < 127) && decide (gs ≠ 0) && decide ((g + n + 1) % gs ≠ g)
  else decide (n < 31) && decide ((m + n + 1) % 32 < s.fab.members.toNat)

/-- A fibre with nothing failed: 32 wavelengths and two spares; a local link has 16 lanes and one spare. -/
def Fibre.whole (glob : Bool) : Fibre := if glob then ⟨32, 2⟩ else ⟨16, 1⟩

/-- A link as it is before anything has failed (R440). -/
def State.linkReset (s : State) (glob : Bool) (n : Nat) : Link :=
  ⟨0, Fibre.whole glob, Fibre.whole glob, false, if s.linkUsed glob n then 1 else 3⟩

/-- State of a link; one that nothing has happened to is not listed. -/
def State.linkOf (s : State) (glob : Bool) (n : Nat) : Link :=
  match s.fab.links.find? (fun e => e.1 == linkKey glob n) with
  | some e => e.2
  | none => s.linkReset glob n

def State.setLinkOf (s : State) (glob : Bool) (n : Nat) (l : Link) : State :=
  s.setFab { s.fab with links := Map.set (s.linkReset glob n) s.fab.links (linkKey glob n) l }

/-- FLIT_REPLAY (R439): a flit is sent again; nothing else changes. -/
def execFlitReplay (glob : Bool) (n : BitVec 7) (s : State) : Host.Outcome State Fault Refusal :=
  .next (
    let l := s.linkOf glob n.toNat
    if l.st = 3 then s else s.setLinkOf glob n.toNat { l with rty := l.rty + 1 })

/-- The weaker fibre of a link (R440). -/
def Link.weak (l : Link) : Fibre := if l.rx.n < l.tx.n || (l.rx.n == l.tx.n && decide (l.rx.sp < l.tx.sp)) then l.rx else l.tx

/-- A lane or wavelength fails: a spare of its fibre takes its place, else the fibre runs on what works. -/
def Fibre.lose (f : Fibre) : Fibre := if 0 < f.sp then { f with sp := f.sp - 1 } else { f with n := f.n - 1 }

/-- Change the fibre of one direction; a local link's lanes are those of both. -/
def Link.onFibre (l : Link) (glob rx : Bool) (f : Fibre → Fibre) : Link :=
  { l with tx := if glob && rx then l.tx else f l.tx, rx := if glob && !rx then l.rx else f l.rx }

/-- ST follows what works: 0 down, 1 up, 2 degraded. -/
def Link.settle (l : Link) (glob : Bool) : Link :=
  { l with st := if l.weak.n = 0 then 0 else if l.weak.n < (Fibre.whole glob).n then 2 else 1 }

/-- LANE_SWAP (R439): a lane or wavelength of a fibre fails, or the whole fibre, which a spare fibre of the device replaces. Without a
spare fibre that direction has none. -/
def execLaneSwap (glob : Bool) (n : BitVec 7) (part : LinkPart) (s : State) : Host.Outcome State Fault Refusal :=
  .next (
    let l := s.linkOf glob n.toNat
    let (fibre, rx) := match part with
      | .lane rx => (false, rx)
      | .fibre rx => (true, rx)
    let put (s : State) (l : Link) : State := s.setLinkOf glob n.toNat (l.settle glob)
    if l.st = 3 || (if rx then l.rx.n else l.tx.n) = 0 then s
    else if fibre && glob then
      (if s.fab.spf = 0 then put s (l.onFibre glob rx (fun _ => ⟨0, 0⟩))
       else put (s.setFab { s.fab with spf := s.fab.spf - 1 }) { (l.onFibre glob rx (fun _ => Fibre.whole glob)) with sfb := true })
    else put s (l.onFibre glob rx Fibre.lose))

/-- LINK_DOWN (R439): a link with no working lanes or wavelengths goes down. -/
def execLinkDown (glob : Bool) (n : BitVec 7) (s : State) : Host.Outcome State Fault Refusal :=
  .next (
    let l := s.linkOf glob n.toNat
    if l.st = 3 then s else s.setLinkOf glob n.toNat { l with tx := ⟨0, 0⟩, rx := ⟨0, 0⟩, st := 0 })

end Sys2Proof.Machine
end

