-- ==== Sys2Proof/Machine/Veneer.lean ====
section
/-! DEFINITION. Veneer planes (20 R474 to R480, R482): the table of destination tiles, planes that arrive, the words `vnfix`,
`vncut` and `vndepth`, and sends. In packets, `mark` [0] is FP, [1] says that an attempt is carried, [2] a plane of a
collective, whose ADDR is SEQ, with the group in `mark` [19:16] and the tile in [63:32]; RID is the transfer number; SUB the plane or the limit
(the model's layout, log entry 20). -/
namespace Sys2Proof.Machine

/-! ## Planes (R474, R475) -/

/-- Full depth P, which is also the width of an element. -/
def vnP (fp : Bool) : Nat := if fp then 32 else 16

/-- The bit of an element that plane `p` holds. -/
def vnBit (fp : Bool) (p : Nat) : Nat := if p < 8 then vnP fp - 2 - p else vnP fp - 1 - (if p = 8 then 0 else p)

/-- Bits of the planes at and above a depth. -/
def vnAbove (fp : Bool) (d : Nat) : Nat :=
  ((List.range (vnP fp)).filter (fun p => decide (d ≤ p))).foldl (fun n p => n + 2 ^ vnBit fp p) 0

/-- An element as it is sent: every NaN is the canonical one, without sign (R475, 02 R47). -/
def vnCanon (fp : Bool) (x : Nat) : Nat :=
  let f := if fp then f32 else bf16
  if (decodeF f x).isNan then f.qnan else x

/-- Elements of a tile's bytes. -/
def tileEls (fp : Bool) (bs : Bytes) : List Nat := (List.range 2048).map (fun j => elemAt (vnP fp) bs j)

/-- Plane `p` of elements, as the number its 256 bytes spell. -/
def vnPlane (fp : Bool) (els : List Nat) (p : Nat) : Nat := packLanes 1 (els.map (fun x => (x.testBit (vnBit fp p)).toNat))

/-- An element at depth `d` (R476). -/
def vnAt (fp : Bool) (d x : Nat) : Nat := x &&& (2 ^ vnP fp - 1 - vnAbove fp d)

/-! ## The table (R477) -/

def State.vnFind (s : State) (tile : Nat) : Option VnEnt := s.fab.vns.find? (fun e => e.tile == tile)

/-- Base address of a collective's buffer: through its handle, or its capability (R464). -/
def bufBase (c : Cap) (h : Option Tensor) : Nat :=
  match h with
  | some t => t.base.toNat
  | none => c.cur

def Coll.dbase (x : Coll) : Nat := bufBase x.dst x.hd

/-- Sectors of the tile at address `a` of DST, in which nothing will be written any more. -/
def Coll.tileOver (x : Coll) (fp : Bool) (a : Nat) : Coll :=
  let l := (List.range (tileBytes fp / 32)).map (fun i => a / 32 + i)
  { x with done := l.filter (fun n => !x.done.contains n) ++ x.done }

/-- Address in DST of the tile that a mark names (log entry 20). -/
def Coll.markTile (x : Coll) (fp : Bool) (mark : BitVec 64) : Nat := x.dbase + mark.toNat / 2 ^ 32 * tileBytes fp

/-- The transfer of an entry is over: its collective writes no more in that tile. -/
def State.tileEnded (s : State) (e : VnEnt) : State :=
  s.setFab { s.fab with colls := s.fab.colls.map (fun x =>
    if e.coll = some x.id then x.tileOver e.fp (x.markTile e.fp e.mark) else x) }

/-- Change an entry in place. -/
def State.vnPut (s : State) (e : VnEnt) : State :=
  let s := s.setFab { s.fab with vns := s.fab.vns.map (fun x => if x.tile == e.tile then e else x) }
  if (e.st == .full || e.st == .cut) && e.cur.isNone then s.tileEnded e else s

/-- Room for an entry: the least recently created full or cut one goes when the table holds 8,192. -/
def State.vnRoom (s : State) : Option State :=
  if s.fab.vns.length < 8192 then some s
  else match s.fab.vns.find? (fun e => (e.st == .full || e.st == .cut) && e.cur.isNone) with
    | some e => some (s.setFab { s.fab with vns := s.fab.vns.filter (fun x => x.tile != e.tile) })
    | none => none

/-- A new entry of a tile: pending, with L = P. -/
def vnNew (tile : Nat) (fp : Bool) : VnEnt := ⟨tile, fp, vnP fp, 0, false, .pending, 0, 0, 0, 0, 0, 0, none, none, []⟩

/-- The entry of a tile, created if there is none. -/
def State.vnEntry (s : State) (tile : Nat) (fp : Bool) : Option (State × VnEnt) :=
  match s.vnFind tile with
  | some e => some (s, e)
  | none => s.vnRoom.map (fun s => (s.setFab { s.fab with vns := s.fab.vns ++ [vnNew tile fp] }, vnNew tile fp))

def State.vnDisc (s : State) : State := s.setFab { s.fab with vdisc := s.fab.vdisc + 1 }

/-- A cancel carrying a limit, to the sender of a transfer, with the attempt of its planes (R471). -/
def State.vnCancelTo (s : State) (peer : BitVec 12) (c : Ctx) (att : BitVec 16) (xfer lim : Nat) (addr : BitVec 57) (mark : BitVec 64) : State :=
  (s.setFab { s.fab with vcanc := s.fab.vcanc + 1 }).send
    { pkZero with dst := peer, vc := vcVen, ctx := c, op := 0x14, sub := BitVec.ofNat 8 lim, addr := addr, mark := mark,
                  rid := BitVec.ofNat 16 xfer, att := att }

/-- A cancel in answer to a plane. -/
def State.vnCancel (s : State) (p : Packet) (lim : Nat) : State := s.vnCancelTo p.src p.ctx p.att p.rid.toNat lim p.addr p.mark

/-- A cancel to the owner of an open entry. -/
def State.vnCancelEnt (s : State) (e : VnEnt) (lim : Nat) : State := s.vnCancelTo e.src e.ctx e.att e.xfer lim e.addr e.mark

/-- Acknowledge a plane that was applied (R480). -/
def State.vnAck (s : State) (p : Packet) : State :=
  s.send { pkZero with dst := p.src, vc := vcRsp, ctx := p.ctx, op := 0x15, sub := p.sub, addr := p.addr, mark := p.mark, rid := p.rid,
                       att := p.att }

/-! ## Writing a tile (R476) -/

/-- Cluster and base address of a tile in SRAM; a tile in HBM is its own base. -/
def tileClu (tile : Nat) : Nat := (tile - 2 ^ 45) / 2 ^ 25
def tileBase (tile : Nat) : Nat := if 2 ^ 45 ≤ tile then (tile - 2 ^ 45) % 2 ^ 25 else tile

/-- A tile on another peer. -/
def tileFar (tile : Nat) : Bool := decide (2 ^ 58 ≤ tile)

/-- A block of the tile is in use (06 R204). -/
def State.tileBlocked (s : State) (tile : Nat) (i : Nat) : Bool :=
  decide (2 ^ 45 ≤ tile) && !tileFar tile && (Map.get blockEmpty s.shr.blocks (tileClu tile * 6144 + (tileBase tile + 32 * i) / 4096)).use

/-- Where sector `i` of a tile lies. -/
def State.tileSpot (s : State) (tile i : Nat) : Spot :=
  let k := tile + 32 * i
  if tileFar tile then .far (k - 2 ^ 58) else .key k (decide (k < 2 ^ 45) && (s.frame k).isSome)

/-- Write every sector of a tile as an engine write: `f` gives the value of element `j` and the mask of the bits that change. Whether a sector
was discarded at an in-use bit. -/
def State.tileWrite (s : State) (tile : Nat) (fp : Bool) (r : Right) (a : Auth) (bad : Bool) (f : Nat → Nat × Nat) (who : Nat := 0) :
    State × Bool :=
  let w := vnP fp
  let per := 256 / w
  let a := if 2 ^ 45 ≤ tile && !tileFar tile then { a with k := 8 * tileClu tile } else a
  (List.range (tileBytes fp / 32)).foldl (fun (q : State × Bool) i =>
    let new := (List.range per).map (fun j => f (per * i + j))
    let b : SecBytes := ((packElems w (new.map Prod.fst)).zip (packElems w (new.map Prod.snd))).map some
    let (s, put) := q.1.engPut r a (.sector who ((tile - 2 ^ 58) / 32 + i)) (q.1.tileSpot tile i) (tileBase tile + 32 * i) b bad q.2
    (s, q.2 || put == .discarded)) (s, false)

/-- Count a plane that has landed in PG of the context (R483). -/
def State.countPlane (s : State) (c : Ctx) (n : Nat) : State :=
  let v := (s.gctx c).vncfg
  if bitsOf v 9 1 = 1 then s.addGauge (dgauge (BitVec.ofNat 8 (bitsOf v 0 8))) n else s

/-- A plane has performed in every sector of its tile: the depth, the acknowledgement, the count. -/
def State.vnLanded (s : State) (e : VnEnt) (pk : Packet) : State :=
  let d := pk.sub.toNat % 64 + 1
  ((s.vnPut { e with d := d, st := if e.lim ≤ d && e.st == .open_ then .full else e.st, cur := none, acks := [] }).vnAck pk).countPlane pk.ctx 1

/-- Apply plane `p` to the open entry `e` of its tile. A landing conflict cuts the transfer at its depth, and leaves the bits
of that plane undefined. Of a tile on another peer the plane has landed when its home has answered. -/
def State.vnApply (s : State) (e : VnEnt) (pk : Packet) (p : Nat) (r : Right) (a : Auth) : State × Bool :=
  let bits := natLE (pkBytes pk)
  let blocked := (List.range (tileBytes e.fp / 32)).any (s.tileBlocked e.tile)
  let bit (j : Nat) : Nat := if blocked then (s.choice (2 ^ 21 + j)).toNat else (bits.testBit j).toNat
  let set (j : Nat) : Nat := bit j * 2 ^ vnBit e.fp p
  let (s, _) := s.tileWrite e.tile e.fp r a (pk.pois != 0) (fun j => (set j, if p = 0 then 2 ^ vnP e.fp - 1 else set j))
    ((e.coll.map whoColl).getD 0)
  if blocked then ((s.vnPut { e with st := .cut }).vnCancel pk e.d, false)
  else if tileFar e.tile then
    (s.vnPut { e with cur := some pk, acks := (List.range (tileBytes e.fp / 32)).map ((e.tile - 2 ^ 58) / 32 + ·) }, false)
  else (s.vnLanded e pk, true)

/-- A plane reaches its tile (R477, R480): what the state becomes and whether it landed, or nothing where a first plane waits
for an entry, or any for the one before it to land. -/
def State.planeAt (s : State) (pk : Packet) (tile : Nat) (r : Right) (a : Auth) (vnk : Nat) (coll : Option Nat) : Option (State × Bool) :=
  let p := pk.sub.toNat % 64
  let fp := pk.mark.toNat.testBit 0
  let mine (e : VnEnt) : Bool := e.src == pk.src && e.xfer == pk.rid.toNat
  if (s.vnFind tile).any (fun e => mine e && e.cur.isSome) then none
  else if p ≠ 0 then
    some (match s.vnFind tile with
      | some e => if mine e && e.st == .open_ && e.d == p && decide (p < e.lim) then s.vnApply e pk p r a else (s.vnDisc, false)
      | none => (s.vnDisc, false))
  else
    match s.vnEntry tile fp with
    | none => none
    | some (s, e) =>
      if e.st = .open_ then
        some ((s.setFab { s.fab with vconf := s.fab.vconf + 1 }).vnCancel pk 0, false)
      else
        let e := { e with fp := fp, src := pk.src, xfer := pk.rid.toNat, addr := pk.addr, mark := pk.mark,
                          ctx := pk.ctx, att := pk.att, coll := coll, lim := if vnk = 0 then e.lim else vnk }
        if e.cut then some (((s.vnPut { e with cut := false, st := .cut }).vnCancel pk 0).vnDisc, false)
        else
          let s := if e.lim < vnP fp then s.vnCancel pk e.lim else s
          let e := { e with st := .open_, d := 0 }
          some ((s.vnPut e).vnApply e pk 0 r a)

/-- A plane of the same transfer waits aside: later ones wait behind it. -/
def State.planeWaits (s : State) (p : Packet) : Bool :=
  s.fab.held.any (fun x => x.pk.op == 0x13 && x.pk.src == p.src && x.pk.rid == p.rid && x.pk.addr == p.addr && x.pk.mark == p.mark)

/-- A plane of a `vnsend` at its home: the checks of R441 and R382, then its tile. SUB of the cancel that refuses it carries a
status in [7:6]. It is written for no core of this device, and so past the cluster caches. -/
def State.vnsendPlane (s : State) (p : Packet) : Option State :=
  let fp := p.mark.toNat.testBit 0
  let carried := p.mark.toNat.testBit 1
  let vers := s.pkVers p
  if !s.homeRange p.ctx (pkLocal p) (tileBytes fp) || (vers && !carried) then some (s.vnCancel p 0x40)
  else if vers && !p.vw then some (s.vnCancel p 0x80)
  else
    let a : Auth := ⟨384, 1024, p.ctx, (s.ctx p.ctx).step.t, true, s.cyc⟩
    (s.planeAt p (pkLocal p) ⟨3, true, p.vw⟩ a 0 none).map Prod.fst

/-- A plane by the attempt it carries (R471), then by whose it is. -/
def State.servePlaneWith (coll : State → Packet → Option State) (s : State) (p : Packet) : Option State :=
  let carried := p.mark.toNat.testBit 1
  if s.planeWaits p then none
  else if carried && s.pkAge p == .newer then none
  else if carried && s.pkAge p == .older then some s
  else if p.mark.toNat.testBit 2 then coll s p else s.vnsendPlane p

/-! ## Tile words (R478, R482) -/

/-- Key of a tile named by a capability: its memory key here, or beyond every key for another peer's. -/
def State.tileKey (s : State) (c : Ctx) (k : Nat) (cap : Cap) : Chk Nat :=
  if cap.spc = 1 then .ok (sramKey (cluOf k) cap.cur)
  else match s.page c cap.cur with
    | none => raise .translationFault 0 (BitVec.ofNat 64 cap.cur)
    | some p =>
      let pa := p.pa + (cap.cur - p.va)
      if p.transit then .error .wait else if s.remote pa then .ok (2 ^ 58 + pa) else .ok (s.homeKey pa)

def dieOf (k : Nat) : Nat := k / 96

/-- DATA of a Veneer depth in the Scribe log (21 R496). -/
def vnEntry7 (s : State) (tile d : Nat) (depth : Bool) : Nat :=
  let pa := if tile < 2 ^ 45 then s.peer.toNat * 2 ^ 45 + tile else tile
  d + (if depth then 64 else 0) + pa / 4096 % 2 ^ 45 * 128

/-- Depth that the log asks of a word on a tile: none where nothing is replayed; otherwise the depth, if the next entry of
the die is this word's. -/
def State.vnLogged (s : State) (o : Op) (tile : Nat) (depth : Bool) : Option (Option Nat) :=
  match s.nextLogged o.ctx 7 (dieOf o.core) with
  | none => none
  | some (_, d) => some (if d / 64 = vnEntry7 s tile 0 depth / 64 then some (d % 64) else none)

/-- What a tile word does: done, or it waits at the head of its queue. -/
inductive VnWord where
  | done (s : State)
  | entry (s : State)
  | wait
  deriving DecidableEq, Repr

/-- Clear the planes of a tile at and above `l`, where it holds any (R478). -/
def State.vnTrim (s : State) (o : Op) (e : VnEnt) (cap : Cap) (l : Nat) : Chk State :=
  if e.d ≤ l then .ok s
  else do
    let _ ← s.unitSpot (rightOf cap) o.auth cap.cur true
    let s := s.vnPut { e with d := l }
    .ok (s.tileWrite e.tile e.fp (rightOf cap) o.auth false (fun _ => (0, vnAbove e.fp l))).1

/-- As `vnTrim`; a write that faults is reported (08 R258), and the word's other effects stand. -/
def State.vnTrimmed (s : State) (o : Op) (e : VnEnt) (cap : Cap) (l : Nat) : Chk State :=
  match s.vnTrim o e cap l with
  | .error (.trap t) => .ok (s.reportOp o.li o.pid t)
  | r => r

/-- `vnfix k` on an entry. -/
def State.vnFix (s : State) (o : Op) (e : VnEnt) (cap : Cap) (k : Nat) : Chk State := do
  let open_ := e.st == .open_
  let l := if open_ then min e.lim k else k
  let e1 := { e with lim := l, st := if open_ && decide (l ≤ e.d) then .full else e.st }
  let s ← (s.vnPut e1).vnTrimmed o e1 cap l
  .ok (if open_ then s.vnCancelEnt e l else s)

/-- `vncut` on an open entry, or under replay a full one, at depth `d`. -/
def State.vnCutAt (s : State) (o : Op) (e : VnEnt) (cap : Cap) (d : Nat) : Chk State := do
  let s := s.scribeEvent o.ctx 7 (dieOf o.core) (vnEntry7 s e.tile d false)
  let e1 := { e with st := .cut }
  let s ← (s.vnPut e1).vnTrimmed o e1 cap d
  .ok (if e.st = .open_ then s.vnCancelEnt e d else s)

/-- Finish a word whose access may fault: the fault is reported (08 R258). -/
def State.vnEnd (s : State) (o : Op) (r : Chk State) : VnWord :=
  match r with
  | .ok s => .done s
  | .error (.trap t) => .done (s.reportOp o.li o.pid t)
  | .error _ => .wait

/-- Run `vnfix`, `vncut` or `vndepth` (R478). A `vndepth` whose tile's translation or access faults fills its q0 entry with 0, poisoned (DESIGN
CHOICE, log entry 78). Under replay a `vncut` waits until the tile has its logged depth, also where it has gone past it, and cuts there
(R482). -/
def State.vnWord (s : State) (o : Op) : VnWord :=
  let w := o.word.toNat
  let cap := match (o.args.headD ⟨0, .plain⟩).attr with
    | .cap c => c
    | _ => nullCap
  let fp := nb w 6 1 == 1
  match s.tileKey o.ctx o.core cap with
  | .error (.trap t) =>
    let s := s.reportOp o.li o.pid t
    .done (if nb w 8 4 = 4 then s.at o.core (fun s => s.fillQ 0 o.qid ⟨0, true⟩) else s)
  | .error _ => .wait
  | .ok tile =>
    if nb w 8 4 = 4 then
      let d := match s.vnFind tile with
        | some e => if e.st = .pending then 0 else e.d
        | none => 0
      let fill (d : Nat) : VnWord :=
        .done ((s.scribeEvent o.ctx 7 (dieOf o.core) (vnEntry7 s tile d true)).at o.core (fun s => s.fillQ 0 o.qid ⟨BitVec.ofNat 64 d, false⟩))
      match s.vnLogged o tile true with
      | none => fill d
      | some (some v) => if v ≤ d then fill v else .wait
      | some none => .wait
    else match s.vnEntry tile fp with
      | none => .entry s
      | some (s, e) =>
        if nb w 8 4 = 2 then s.vnEnd o (s.vnFix o e cap (nb w 0 6))
        else match s.vnLogged o tile false with
          | none => if e.st = .open_ then s.vnEnd o (s.vnCutAt o e cap e.d) else .done (s.vnPut { e with cut := true })
          | some (some v) => if (e.st = .open_ || e.st = .full) && v ≤ e.d then s.vnEnd o (s.vnCutAt o e cap v) else .wait
          | some none => if e.st = .open_ then .wait else .done (s.vnPut { e with cut := true })

/-- The VC engine takes a tile word of the core in focus, if it can (R478). -/
def State.takeVnWord (s : State) (o : Op) : State :=
  match s.vnWord o with
  | .done s => s.setCore { (s.core.takeOp o) with vcWait := none }
  | .entry s => if s.core.vcWait.isSome then s else s.setCore { s.core with vcWait := some s.cyc }
  | .wait => s

/-- VENEER_ENTRY_WAIT_DROP (R477): a `vnfix` or `vncut` that has waited 2^20 cycles for an entry is dropped and reported. -/
def execVeneerEntryWaitDrop (s : State) : Host.Outcome State Fault Refusal :=
  .next (match s.core.vcWait, s.core.headOp .vc with
    | some t, some o =>
      if s.cyc < t + 2 ^ 20 || s.vnRoom.isSome then s
      else
        let s := s.setCore { (s.core.takeOp o) with vcWait := none }
        s.reportOp o.li o.pid ⟨.engineOperandFault, BitVec.ofNat 16 (engIdx .vc), (o.args.headD ⟨0, .plain⟩).v⟩
    | _, _ => s)

/-! ## Sends (R475, R479) -/

def VnSend.setIn (x : VnSend) (s : State) : State :=
  s.setFab { s.fab with sends := s.fab.sends.map (fun y => if y.id == x.id then x else y) }

/-- Every destination has acknowledged what lies below its limit. -/
def VnTile.complete (t : VnTile) : Bool := t.dests.all (fun d => decide (d.lim ≤ d.ack))

/-- Tiles that are complete leave; each adds to the gauge of its `vnsend`; the send ends with its last tile (R479). -/
def State.settleSend (s : State) (x : VnSend) : State :=
  let n := (x.tiles.filter VnTile.complete).length
  let s := match x.coll, x.op.gauge with
    | none, some g => s.at x.op.core (fun s => s.addGauge g n)
    | _, _ => s
  let x := { x with tiles := x.tiles.filter (fun t => !t.complete), done := x.done + n }
  if x.done = x.n then s.setFab { s.fab with sends := s.fab.sends.filter (fun y => y.id != x.id) } else x.setIn s

/-- A fault of a send is reported once (08 R258). -/
def State.sendFault (s : State) (x : VnSend) (t : Trap) : State × VnSend :=
  if x.faulted then (s, x) else (s.reportOp x.op.li x.op.pid t, { x with faulted := true })

def Op.capAt (o : Op) (i : Nat) : Cap :=
  match (o.args.getD i ⟨0, .plain⟩).attr with
  | .cap c => c
  | _ => nullCap

/-- A transfer number that no active send has. -/
def State.freeXfer (s : State) : Nat :=
  ((List.range (s.fab.sends.length + 1)).map (fun i => (s.nextId + i) % 65536)).find? (fun n => !s.fab.sends.any (fun x => x.xfer == n)) |>.getD 0

/-- Begin a `vnsend`: it carries the attempt held now (R471). -/
def State.startVnsend (s : State) (o : Op) : State :=
  let st := (s.ctx o.ctx).step
  let o := { o with att := st.t, stepOpen := st.open_ }
  let x : VnSend := { id := s.nextId, op := o, coll := none, fp := nb o.word.toNat 6 1 == 1, n := (o.args.getD 2 ⟨0, .plain⟩).v.toNat,
                      read := 0, tiles := [], done := 0, xfer := s.freeXfer, faulted := false }
  (s.setFab { s.fab with sends := s.fab.sends ++ [x] }).fresh

/-- Fabric physical address of a destination tile. -/
def State.sendDest (s : State) (x : VnSend) (t : Nat) : Chk Nat := do
  let d := x.op.capAt 0
  match ← s.unitSpot (rightOf d) x.op.auth (d.cur + t * tileBytes x.fp) true with
  | .key k _ => .ok (s.peer.toNat * 2 ^ 45 + k)
  | .far pa => if s.peerExists (pa / 2 ^ 45) then .ok pa else raise .accessFault 0 (BitVec.ofNat 64 pa)

/-- Read the next tile of a `vnsend` whole (R475). One that cannot be read or reached is left out, and the fault reported. -/
def State.readTile (s : State) (x : VnSend) : State :=
  let c := x.op.capAt 1
  let n := tileBytes x.fp
  match s.unitRead (rightOf c) x.op.auth (c.cur + x.read * n) n (whoOp x.op), s.sendDest x x.read with
  | .ok (bs, bad), .ok pa =>
    let t : VnTile := ⟨x.read, BitVec.ofNat 57 pa, 0, (tileEls x.fp bs).map (vnCanon x.fp), bad.any id, 0,
      [⟨s.standIn (BitVec.ofNat 12 (pa / 2 ^ 45)), vnP x.fp, 0⟩]⟩
    VnSend.setIn { x with read := x.read + 1, tiles := x.tiles ++ [t] } (s.dropGot (whoOp x.op))
  | .error (.trap t), _ =>
    let (s, x) := (s.dropGot (whoOp x.op)).sendFault x t
    s.settleSend { x with read := x.read + 1, done := x.done + 1 }
  | _, .error (.trap t) =>
    let (s, x) := (s.dropGot (whoOp x.op)).sendFault x t
    s.settleSend { x with read := x.read + 1, done := x.done + 1 }
  | .error e, _ => s.unitWaits x.op.auth e
  | _, _ => s

/-- The limit of the branch that leads to a destination (19 R447, R479): destinations of another group share one. -/
def State.branchLim (s : State) (t : VnTile) (d : VnDest) : Nat :=
  let g := d.peer.toNat / 32
  if g = s.peer.toNat / 32 then d.lim
  else ((t.dests.filter (fun x => x.peer.toNat / 32 == g)).map VnDest.lim).foldl max 0

/-- Destinations that take the tile's next plane. -/
def State.planeTo (s : State) (t : VnTile) : List VnDest := t.dests.filter (fun d => decide (t.next < s.branchLim t d))

/-- Send the next plane of a tile; along a tree it waits while the replication buffer is full (19 R447). -/
def State.sendPlane (s : State) (x : VnSend) (t : VnTile) : State :=
  let bits := vnPlane x.fp t.els t.next
  let many := decide (1 < t.dests.length)
  let flags := x.fp.toNat + (if x.op.stepOpen then 2 else 0) + (if x.coll.isSome then 4 else 0)
  let pk : Packet := { pkZero with vc := if many then 4 else vcVen, ctx := x.op.ctx, op := 0x13, sub := BitVec.ofNat 8 t.next,
                                   vw := (rightOf (x.op.capAt 0)).vw, att := x.op.att, addr := t.addr, mark := t.mark + BitVec.ofNat 64 flags,
                                   rid := BitVec.ofNat 16 x.xfer, pois := if t.p then 0xFF else 0,
                                   data := (List.range 8).map (fun i => BitVec.ofNat 256 (bits / 2 ^ (256 * i))) }
  let t' := { t with next := t.next + 1 }
  let sent := VnSend.setIn { x with tiles := x.tiles.map (fun y => if y.t = t.t then t' else y) }
  if many then
    match s.multicast ((s.planeTo t).map VnDest.peer) pk with
    | some s => sent s
    | none => s.mcWaits
  else sent ((s.planeTo t).foldl (fun s d => s.send { pk with dst := d.peer }) s)

/-- A tile may send its next plane: one that has not started follows every tile before it (R475). -/
def VnSend.mayGo (x : VnSend) (t : VnTile) : Bool := t.next != 0 || x.tiles.all (fun y => y.next != 0 || decide (t.t ≤ y.t))

/-- VENEER_PLANE_SEND (R475): the next plane of a tile of send `id`, or the start of its next tile: tiles overlap freely, in
ascending order of their starts. -/
def execVeneerPlaneSend (id : Nat) (s : State) : Host.Outcome State Fault Refusal :=
  .next (match s.fab.sends.find? (fun x => x.id == id) with
    | none => s
    | some x =>
      let ready := x.tiles.filter (fun t => !(s.planeTo t).isEmpty && x.mayGo t)
      let more := x.coll.isNone && decide (x.read < x.n)
      let i := s.freeIdx (2 ^ 21 + 2) % (ready.length + more.toNat)
      match ready[i]? with
      | some t => s.sendPlane x t
      | none => if more then s.readTile x else s)

/-- The send that an acknowledgement or a cancel names: its transfer, context and attempt (R471). -/
def State.sendOf (s : State) (p : Packet) : Option VnSend :=
  s.fab.sends.find? (fun x => x.xfer == p.rid.toNat && x.op.ctx == p.ctx && x.op.att == p.att && x.op.stepOpen == p.mark.toNat.testBit 1)

/-- A packet for a collective has come: its wait on other members begins anew (R473). -/
def State.collHeard (s : State) (id : Option Nat) : State :=
  s.setFab { s.fab with colls := s.fab.colls.map (fun y => if id = some y.id then { y with last := s.cyc } else y) }

/-- Apply a change to the destination that a packet names. -/
def State.onDest (s : State) (p : Packet) (f : VnDest → VnDest) : State :=
  match s.sendOf p with
  | none => s
  | some x =>
    (s.collHeard x.coll).settleSend { x with tiles := x.tiles.map (fun t =>
      if t.addr = p.addr && t.mark.toNat / 2 ^ 16 = p.mark.toNat / 2 ^ 16 then
        { t with dests := t.dests.map (fun d => if d.peer = p.src then f d else d) } else t) }

/-- A packet that answers a transfer, by the attempt it carries (R471). -/
def State.byAttempt (s : State) (p : Packet) (f : State) : Option State :=
  if !p.mark.toNat.testBit 1 then some f
  else match s.pkAge p with
    | .newer => none
    | .older => some s
    | .same => some f

/-- An acknowledgement (R479). -/
def State.serveVnAck (s : State) (p : Packet) : Option State :=
  s.byAttempt p (s.onDest p (fun d => { d with ack := max d.ack (p.sub.toNat + 1) }))

/-- A cancel lowers a destination's limit (R479, R480); one that refuses an access is reported (R441, R382). -/
def State.serveVnCancel (s : State) (p : Packet) : Option State :=
  let why := p.sub.toNat / 64
  let s' :=
    if why = 0 then s
    else match s.sendOf p with
      | none => s
      | some x =>
        let t : Trap := if why = 1 then ⟨.accessFault, 0, p.addr.zeroExtend 64⟩ else ⟨.capabilityFault, 3, p.addr.zeroExtend 64⟩
        let (s, x) := s.sendFault x t
        x.setIn s
  s.byAttempt p (s'.onDest p (fun d => { d with lim := min d.lim (p.sub.toNat % 64) }))

/-- VENEER_CANCEL_ARRIVAL (R479). -/
def execVeneerCancelArrival (pk : Packet) (s : State) : Host.Outcome State Fault Refusal :=
  .next (s.takePacket pk [0x14] State.serveVnCancel)

/-- VENEER_ACK_ARRIVAL (R479). -/
def execVeneerAckArrival (pk : Packet) (s : State) : Host.Outcome State Fault Refusal :=
  .next (s.takePacket pk [0x15] State.serveVnAck)

end Sys2Proof.Machine
end

