-- ==== Sys2Proof/Machine/Collectives.lean ====
section
/-! DEFINITION. Collectives (20 R461 to R473, R481, 22 R510). Data go from each member straight to those that need them; the
reduction order alone fixes the values (R469). A data packet (OP 0x10) holds the fields of R466 in its first flit and up to 224
bytes; a control packet (OP 0x11) has SUB 1 for the fields alone and SUB 2 for a fault; ADDR is SEQ; `mark` [1] says that an attempt is
carried, [19:16] the group, and for a plane [63:32] the tile (the model's layout, log entry 20). -/
namespace Sys2Proof.Machine

/-! ## The parameter block (R463) -/

/-- Bits [lo, lo + w) of the byte at offset `o`. -/
def pbAt (b : BitVec 1024) (o lo w : Nat) : Nat := nb b.toNat (8 * o + lo) w
def pbOp (b : BitVec 1024) : Nat := pbAt b 0x20 0 8
def pbRed (b : BitVec 1024) : Nat := pbAt b 0x21 4 4
def pbType (b : BitVec 1024) : Nat := pbAt b 0x21 0 4
def pbAlg (b : BitVec 1024) : Nat := pbAt b 0x22 4 4
def pbGrp (b : BitVec 1024) : Nat := pbAt b 0x22 0 4
def pbTrv (b : BitVec 1024) : Bool := pbAt b 0x23 5 1 == 1
def pbRcv (b : BitVec 1024) : Bool := pbAt b 0x23 4 1 == 1
def pbSnd (b : BitVec 1024) : Bool := pbAt b 0x23 3 1 == 1
def pbOveto (b : BitVec 1024) : Bool := pbAt b 0x23 2 1 == 1
def pbVn (b : BitVec 1024) : Bool := pbAt b 0x23 1 1 == 1
def pbAcc32 (b : BitVec 1024) : Bool := pbAt b 0x23 0 1 == 1
def pbCount (b : BitVec 1024) : Nat := pbAt b 0x24 0 32
def pbSeq (b : BitVec 1024) : W32 := BitVec.ofNat 32 (pbAt b 0x28 0 32)
def pbRoot (b : BitVec 1024) : Nat := pbAt b 0x2C 0 16
def pbDpeer (b : BitVec 1024) : Nat := pbAt b 0x2E 0 16
def pbDone (b : BitVec 1024) : Nat := pbAt b 0x30 0 16
def pbChg (b : BitVec 1024) : Nat := pbAt b 0x32 0 16
def pbTrg (b : BitVec 1024) : Nat := pbAt b 0x34 0 16
def pbChk (b : BitVec 1024) : Nat := pbAt b 0x36 0 8
def pbVnk (b : BitVec 1024) : Nat := pbAt b 0x37 0 8
def pbTrb (b : BitVec 1024) : W32 := BitVec.ofNat 32 (pbAt b 0x38 0 32)

/-- A reduction. -/
def pbReduces (b : BitVec 1024) : Bool := pbOp b == 3 || pbOp b == 4

/-- Bytes of an element (R464). -/
def pbElem (b : BitVec 1024) : Nat := match pbType b with
  | 0 => 4
  | 1 => 2
  | 2 => 2
  | 3 => 4
  | _ => 1

/-- Bytes of a contribution: COUNT elements. -/
def pbBlock (b : BitVec 1024) : Nat := pbCount b * pbElem b

/-- FP of the tiles, and their number. -/
def pbFp (b : BitVec 1024) : Bool := pbType b == 0
def pbTiles (b : BitVec 1024) : Nat := pbCount b / 2048

/-- A gauge field is well formed (R463; a cluster gauge that is used is below 64). -/
def gaugeFieldOk (f : Nat) : Bool := f / 1024 == 0 && (nb f 9 1 == 0 || nb f 8 1 == 1 || decide (f % 256 < 64))

/-- First check of R465. -/
def pbOk (b : BitVec 1024) : Bool :=
  let red := pbReduces b
  let vn := pbVn b
  decide (1 ≤ pbOp b) && decide (pbOp b ≤ 6) && (!red || decide (pbRed b ≤ 2)) && decide (pbType b ≤ 4) && decide (pbAlg b ≤ 3) &&
  pbAt b 0x23 6 2 == 0 && decide (pbCount b ≤ 2 ^ 28) && !(red && pbType b == 4) &&
  gaugeFieldOk (pbDone b) && gaugeFieldOk (pbChg b) && gaugeFieldOk (pbTrg b) && (!pbTrv b || nb (pbTrg b) 9 1 == 1) &&
  decide (12 ≤ pbChk b) && decide (pbChk b ≤ 20) && pbAt b 0x3C 0 544 == 0 &&
  (pbVnk b == 0 || (decide (10 ≤ pbVnk b) && decide (pbVnk b ≤ vnP (pbFp b)))) &&
  (!vn || ([1, 2, 4, 5].contains (pbOp b) && decide (pbType b ≤ 1) && pbCount b % 2048 == 0))

/-! ## Groups (R461) -/

def grpNm (g : W64) : Nat := bitsOf g 48 13
def grpStr (g : W64) : Nat := bitsOf g 36 12
def grpBase (g : W64) : Nat := bitsOf g 24 12

/-- Peer number of a rank, before substitution. -/
def grpPeer (g : W64) (i : Nat) : Nat := grpBase g + grpStr g * i

/-- A group whose members have peer numbers. -/
def grpValid (g : W64) : Bool :=
  decide (1 ≤ grpNm g) && decide (1 ≤ grpStr g) && decide (grpNm g ≤ 4096) && decide (grpPeer g (grpNm g - 1) < 4096)

/-- The device that is rank `i` (21 R505: a spare answers to the rank it replaced). -/
def State.rankPeer (s : State) (g : W64) (i : Nat) : BitVec 12 := s.standIn (BitVec.ofNat 12 (grpPeer g i))

/-- This device's rank. -/
def State.rankHere (s : State) (g : W64) : Option Nat := (List.range (grpNm g)).find? (fun i => s.rankPeer g i == s.peer)

/-- The algorithm (R470): 1 ring, 2 tree, 3 dragonfly. -/
def resolveAlg (g : W64) (b : BitVec 1024) : Nat :=
  if pbAlg b ≠ 0 then pbAlg b
  else if grpPeer g 0 / 32 ≠ grpPeer g (grpNm g - 1) / 32 then 3
  else if 2 ^ 20 ≤ grpNm g * pbBlock b then 1 else 2

/-! ## Buffers (R464) -/

/-- Bytes of SRC that rank `r` reads, and of DST that it writes. -/
def srcLen (b : BitVec 1024) (n r : Nat) : Nat :=
  match pbOp b with
  | 1 => if r = pbRoot b then pbBlock b else 0
  | 3 => n * pbBlock b
  | 5 => if pbSnd b then pbBlock b else 0
  | 6 => n * pbBlock b
  | _ => pbBlock b

def dstLen (b : BitVec 1024) (n : Nat) : Nat :=
  match pbOp b with
  | 2 => n * pbBlock b
  | 5 => if pbRcv b then pbBlock b else 0
  | 6 => n * pbBlock b
  | _ => pbBlock b

def Coll.n (x : Coll) : Nat := grpNm x.grp
def Coll.ctx (x : Coll) : Ctx := x.op.ctx

/-- Authority of a buffer: through its handle, or its capability. -/
def bufRight (c : Cap) (h : Option Tensor) : Right :=
  match h with
  | some t => ⟨0, c.has pRm, t.ver⟩
  | none => rightOf c

/-- Space in which a buffer lies. -/
def bufSpace (c : Cap) : Nat := if c.spc = 4 then 0 else c.spc

/-- A buffer passes check 3: tag, `en`, `l` or `s`, length, alignment; a handle is a plain vector (R464), named by a cursor within the
capability's bounds and below 4,096 (16 R378). -/
def bufOk (c : Cap) (h : Option Tensor) (prm len al : Nat) : Bool :=
  c.tag && c.has pEn && c.has prm &&
  (match c.spc, h with
    | 4, some t => decide (c.bounds.1 ≤ c.cur) && decide (c.cur < c.bounds.2) && decide (c.cur < 4096) && t.lay == 0 && t.rank == 1 && t.strides.getD 0 0 == 1 && (prm == pL || t.wr) &&
        decide (8 * len ≤ t.dims.getD 0 0 * fmtBits t.fmt) && t.base.toNat % al == 0
    | 4, none => false
    | sp, _ => decide (sp < 2) && decide (c.bounds.1 ≤ c.cur) && decide (c.cur + len ≤ c.bounds.2) && c.cur % al == 0)

/-- SRC and DST may be identical for a broadcast and an all-reduce, and overlap in no other way. -/
def bufsApart (b : BitVec 1024) (src dst : Cap) (hs hd : Option Tensor) (ls ld : Nat) : Bool :=
  let a := bufBase src hs
  let d := bufBase dst hd
  bufSpace src != bufSpace dst || ls == 0 || ld == 0 || decide (a + ls ≤ d) || decide (d + ld ≤ a) ||
  ((pbOp b == 1 || pbOp b == 4) && a == d)

/-! ## Gauges -/

/-- Add to the gauge that a field names, for the core that issued the operation (R463). -/
def State.addField (s : State) (core f x : Nat) : State :=
  if nb f 9 1 = 0 then s
  else s.at core (fun s => s.addGauge ⟨nb f 8 1 == 1, BitVec.ofNat 8 f⟩ x)

/-- Value of the trigger gauge. -/
def State.fieldGauge (s : State) (core f : Nat) : W32 :=
  Map.get 0 s.shr.gauge (if nb f 8 1 = 1 then 65536 + f % 256 else cluOf core * 64 + f % 64)

/-! ## Ends (R467, R472) -/

/-- A transfer that will not go on: its open entry is as good as cut (log entry 55), and what it had on the way counts for nothing. -/
def VnEnt.over (e : VnEnt) : VnEnt := { e with st := if e.st = .open_ then .cut else e.st, cur := none, acks := [] }

def State.dropColl (s : State) (id : Nat) : State :=
  s.setFab { s.fab with colls := s.fab.colls.filter (fun x => x.id != id), sends := s.fab.sends.filter (fun x => x.coll != some id),
                        vns := s.fab.vns.map (fun e => if e.coll = some id then e.over else e) }

def Coll.setIn (x : Coll) (s : State) : State :=
  s.setFab { s.fab with colls := s.fab.colls.map (fun y => if y.id == x.id then x else y) }

/-- ADDR of a collective's packets, and their mark: group, and tile of a plane. -/
def collAddr (b : BitVec 1024) : BitVec 57 := (pbSeq b).zeroExtend 57
def collMark (b : BitVec 1024) (tile : Nat) : BitVec 64 := BitVec.ofNat 64 (tile * 2 ^ 32 + pbGrp b * 2 ^ 16)

/-- A packet of this collective for a rank. -/
def Coll.packet (x : Coll) (s : State) (rank : Nat) : Packet :=
  { pkZero with dst := s.rankPeer x.grp rank, vc := vcVen, ctx := x.ctx, att := x.op.att, addr := collAddr x.blk,
                mark := collMark x.blk 0 + (if x.op.stepOpen then 2 else 0) }

/-- The trap of a fault code (R473). -/
def collTrap (o : Op) (code : Nat) (t : Option Trap) : Trap :=
  match code, t with
  | 6, some t => t
  | _, _ => ⟨.engineOperandFault, BitVec.ofNat 16 (engIdx .vc), BitVec.ofNat 64 (o.capAt 0).cur⟩

/-- What every faulted end does on this device: COLLST, DONE, STEPVF, the report (R472). -/
def State.collFaulted (s : State) (o : Op) (blk : Option (BitVec 1024)) (code : Nat) (t : Option Trap) : State :=
  let s := s.setFab { s.fab with cflt := s.fab.cflt + 1, clcode := BitVec.ofNat 8 code,
                                 clgrp := BitVec.ofNat 4 ((blk.map pbGrp).getD s.fab.clgrp.toNat) }
  let s := match blk with
    | none => s
    | some b =>
      let f := pbDone b
      let s := if nb f 9 1 = 1 && nb f 8 1 = 1 then s.setGaugeErr (f % 256) true else s
      s.addField o.core f 1
  let s := if o.stepOpen && (s.ctx o.ctx).step.open_ && (s.ctx o.ctx).step.t = o.att then s.veto o.ctx vFault else s
  s.reportOp o.li o.pid (collTrap o code t)

/-- A collective that had started ends with a fault: the other members are told (R472). -/
def State.collFault (s : State) (x : Coll) (code : Nat) (t : Option Trap := none) : State :=
  let s := s.dropColl x.id
  let s := (List.range x.n).foldl (fun s i =>
    if i = x.rank then s else s.send { x.packet s i with op := 0x11, sub := 2 }) s
  s.collFaulted x.op (some x.blk) code t

/-! ## Reduction (R469) -/

/-- A value on its way through a reduction, with the flags met. -/
abbrev RedVal := Nat × Fl

def redFmt (b : BitVec 1024) : Fmt := if pbType b = 0 then f32 else if pbType b = 1 then bf16 else f16
def redWide (b : BitVec 1024) : Bool := pbAcc32 b && (pbType b == 1 || pbType b == 2) && pbRed b == 0

/-- A contribution as it enters: widened to FP32 with ACC32. -/
def redIn (b : BitVec 1024) (x : Nat) : RedVal := (if redWide b then (rne f32 (decodeF (redFmt b) x)).1 else x, {})

/-- One operation. -/
def redOp (b : BitVec 1024) (x y : RedVal) : RedVal :=
  let f := if redWide b then f32 else redFmt b
  let (v, fl) : RedVal :=
    if pbType b = 3 then
      match pbRed b with
      | 0 => ((x.1 + y.1) % 2 ^ 32, {})
      | 1 => (if bitsInt 32 true x.1 ≤ bitsInt 32 true y.1 then x.1 else y.1, {})
      | _ => (if bitsInt 32 true y.1 ≤ bitsInt 32 true x.1 then x.1 else y.1, {})
    else match pbRed b with
      | 0 => flAdd f x.1 y.1
      | 1 => flMin f x.1 y.1
      | _ => flMax f x.1 y.1
  (v, (x.2.or y.2).or fl)

/-- The result: rounded once to the type with ACC32; a NaN is the canonical one, also that of a group of one. -/
def redOut (b : BitVec 1024) (x : RedVal) : RedVal :=
  if redWide b then
    let (v, fl) := rne (redFmt b) (decodeF f32 x.1)
    (v, x.2.or fl)
  else if pbType b ≠ 3 && (decodeF (redFmt b) x.1).isNan then ((redFmt b).qnan, x.2)
  else x

/-- `red(a, L)` of the tree. Fuel bounds the depth. -/
def redTree (op : RedVal → RedVal → RedVal) (x : Nat → RedVal) : Nat → Nat → Nat → RedVal
  | 0, a, _ => x a
  | fuel + 1, a, l =>
    if l ≤ 1 then x a
    else
      let h := 2 ^ Nat.log2 (l - 1)
      op (redTree op x fuel a h) (redTree op x fuel (a + h) (l - h))

/-- Left fold of a nonempty list. -/
def redFold (op : RedVal → RedVal → RedVal) : List RedVal → RedVal
  | [] => (0, {})
  | x :: r => r.foldl op x

/-- Ring: chunk `c`, from its next rank on. -/
def redRing (op : RedVal → RedVal → RedVal) (x : Nat → RedVal) (n c : Nat) : RedVal :=
  redFold op ((List.range n).map (fun k => x ((c + 1 + k) % n)))

/-- Dragonfly: fabric groups in order of their lowest rank. -/
def redDfly (op : RedVal → RedVal → RedVal) (x : Nat → RedVal) (g : W64) (n : Nat) : RedVal :=
  let groups := ((List.range n).map (fun i => grpPeer g i / 32)).eraseDups
  redFold op (groups.map (fun q => redFold op (((List.range n).filter (fun i => grpPeer g i / 32 == q)).map x)))

/-- The ring chunk that holds DST element `j` (R469). -/
def Coll.ringChunk (x : Coll) (j : Nat) : Nat :=
  let n := x.n
  if pbOp x.blk = 3 then x.rank
  else
    let (tot, i) := if pbVn x.blk then (pbTiles x.blk, j / 2048) else (pbCount x.blk, j)
    ((List.range n).find? (fun c => decide (c * tot / n ≤ i) && decide (i < (c + 1) * tot / n))).getD 0

/-- A byte of what a rank contributes to this member. -/
def Coll.byte (x : Coll) (rank off : Nat) : Option (Byte × Bool) :=
  x.recv.findSome? (fun c =>
    if c.rank = rank && decide (c.off ≤ off) && decide (off < c.off + c.bs.length) then
      some (c.bs.getD (off - c.off) 0, c.p.getD (off - c.off) false) else none)

/-- An element contributed by a rank. -/
def Coll.elem (x : Coll) (rank j : Nat) : Option (Nat × Bool) :=
  let e := pbElem x.blk
  let l := (List.range e).filterMap (fun i => x.byte rank (j * e + i))
  if l.length = e then some (natLE (l.map Prod.fst), l.any Prod.snd) else none

/-- DST element `j` of a reduction, once every contribution is here. -/
def Coll.reduced (x : Coll) (j : Nat) : Option (RedVal × Bool) :=
  let n := x.n
  let l := (List.range n).filterMap (fun i => x.elem i j)
  if l.length ≠ n then none
  else
    let v (i : Nat) : RedVal := redIn x.blk (l.getD i (0, false)).1
    let op := redOp x.blk
    let r := match x.alg with
      | 1 => redRing op v n (x.ringChunk j)
      | 2 => redTree op v 13 0 n
      | _ => redDfly op v x.grp n
    some (redOut x.blk r, l.any Prod.snd)

/-! ## Values of DST -/

/-- Rank that DST byte `i` comes from, for an operation that moves data. -/
def Coll.origin (x : Coll) (i : Nat) : Nat :=
  match pbOp x.blk with
  | 1 => pbRoot x.blk
  | 5 => pbRoot x.blk
  | _ => i / pbBlock x.blk

/-- DST byte `i`, its poison, and the flags of its element. -/
def Coll.dstByte (x : Coll) (i : Nat) : Option (Byte × Bool × Fl) :=
  if pbReduces x.blk then
    let e := pbElem x.blk
    (x.reduced (i / e)).map (fun r => (byteOf r.1.1 (i % e), r.2, r.1.2))
  else (x.byte (x.origin i) (i % pbBlock x.blk)).map (fun b => (b.1, b.2, {}))

/-- An overflow or an invalid event met with OVETO, in an attempt that is open (R469). -/
def State.collFlags (s : State) (x : Coll) (fl : Fl) : State :=
  if pbOveto x.blk && (fl.nv || fl.ov) && x.op.stepOpen && (s.ctx x.ctx).step.open_ && (s.ctx x.ctx).step.t = x.op.att then
    s.veto x.ctx vOvf else s

/-! ## Writing DST (R468) -/

def Coll.dright (x : Coll) : Right := bufRight x.dst x.hd
def Coll.dlen (x : Coll) : Nat := dstLen x.blk x.n

/-- Outcome of a step of a collective: it goes on, or has ended by a fault. -/
abbrev CollRun := State × Option Coll

/-- Bytes of DST in sector `sec` (its number is its address over 32). -/
def Coll.inSector (x : Coll) (sec : Nat) : Nat := min (x.dbase + x.dlen) (32 * sec + 32) - max x.dbase (32 * sec)

/-- Write a DST sector whose bytes are all known. One on another peer has performed when its home has answered. -/
def State.collSector (s : State) (x : Coll) (sec : Nat) : CollRun :=
  let b0 := x.dbase
  let bytes := (List.range 32).map (fun i =>
    let a := 32 * sec + i
    if a < b0 || b0 + x.dlen ≤ a then none else some (x.dstByte (a - b0)))
  if bytes.any (fun b => b == some none) then (s, some x)
  else
    let got := bytes.map (fun b => match b with
      | some (some v) => some v
      | _ => none)
    let vals := got.filterMap id
    match s.unitSpot x.dright x.op.auth (max b0 (32 * sec)) true with
    | .error (.trap t) => (s.collFault x 6 (some t), none)
    | .error _ => (s, some x)
    | .ok sp =>
      let s := s.collFlags x (vals.foldl (fun f v => f.or v.2.2) {})
      let (sp, far) : Spot × Option Nat := match sp with
        | .key k v => (.key (k - k % 32) v, none)
        | .far pa => (.far (pa - pa % 32), some (pa / 32))
      let (s, put) := s.engPut x.dright x.op.auth (.sector (whoColl x.id) (far.getD 0)) sp (32 * sec)
        (got.map (fun v => v.map (fun v => (v.1, 0xFF)))) (vals.any (fun v => v.2.1)) x.conflict
      let s := if put = .landed then s.addField x.op.core (pbChg x.blk) vals.length else s
      let x := match far with
        | some n => { x with acks := x.acks ++ [(n, sec)] }
        | none => { x with done := sec :: x.done, conflict := x.conflict || put == .discarded }
      (x.setIn s, some x)

/-- A sector of DST that has been written, or is on its way to its home. -/
def Coll.written (x : Coll) (sec : Nat) : Bool := x.done.contains sec || x.acks.any (fun e => e.2 == sec)

/-- Write every DST sector that is known and not yet written; the sectors of a line in ascending order (14 R365). -/
def State.collSectors (s : State) (x : Coll) : CollRun :=
  (sectorBases x.dbase x.dlen).foldl (fun (q : CollRun) b =>
    match q.2 with
    | none => q
    | some x =>
      let sec := b / 32
      let before := (List.range (sec % 4)).map (fun i => sec - sec % 4 + i)
      if x.written sec || before.any (fun n => decide (x.dbase / 32 ≤ n) && !x.written n) then q else q.1.collSector x sec) (s, some x)

/-! ## Tiles that this member sends as planes (R481) -/

/-- The rank that sends a tile in the gather phase of an all-reduce. -/
def Coll.tileOwner (x : Coll) (t : Nat) : Nat := if x.alg = 1 then x.ringChunk (2048 * t) else 0

/-- Tiles this member sends: the number in the receiver's DST. -/
def Coll.tilesOut (x : Coll) : List Nat :=
  let nt := pbTiles x.blk
  if !pbVn x.blk then []
  else match pbOp x.blk with
    | 1 => if x.rank = pbRoot x.blk then List.range nt else []
    | 2 => (List.range nt).map (x.rank * nt + ·)
    | 4 => (List.range nt).filter (fun t => x.tileOwner t == x.rank)
    | _ => if pbSnd x.blk then List.range nt else []

/-- Ranks that take this member's tiles, other than itself. -/
def Coll.tileRanks (x : Coll) : List Nat :=
  if pbOp x.blk = 5 then [pbDpeer x.blk].filter (· != x.rank) else (List.range x.n).filter (· != x.rank)

/-- Its tiles are also part of its own DST. -/
def Coll.tileOwn (x : Coll) : Bool := pbOp x.blk != 5 || (pbDpeer x.blk == x.rank && pbRcv x.blk)

/-- Content of an outgoing tile: elements, poison, flags. -/
def Coll.tileData (x : Coll) (t : Nat) : Option (List Nat × Bool × Fl) :=
  let j0 := 2048 * (if pbOp x.blk = 2 then t - x.rank * pbTiles x.blk else t)
  let l := (List.range 2048).filterMap (fun j =>
    if pbOp x.blk = 4 then x.reduced (j0 + j) else (x.elem x.rank (j0 + j)).map (fun e => ((e.1, {}), e.2)))
  if l.length ≠ 2048 then none
  else some (l.map (fun e => vnCanon (pbFp x.blk) e.1.1), l.any Prod.snd, l.foldl (fun f e => f.or e.1.2) {})

/-- Depth at which an own tile is written: full, or VNK (R481). -/
def Coll.ownDepth (x : Coll) : Nat := if pbVnk x.blk = 0 then vnP (pbFp x.blk) else pbVnk x.blk

/-- An own tile has performed: it counts as the planes of its depth (R481). -/
def State.ownLanded (s : State) (x : Coll) : State := (s.addField x.op.core (pbChg x.blk) x.ownDepth).countPlane x.ctx x.ownDepth

/-- Write an own tile into DST. One on another peer has performed when its home has answered. -/
def State.collOwnTile (s : State) (x : Coll) (t : Nat) (els : List Nat) (p : Bool) : CollRun :=
  let fp := pbFp x.blk
  let a := x.dbase + t * tileBytes fp
  let write (s : State) (tile : Nat) : State × Bool :=
    s.tileWrite tile fp x.dright x.op.auth p (fun j => (vnAt fp x.ownDepth (els.getD j 0), 2 ^ vnP fp - 1)) (whoColl x.id)
  match s.unitSpot x.dright x.op.auth a true with
  | .error (.trap tr) => (s.collFault x 6 (some tr), none)
  | .error _ => (s, some x)
  | .ok (.far pa) =>
    let x := { x with acks := x.acks ++ (List.range (tileBytes fp / 32)).map (fun i => (pa / 32 + i, a / 32 + i)) }
    (x.setIn (write s (2 ^ 58 + pa)).1, some x)
  | .ok (.key k _) =>
    let (s, c) := write s k
    let x := { (x.tileOver fp a) with conflict := x.conflict || c }
    (x.setIn (s.ownLanded x), some x)

/-- Begin to send the tiles that are complete here and have not begun, in ascending order (R475). -/
def State.collTiles (s : State) (x : Coll) : CollRun :=
  let ready := (x.tilesOut.filter (fun t => !x.ownTiles.contains t)).takeWhile (fun t => (x.tileData t).isSome)
  ready.foldl (fun (q : CollRun) t =>
    match q.2, x.tileData t with
    | some x, some (els, p, fl) =>
      let s := q.1.collFlags x fl
      let x := { x with ownTiles := t :: x.ownTiles }
      let tile : VnTile := ⟨t, collAddr x.blk, collMark x.blk t, els, p, 0, x.tileRanks.map (fun i => ⟨s.rankPeer x.grp i, vnP (pbFp x.blk), 0⟩)⟩
      let s := match s.fab.sends.find? (fun y => y.coll == some x.id) with
        | some y => s.settleSend { y with tiles := y.tiles ++ [tile] }
        | none => s
      if x.tileOwn then (x.setIn s).collOwnTile x t els p else (x.setIn s, some x)
    | _, _ => q) (s, some x)

/-- Write and send all that can be written and sent now. -/
def State.collAdvance (s : State) (x : Coll) : State :=
  if pbVn x.blk then ((x.setIn s).collTiles x).1 else ((x.setIn s).collSectors x).1

def State.collById (s : State) (id : Nat) : Option Coll := s.fab.colls.find? (fun x => x.id == id)

/-- Change a collective that may be active. -/
def State.onColl (s : State) (id : Nat) (f : Coll → Coll) : State :=
  s.setFab { s.fab with colls := s.fab.colls.map (fun y => if y.id == id then f y else y) }

/-- A collective that may be active goes on. -/
def State.collGoesOn (s : State) (id : Nat) : State :=
  match s.collById id with
  | some x => s.collAdvance x
  | none => s

/-! ## What other peers answer to writes into DST -/

/-- A home has written a sector of DST: the sector lands, or with it a tile of this member's own. -/
def State.ownAnswer (s : State) (x : Coll) (sec : Nat) : State :=
  match x.acks.find? (fun e => e.1 == sec) with
  | none => s
  | some e =>
    let y := { x with acks := x.acks.erase e, done := e.2 :: x.done }
    let t := tileBytes (pbFp x.blk) / 32
    let tile (n : Nat) : Nat := (n - x.dbase / 32) / t
    let s := y.setIn s
    if !pbVn x.blk then s.addField x.op.core (pbChg x.blk) (x.inSector e.2)
    else if y.acks.any (fun f => tile f.2 == tile e.2) then s
    else s.ownLanded x

/-- A home has written a sector of a plane: the plane lands with its last sector. -/
def State.planeAnswer (s : State) (x : Coll) (sec : Nat) : State :=
  match s.fab.vns.find? (fun e => e.coll == some x.id && e.acks.contains sec) with
  | none => s
  | some e =>
    let e := { e with acks := e.acks.erase sec }
    match e.acks, e.cur with
    | [], some p => (s.vnLanded e p).addField x.op.core (pbChg x.blk) 1
    | _, _ => s.vnPut e

/-- What homes have answered to the writes of a collective; one that is refused or has no answer ends it with code 6 (R473). -/
def State.collAnswers (s : State) (id : Nat) : State :=
  let mine := s.fab.got.filter (fun g => g.who == whoColl id)
  if mine.isEmpty then s
  else
    let s := s.dropGot (whoColl id)
    match s.collById id, mine.find? (fun g => g.fault.isSome) with
    | none, _ => s
    | some x, some g => s.collFault x 6 g.fault
    | _, none => (mine.foldl (fun s g => match s.collById id with
        | some x => (s.ownAnswer x g.sec).planeAnswer x g.sec
        | none => s) s).collGoesOn id

/-! ## Reading SRC and sending data (R467) -/

/-- Fields of R466 as the first flit: SEQ, group, OP, RED and TYPE, algorithm and VN, COUNT, rank, ROOT, VNK, length, offset. -/
def Coll.fields (x : Coll) (n off : Nat) : BitVec 256 :=
  let b := x.blk
  BitVec.ofNat 256 ((pbSeq b).toNat + pbGrp b * 2 ^ 32 + pbOp b * 2 ^ 40 + pbType b * 2 ^ 48 + pbRed b * 2 ^ 52 + x.alg * 2 ^ 56 +
    (pbVn b).toNat * 2 ^ 60 + pbCount b * 2 ^ 64 + x.rank * 2 ^ 96 + pbRoot b * 2 ^ 112 + pbVnk b * 2 ^ 128 + n * 2 ^ 136 +
    off * 2 ^ 160)

/-- The part of the fields that must agree (R466): all but rank, ROOT of anything other than a broadcast, length, offset. -/
def fieldsKey (f : BitVec 256) : Nat × Nat × Nat :=
  let n := f.toNat
  (nb n 0 96, nb n 128 8, if nb n 40 8 = 1 then nb n 112 16 else 0)

/-- Where SRC bytes from `off` on go: ranks, the offset there, and how many bytes go together. -/
def Coll.route (x : Coll) (off : Nat) : List Nat × Nat × Nat :=
  let b := x.blk
  let blk := pbBlock b
  let others := (List.range x.n).filter (· != x.rank)
  match pbOp b with
  | 3 => ([off / blk], off % blk, blk - off % blk)
  | 6 => ([off / blk], off % blk, blk - off % blk)
  | 5 => ([pbDpeer b], off, blk)
  | 4 => if pbVn b then
      let t := tileBytes (pbFp b)
      ([x.tileOwner (off / t)], off, t - off % t)
    else (x.rank :: others, off, blk)
  | _ => (x.rank :: others, off, blk)

/-- One more packet that a rank has not acknowledged, or one fewer. -/
def Coll.count (x : Coll) (rank : Nat) (up : Bool) : Coll :=
  let n := ((x.unacked.find? (fun e => e.1 == rank)).map Prod.snd).getD 0
  let n' := if up then n + 1 else n - 1
  { x with unacked := (x.unacked.filter (fun e => e.1 != rank)) ++ (if n' = 0 then [] else [(rank, n')]) }

/-- Send bytes to a rank, or keep them here. Planes carry them where VN says so. -/
def State.collSend (s : State) (x : Coll) (rank off : Nat) (bs : Bytes) (bad : List Bool) : State × Coll :=
  let planes := pbVn x.blk && pbOp x.blk != 4
  if rank = x.rank || planes then
    let c : Contrib := ⟨x.rank, off, bs, bad⟩
    (s, if x.recv.contains c then x else { x with recv := c :: x.recv })
  else
    let pois := (List.range 7).foldl (fun n i => n + (if ((bad.drop (32 * i)).take 32).any id then 2 ^ (i + 1) else 0)) 0
    (s.send { x.packet s rank with op := 0x10, pois := BitVec.ofNat 8 pois, data := x.fields bs.length off :: flitsOf 7 bs },
      x.count rank true)

/-- Send the bytes of a chunk, cut where they go apart and into packets of 224 bytes. Fuel bounds the pieces. -/
def State.collPieces (x0 : Coll) : Nat → State → Coll → Nat → Bytes → List Bool → State × Coll
  | 0, s, x, _, _, _ => (s, x)
  | fuel + 1, s, x, off, bs, bad =>
    if bs.isEmpty then (s, x)
    else
      let (ranks, at_, run) := x0.route off
      let m := min 224 run
      let (s, x) := ranks.foldl (fun (q : State × Coll) r => q.1.collSend q.2 r at_ (bs.take m) (bad.take m)) (s, x)
      State.collPieces x0 fuel s x (off + m) (bs.drop m) (bad.drop m)

def Coll.slen (x : Coll) : Nat := srcLen x.blk x.n x.rank
def Coll.chunks (x : Coll) : Nat := cdiv x.slen (2 ^ pbChk x.blk)

/-- The next chunk may be read (R467). -/
def State.collMayRead (s : State) (x : Coll) : Bool :=
  decide (x.read < x.chunks) &&
  (!pbTrv x.blk || reached (s.fieldGauge x.op.core (pbTrg x.blk))
    (pbTrb x.blk + BitVec.ofNat 32 ((x.read + 1) * 2 ^ pbChk x.blk)))

/-- Where the reads of chunk `k` begin: a sector that two chunks share is read once, with the later one. -/
def Coll.cutAt (x : Coll) (k : Nat) : Nat :=
  let b := bufBase x.src x.hs
  if k = x.chunks then x.slen else (b + k * 2 ^ pbChk x.blk) / 32 * 32 - b

/-- COLLECTIVE_CHUNK_READ (R467). -/
def execCollectiveChunkRead (id : Nat) (s : State) : Host.Outcome State Fault Refusal :=
  .next (match s.collById id with
    | none => s
    | some x =>
      if !s.collMayRead x then s
      else
        let off := x.cutAt x.read
        let n := x.cutAt (x.read + 1) - off
        match s.unitRead (bufRight x.src x.hs) x.op.auth (bufBase x.src x.hs + off) n (whoOp x.op) with
        | .error (.trap t) => (s.dropGot (whoOp x.op)).collFault x 6 (some t)
        | .error e => s.unitWaits x.op.auth e
        | .ok (bs, bad) =>
          let (s, x') := State.collPieces x (n + 1) (s.dropGot (whoOp x.op)) { x with read := x.read + 1, last := s.cyc } off bs bad
          s.collAdvance x')

/-! ## Starting (R465) -/

/-- The parameter block that a `coll` names, with the tags of SRC and DST (R465). -/
def State.readBlock (s : State) (o : Op) : Chk Blk := do
  let pb := o.capAt 0
  let (bs, bad) ← s.unitRead (rightOf pb) o.auth pb.cur 128 (whoOp o)
  .ok ⟨BitVec.ofNat 1024 (natLE bs), s.unitTag (rightOf pb) o.auth pb.cur (whoOp o), s.unitTag (rightOf pb) o.auth (pb.cur + 16) (whoOp o),
    bad.any id⟩

/-- The block as a stop fires its `coll`: what the engine finds then (R465), or nothing where it lies on a page in transit or on another peer,
of which it asks for it. -/
def State.blockAtFire (s : State) (o : Op) : State × Op :=
  match s.readBlock o with
  | .ok b => (s.dropGot (whoOp o), { o with blk := some (.inl b) })
  | .error (.trap t) => (s.dropGot (whoOp o), { o with blk := some (.inr t) })
  | .error _ =>
    let pb := o.capAt 0
    ((sectorBases pb.cur 128).foldl (fun s b => match s.unitSpot (rightOf pb) o.auth (max pb.cur b) false with
      | .ok (.far pa) => s.askFar (whoOp o) pa o.ctx o.li o.core
      | _ => s) s, o)

/-- The block of an operation that the engine takes. -/
def State.blockOf (s : State) (o : Op) : Chk Blk :=
  match o.blk with
  | some (.inl b) => .ok b
  | some (.inr t) => .error (.trap t)
  | none => s.readBlock o

/-- The checks of R465 in order: a fault code, or the collective. -/
def State.collCheck (s : State) (o : Op) (b : BitVec 1024) (ts td : Bool) : Except Nat Coll :=
  let src : Cap := ⟨ts, BitVec.ofNat 128 (pbAt b 0 0 128)⟩
  let dst : Cap := ⟨td, BitVec.ofNat 128 (pbAt b 0x10 0 128)⟩
  let g := s.gctx o.ctx
  let grp := Map.get 0 g.grp (pbGrp b)
  let h (c : Cap) : Option Tensor := if c.spc = 4 && decide (c.cur < 4096) then tensorOf (s.handle o.ctx (BitVec.ofNat 12 c.cur)) else none
  if !pbOk b then .error 1
  else if !grpValid grp then .error 2
  else match s.rankHere grp with
    | none => .error 2
    | some r =>
      let n := grpNm grp
      let al := if pbVn b then tileBytes (pbFp b) else pbElem b
      if !bufOk src (h src) pL (srcLen b n r) al || !bufOk dst (h dst) pS (dstLen b n) al || n ≤ pbRoot b || n ≤ pbDpeer b ||
          !bufsApart b src dst (h src) (h dst) (srcLen b n r) (dstLen b n) then .error 1
      else if pbSeq b ≠ Map.get 0 g.nseq (pbGrp b) then .error 3
      else .ok { id := s.nextId, op := o, blk := b, src := src, dst := dst, hs := h src, hd := h dst, grp := grp, rank := r,
                 alg := resolveAlg grp b, read := 0, recv := [], done := [], acks := [], ownTiles := [], unacked := [], last := s.cyc,
                 conflict := false }

/-- A collective whose checks have passed begins: NSEQ moves on; one with nothing to do ends at once. With VN the fields go
ahead of the planes. -/
def State.collBegin (s : State) (x : Coll) : State :=
  let b := x.blk
  let g := s.gctx x.ctx
  let s := s.setGctx x.ctx { g with nseq := Map.set 0 g.nseq (pbGrp b) (pbSeq b + 1) }
  let s := (s.setFab { s.fab with clalg := BitVec.ofNat 2 x.alg }).fresh
  if pbCount b = 0 || (pbOp b = 5 && !pbSnd b && !pbRcv b) then s.addField x.op.core (pbDone b) 1
  else
    let s := s.setFab { s.fab with colls := s.fab.colls ++ [x] }
    let n := x.tilesOut.length
    if n = 0 then s
    else
      let y : VnSend := { id := s.nextId, op := x.op, coll := some x.id, fp := pbFp b, n := n, read := 0, tiles := [], done := 0,
                          xfer := s.freeXfer, faulted := false }
      let s := (s.setFab { s.fab with sends := s.fab.sends ++ [y] }).fresh
      x.tileRanks.foldl (fun s i => s.send { x.packet s i with op := 0x11, sub := 1, data := [x.fields 0 0] }) s

/-- The engine takes a `coll` (R465), or must wait. It carries the attempt held now (R471); one that a stop fired carries the attempt held as
it fired (08 R268). A poisoned block is not used: its read fails (log entry 32). -/
def State.startColl (s : State) (o : Op) : Chk State :=
  let st := (s.ctx o.ctx).step
  let o := if o.stop then o else { o with att := st.t, stepOpen := st.open_ }
  if 64 ≤ s.fab.colls.length then .error .wait
  else match s.blockOf o with
    | .error (.trap t) => .ok ((s.dropGot (whoOp o)).collFaulted o none 6 (some t))
    | .error e => .error e
    | .ok b =>
      let s := s.dropGot (whoOp o)
      if b.bad then .ok (s.collFaulted o none 6 (some ⟨.accessFault, 0, BitVec.ofNat 64 (o.capAt 0).cur⟩))
      else .ok (match s.collCheck o b.bits b.ts b.td with
        | .error c => s.collFaulted o (some b.bits) c none
        | .ok x => s.collBegin x)

/-- COLLECTIVE_START (R465): the `coll` at the head of the VC queue of the core in focus. -/
def State.takeColl (s : State) (o : Op) : State :=
  match s.startColl o with
  | .error e => s.unitWaits o.auth e
  | .ok s => s.at o.core (fun s => s.setCore (s.core.takeOp o))

def execCollectiveStart (s : State) : Host.Outcome State Fault Refusal :=
  .next (match s.core.headOp .vc with
    | none => s
    | some o => if o.word.toNat / 256 = 0x70 && s.core.halt != .freeze then s.takeColl o else s)

/-! ## Packets (R466, R471, R510) -/

/-- SEQ and group of a packet. -/
def pkSeq (p : Packet) : W32 := BitVec.ofNat 32 p.addr.toNat
def pkGrp (p : Packet) : Nat := p.mark.toNat / 2 ^ 16 % 16

/-- The active collective of a packet. -/
def State.collOf (s : State) (p : Packet) : Option Coll :=
  s.fab.colls.find? (fun x => x.ctx == p.ctx && pbGrp x.blk == pkGrp p && pbSeq x.blk == pkSeq p)

/-- The collective of a packet has not started here: its SEQ is not behind NSEQ. -/
def State.collAhead (s : State) (p : Packet) : Bool :=
  decide ((pkSeq p - Map.get 0 (s.gctx p.ctx).nseq (pkGrp p)).toNat < 2 ^ 31)

/-- A packet's fields agree with this member's collective (R466). -/
def Coll.agrees (x : Coll) (f : BitVec 256) : Bool :=
  fieldsKey f == fieldsKey (x.fields 0 0) &&
  (pbOp x.blk != 5 || (pbRcv x.blk && pbRoot x.blk == nb f.toNat 96 16))

/-- Acknowledge a data packet. -/
def State.collAck (s : State) (p : Packet) : State :=
  s.send { pkZero with dst := p.src, vc := vcRsp, ctx := p.ctx, op := 0x12, addr := p.addr, mark := p.mark, att := p.att }

/-- Data or control reaches a member whose collective is active. -/
def State.collTake (s : State) (x : Coll) (p : Packet) : State :=
  let f := p.data.headD 0
  if p.op = 0x11 && p.sub = 2 then s.collFault x 7
  else if !x.agrees f then s.collFault x 4
  else
    let x := { x with last := s.cyc }
    if p.op = 0x11 then x.setIn s
    else
      let n := nb f.toNat 136 8
      let c : Contrib := ⟨nb f.toNat 96 16, nb f.toNat 160 64, ((pkBytes p).drop 32).take n,
        (List.range n).map (fun i => pkBad p (1 + i / 32))⟩
      (s.collAck p).collAdvance { x with recv := c :: x.recv }

/-- A collective packet by the attempt it carries (R471), then by whether its collective has started here (22 R510). -/
def State.serveColl (s : State) (p : Packet) : Option State :=
  let carried := p.mark.toNat.testBit 1
  if carried && s.pkAge p == .newer then none
  else if carried && s.pkAge p == .older then some s
  else match s.collOf p with
    | some x => some (s.collTake x p)
    | none => if s.collAhead p then none else some s

/-- COLLECTIVE_PACKET_ARRIVAL (R471, 22 R510). -/
def execCollectivePacketArrival (pk : Packet) (s : State) : Host.Outcome State Fault Refusal :=
  .next (s.takePacket pk [0x10, 0x11] State.serveColl)

/-- An acknowledgement of data (R467), of the attempt that the collective carries (R471). -/
def State.serveCollAck (s : State) (p : Packet) : Option State :=
  s.byAttempt p (match s.collOf p with
    | none => s
    | some x =>
      if x.op.stepOpen ≠ p.mark.toNat.testBit 1 || x.op.att ≠ p.att then s
      else match (List.range x.n).find? (fun i => s.rankPeer x.grp i == p.src) with
        | none => s
        | some i => Coll.setIn { x.count i false with last := s.cyc } s)

/-- COLLECTIVE_ACK_ARRIVAL (R467). -/
def execCollectiveAckArrival (pk : Packet) (s : State) : Host.Outcome State Fault Refusal :=
  .next (s.takePacket pk [0x12] State.serveCollAck)

/-- The transfer of a first plane was refused (R477): where it is a collective's, nothing of that tile is to come. -/
def State.tileRefused (s : State) (p : Packet) : State :=
  if p.mark.toNat.testBit 2 then
    match s.collOf p with
    | some x => (x.tileOver (pbFp x.blk) (x.markTile (pbFp x.blk) p.mark)).setIn s
    | none => s
  else s

/-- A plane that finds the entry open is a first plane of another transfer. -/
def State.planeRefused (s : State) (p : Packet) (tile : Nat) : Bool :=
  p.sub.toNat % 64 == 0 && (match s.vnFind tile with
    | some e => e.st == .open_
    | none => false)

/-- A plane of a collective (R474, R481): its tile in this member's DST. -/
def State.collPlane (s : State) (p : Packet) : Option State :=
  match s.collOf p with
  | none => if s.collAhead p then none else some s.vnDisc
  | some x =>
    let at_ (tile : Nat) : Option State :=
      (s.planeAt p tile x.dright x.op.auth (pbVnk x.blk) (some x.id)).map (fun q =>
        let u := if q.2 then q.1.addField x.op.core (pbChg x.blk) 1 else q.1
        let u := u.onColl x.id (fun y => { y with last := s.cyc })
        (if s.planeRefused p tile then u.tileRefused p else u).collGoesOn x.id)
    match s.unitSpot x.dright x.op.auth (x.markTile (pbFp x.blk) p.mark) true with
    | .error (.trap t) => some (s.collFault x 6 (some t))
    | .error _ => none
    | .ok (.far pa) => at_ (2 ^ 58 + pa)
    | .ok (.key k _) => at_ k

/-- A Veneer plane (R471, R476). -/
def State.servePlane (s : State) (p : Packet) : Option State := State.servePlaneWith State.collPlane s p

/-- VENEER_PLANE_ARRIVAL (R476). -/
def execVeneerPlaneArrival (pk : Packet) (s : State) : Host.Outcome State Fault Refusal :=
  .next (s.takePacket pk [0x13] State.servePlane)

/-- VENEER_FIRST_PLANE_TIMEOUT (R477): a first plane that has waited 2^22 cycles for an entry is refused. -/
def execVeneerFirstPlaneTimeout (pk : Packet) (s : State) : Host.Outcome State Fault Refusal :=
  .next (match s.fab.held.find? (fun e => e.pk == pk) with
    | none => s
    | some e =>
      if pk.op = 0x13 && pk.sub = 0 && decide (e.at_ + 2 ^ 22 ≤ s.cyc) && s.pkAge pk != .newer && s.vnRoom.isNone then
        let s := s.setFab { s.fab with held := s.fab.held.filter (fun x => x != e), vconf := s.fab.vconf + 1 }
        (s.vnCancel pk 0).tileRefused pk
      else s)

/-! ## Ends -/

/-- Every DST sector has performed, everything has been read and sent, and acknowledged or cancelled (R467). -/
def State.collDone (s : State) (x : Coll) : Bool :=
  x.read == x.chunks && x.unacked.isEmpty && x.acks.isEmpty && (sectorBases x.dbase x.dlen).all (fun b => x.done.contains (b / 32)) &&
  !s.fab.sends.any (fun y => y.coll == some x.id)

/-- COLLECTIVE_COMPLETE (R467): what is left is written; a collective with nothing left ends and adds to DONE. -/
def execCollectiveComplete (id : Nat) (s : State) : Host.Outcome State Fault Refusal :=
  .next (
    let s := (s.collAnswers id).collGoesOn id
    match s.collById id with
    | none => s
    | some x => if s.collDone x then (s.dropColl id).addField x.op.core (pbDone x.blk) 1 else s)

/-- COLLECTIVE_TIMEOUT (R473): no packet for 2^28 cycles while this member waits on another; a wait on TRG does not count. -/
def execCollectiveTimeout (id : Nat) (s : State) : Host.Outcome State Fault Refusal :=
  .next (match s.collById id with
    | none => s
    | some x =>
      if x.read = x.chunks && !s.collDone x && decide (x.last + 2 ^ 28 ≤ s.cyc) then s.collFault x 5 else s)

/-- A transfer of an aborted attempt has ended: its open entry is as good as cut (log entry 55). -/
def VnEnt.aborted (c : Ctx) (t : BitVec 16) (e : VnEnt) : VnEnt :=
  if e.mark.toNat.testBit 1 && e.ctx == c && e.att == t then e.over else e

/-- An abort ends every collective and `vnsend` of the attempt at once, without DONE (R471). -/
def State.collAborted (s : State) (c : Ctx) (t : BitVec 16) : State :=
  let mine (o : Op) : Bool := o.ctx == c && o.stepOpen && o.att == t
  s.setFab { s.fab with colls := s.fab.colls.filter (fun x => !mine x.op), sends := s.fab.sends.filter (fun x => !mine x.op),
                        vns := s.fab.vns.map (VnEnt.aborted c t) }

/-! ## Stops fire (08 R268) -/

/-- Fire the stop at `key`: its operation enters its engine's queue now, in the context that armed it and with the attempt that the device
now holds; only a `glnote` keeps the attempt open at its issue (R264). A `route` changes two cycles later to what its issue found (R262); the block of a `coll` is
read now (20 R465). -/
def State.fireStop (s : State) (key : Nat) : State :=
  match (s.stop key).fired with
  | [] => s
  | (d, o) :: rest =>
    let ahead := s.shr.stops.any (fun e => stopAhead key e.1 && e.2.fired.any (fun f => f.1 == d))
    if ahead || !s.scribeAllows o.ctx 8 (stopUnit key) (s.stopEntry o.ctx key) then s
    else
      let st := (s.ctx o.ctx).step
      let s := (s.scribeEvent o.ctx 8 (stopUnit key) (s.stopEntry o.ctx key)).countOrdinal o.ctx (2048 + stopUnit key)
      let o := if o.eng == .gl && nb o.word.toNat 10 2 ≠ 0 then o else { o with att := st.t, stepOpen := st.open_ }
      let o := { o with c := s.cyc, id := s.nextId }
      let s := (s.setStop key { s.stop key with fired := rest }).fresh
      let (s, o) := if o.word.toNat / 256 = 0x70 then s.blockAtFire o else (s, o)
      let arm (c : Core) : Core := match o.rt with
        | some r => { c with routePend := c.routePend ++ [(s.cyc + 2, o.word.toNat % 4, r)] }
        | none => c
      s.at o.core (fun s => s.setCore ((arm s.core).setEngineQueue o.eng (s.core.engineQueue o.eng ++ [o])))

/-- STOP_FIRE (R268): a stop of the cluster of the core in focus, or of the device. -/
def execStopFire (dev : Bool) (n : BitVec 6) (s : State) : Host.Outcome State Fault Refusal :=
  .next (s.fireStop (s.stopKey dev n.toNat))

/-- The vnsend at the head of a VC queue begins. -/
def State.takeVnsend (s : State) (o : Op) : State := (s.startVnsend o).at o.core (fun s => s.setCore (s.core.takeOp o))

end Sys2Proof.Machine
end

