-- ==== Sys2Proof/Machine/Engines.lean ====
section
/-! DEFINITION. A die engine takes an operation of a core's command queue (08 R250): GA (R259), VC (R260 to R262), MO, DV, and the
glue-up words `glveto` and `glnote` (R264). ML and MS start their copies by COPY_START. -/
namespace Sys2Proof.Machine

/-- A gather or scatter is taken: every row has yet to land. -/
def State.takeGa (s : State) (o : Op) : State :=
  s.setCore { (s.core.takeOp o) with ga := s.core.ga ++ [GaRun.start o] }

/-- A `route` is taken once its route has changed (R262, R267). -/
def State.takeRoute (s : State) (o : Op) : State := if s.cyc ≤ o.c + 2 then s else s.setCore (s.core.takeOp o)

/-- A VC operation. -/
def State.takeVc (s : State) (o : Op) : State :=
  match nb o.word.toNat 8 4 with
  | 0 => s.takeColl o
  | 1 => s.takeVnsend o
  | 5 => s.takeRoute o
  | _ => s.takeVnWord o

/-- Number of a note's gauge: of the device, or of the cluster of the core that issued it. -/
def noteKey (o : Op) : Nat :=
  let n := o.word.toNat
  if nb n 8 1 = 1 then 65536 + nb n 0 8 else cluOf o.core * 64 + nb n 0 8 % 64

/-- `glveto` and `glnote` (R264). A veto goes into STEPVF of the attempt that is open when it runs. A note waits for the decision of the attempt open at its issue; of one already decided it
applies at once. -/
def State.takeGl (s : State) (o : Op) : State :=
  let r := s.ctx o.ctx
  let same := r.step.open_ && r.step.t == o.att
  let s := s.setCore (s.core.takeOp o)
  if nb o.word.toNat 10 2 = 0 then
    if r.step.open_ then s.veto o.ctx (BitVec.ofNat 5 o.word.toNat) else s
  else
    let c := nb o.word.toNat 9 1 == 1
    if same then s.setStep o.ctx { r.step with notes := r.step.notes ++ [(noteKey o, c)] }
    else if c && (Map.get none r.dead o.att.toNat).isSome then s
    else s.addGaugeAt (noteKey o) 1

/-- Take an operation. -/
def State.takeEngine (s : State) (o : Op) : State :=
  match o.eng with
  | .ga => s.takeGa o
  | .vc => s.takeVc o
  | .mo => if s.moWaits s.k o then s else (s.takeMo o).leaves o
  | .dv => (s.takeDv o).leaves o
  | .gl => s.takeGl o
  | _ => s

/-- ENGINE_TAKES_OPERATION (R250): the head of a queue of the core in focus, unless the core is frozen (09 R291) or the operation
must wait. -/
def execEngineTakesOperation (e : Eng) (s : State) : Host.Outcome State Fault Refusal :=
  .next (match s.core.headOp e with
    | none => s
    | some o => if s.core.halt = .freeze then s else s.takeEngine o)

end Sys2Proof.Machine
end

