-- ==== Sys2Proof/Machine/GlueUp.lean ====
section
/-! DEFINITION. Glue-up (21 R487 to R494), failures (R500 to R507) and fabric barriers (R508): votes, decisions and what they do,
losses, fills, the halt, and the tree of a fabric barrier. Payloads other than the vote's are the model's (log entry 20):
decision: K, ATT, VF, flags ([0] C, [1] LOST, [2] tags change, [3] halt), ranks lost from byte 12 on; fills: rank, lost peer, spare,
source; barriers: K, ATT, number, round. -/
namespace Sys2Proof.Machine

/-! ## Hearing and declaring (R501) -/

/-- A GLU packet has come from a rank. -/
def State.hear (s : State) (c : Ctx) (r : Nat) : State :=
  s.setGctx c { s.gctx c with heard := Map.set 0 (s.gctx c).heard r s.cyc }

/-- Cycle in which a rank was last heard; before the first time, that of the GLUCFG write. -/
def GCtx.heardAt (g : GCtx) (r : Nat) : Nat := max (Map.get 0 g.heard r) g.heardFrom

/-- A rank is lost: the acting root is told, and decides; the others only remember it. -/
def State.declare (s : State) (c : Ctx) (r : Nat) : State :=
  let g := s.gctx c
  if g.lost.contains r || g.notices.contains r then s
  else (s.setGctx c { g with notices := g.notices ++ [r] }).sendNotice c r

/-- A vote or a barrier arrival that names another step than the one open here (R491). -/
def State.badVote (s : State) (c : Ctx) (r : Nat) : Bool :=
  let g := s.gctx c
  let k := (s.ctx c).step.k
  (s.ctx c).step.open_ && (g.votes.any (fun v => v.rank == r && v.k != k) || g.bars.any (fun b => b.2.any (fun e => e.1 == r && e.2 != k)))

/-- A parent declares a child lost that it has not heard for 2^20 cycles, or to which R491 applies. -/
def State.judge (s : State) (c : Ctx) (me r : Nat) : State :=
  let g := s.gctx c
  if (g.children me).contains r && (decide (g.heardAt r + 2 ^ 20 ≤ s.cyc) || s.badVote c r) then s.declare c r else s

/-- DECLARE_LOST (R501). -/
def execDeclareLost (ctx : Ctx) (rank : BitVec 12) (s : State) : Host.Outcome State Fault Refusal :=
  .next (match s.domRank ctx with
    | none => s
    | some me => s.judge ctx me rank.toNat)

/-- LOST_NOTICE_ARRIVAL (R501): the rank is remembered; a receiver that is not the acting root passes the notice on. -/
def State.serveNotice (s : State) (p : Packet) : Option State :=
  some (match s.domRank p.ctx, s.rankOfPeer p.ctx p.src with
    | some _, some r => (s.hear p.ctx r).declare p.ctx (pkField p 0 2)
    | _, _ => s)

def execLostNoticeArrival (pk : Packet) (s : State) : Host.Outcome State Fault Refusal :=
  .next (s.takePacket pk [0x25] State.serveNotice)

/-- KEEP_ALIVE_SEND (R501): to the parent and to each child. -/
def State.keepAlive (s : State) (c : Ctx) : State :=
  match s.domRank c with
  | none => s
  | some me =>
    let g := s.gctx c
    let dsts := (g.parent me).toList ++ g.children me
    dsts.foldl (fun s r => s.sendGlu c r 0x22 []) (s.setGctx c { g with kaAt := s.cyc })

def execKeepAliveSend (ctx : Ctx) (s : State) : Host.Outcome State Fault Refusal := .next (s.keepAlive ctx)

/-- Ancestors of a rank, lost or not. Fuel bounds the depth. -/
def ancestors : Nat → Nat → List Nat
  | 0, _ => []
  | fuel + 1, i => if i = 0 then [] else (i - 1) / 32 :: ancestors fuel ((i - 1) / 32)

/-- Nothing has come from the parent or any ancestor for 2^20 cycles: the device enters STATE 7 and sends no further packet for the
context (R501). -/
def State.cutOff (s : State) (c : Ctx) (me : Nat) : State :=
  let g := s.gctx c
  match g.parent me with
  | none => s
  | some q =>
    if (q :: ancestors 4 me).all (fun r => decide (g.heardAt r + 2 ^ 20 ≤ s.cyc)) then s.setGctx c { g with st := 7, cut := true } else s

/-- ANCESTOR_SILENCE_HALT (R501). -/
def execAncestorSilenceHalt (ctx : Ctx) (s : State) : Host.Outcome State Fault Refusal :=
  .next (match s.domRank ctx with
    | none => s
    | some me => s.cutOff ctx me)

/-! ## Votes (R487 to R492) -/

/-- A copy writes memory that may be versioned. -/
def Copy.leavesCluster (x : Copy) : Bool :=
  match x.geo.dst with
  | some (.mem c) => c.spc != 1
  | some (.slot _) => false
  | none => true

/-- Work of the attempt on a core. -/
def Core.busyIn (x : Core) (c : Ctx) (t : BitVec 16) : Bool :=
  let mine (o : Op) : Bool := o.ctx == c && o.stepOpen && o.att == t
  (x.pc.run && x.pc.ctx == c && x.pc.stepIn) || x.epir.any (fun e => e.ctx == c && e.open_ && e.att == t) ||
  x.pend.any (fun a => a.ctx == c && a.stepOpen && a.att == t && a.vers && a.writes) ||
  x.copies.any (fun y => mine y.op && y.leavesCluster) || x.ga.any (fun y => mine y.op && !y.op.gaGeo.gat)

/-- A write of the attempt to a versioned line of another peer has not been answered. -/
def State.writesAway (s : State) (c : Ctx) (t : BitVec 16) : Bool :=
  s.fab.req.any (fun e => match e.2 with
    | some r => r.ctx == c && !r.ret && r.att == t && s.versPa c r.addr
    | none => false)

/-- A Dovetail table of the context is inside the attempt (17 R412, R417). -/
def State.doveIn (s : State) (c : Ctx) : Bool := s.pkg.dv.ctx == c && s.pkg.dv.ina

/-- Quiescence of the open attempt (R488). -/
def State.gluQuiet (s : State) (c : Ctx) : Bool :=
  let st := (s.ctx c).step
  let mine (o : Op) : Bool := o.ctx == c && o.stepOpen && o.att == st.t
  st.open_ && st.closed && !s.doveIn c && !s.writesAway c st.t && !s.allCores.any (fun e => e.2.busyIn c st.t) &&
  !s.fab.colls.any (fun x => mine x.op) && !s.fab.sends.any (fun x => mine x.op)

/-- STATE as GLUST shows it (R489). -/
def State.gluState (s : State) (c : Ctx) : Nat :=
  let g := s.gctx c
  let st := (s.ctx c).step
  if g.st ≠ 0 then g.st.toNat
  else if !st.open_ then 0
  else if st.vf ≠ 0 then 2
  else if st.closed then 3 else 1

/-- STATE 4 is entered on quiescence, from STATE 3. -/
def State.enterVoting (s : State) (c : Ctx) : State :=
  if s.gluState c = 3 && s.gluQuiet c then s.setGctx c { s.gctx c with st := 4, closedAt := s.cyc } else s

/-- A piece inside the attempt is drain-halted: the device's vote is held, and the attempt neither commits nor aborts (09 R293). -/
def State.stepHeld (s : State) (c : Ctx) : Bool :=
  s.allCores.any (fun e => e.2.pc.run && e.2.pc.ctx == c && e.2.pc.stepIn && e.2.halt == .drain)

/-- Votes of this step that have come from live children. -/
def State.counted (s : State) (c : Ctx) (me : Nat) : List Vote :=
  let g := s.gctx c
  g.votes.filter (fun v => (g.children me).contains v.rank && v.k == (s.ctx c).step.k)

/-- The payload of a vote (R487). -/
def voteBytes (k : W64) (att : BitVec 16) (vf : BitVec 5) (cnt : Nat) : Bytes :=
  bytesLE 8 k.toNat ++ bytesLE 2 att.toNat ++ bytesLE 1 vf.toNat ++ [0] ++ bytesLE 2 cnt

/-- Send this device's vote to its parent. -/
def State.sendVote (s : State) (c : Ctx) (me cnt : Nat) (vf : BitVec 5) : State :=
  let st := (s.ctx c).step
  match (s.gctx c).parent me with
  | none => s
  | some q => (s.sendGlu c q 0x20 (voteBytes st.k st.t vf cnt)).setGctx c { s.gctx c with voted := true }

/-- Union of the vetoes of this device and of the votes counted. -/
def State.unionVf (s : State) (c : Ctx) (vs : List Vote) : BitVec 5 := vs.foldl (fun f v => f ||| v.vf) (s.ctx c).step.vf

/-- VOTE_SEND (R488): a quiescent device whose live children have all voted; one whose Dovetail has a table inside the attempt again is
not (17 R412). -/
def execVoteSend (ctx : Ctx) (s : State) : Host.Outcome State Fault Refusal :=
  .next (match s.domRank ctx with
    | none => s
    | some me =>
      let g := s.gctx ctx
      let vs := s.counted ctx me
      if g.st ≠ 4 || g.voted || s.doveIn ctx || !(g.children me).all (fun r => vs.any (fun v => v.rank == r)) then s
      else s.sendVote ctx me (1 + (vs.map Vote.cnt).foldl (· + ·) 0) (s.unionVf ctx vs))

/-- A device in STATE 2 owes a vote with its flags, counting itself alone (R489). -/
def State.vetoOwed (s : State) (c : Ctx) (me : Nat) : Bool :=
  let g := s.gctx c
  s.gluState c == 2 && !g.vetoed && me != g.root && !s.stepHeld c

def State.vetoVote (s : State) (c : Ctx) (me : Nat) : State :=
  if s.vetoOwed c me then
    let s := s.sendVote c me 1 (s.ctx c).step.vf
    s.setGctx c { s.gctx c with vetoed := true }
  else s

/-- VETO_VOTE (R489): the vote leaves. -/
def execVetoVote (ctx : Ctx) (s : State) : Host.Outcome State Fault Refusal :=
  .next (match s.domRank ctx with
    | none => s
    | some me => s.vetoVote ctx me)

/-- As a cycle passes: the veto vote leaves no later than 64 cycles after the first flag was set (R489). `vfAt` is the cycle after the one in
which it was. -/
def State.vetoDue (s : State) (c : Ctx) (me : Nat) : State :=
  let g := s.gctx c
  if !s.vetoOwed c me then s.setGctx c { g with vfAt := 0 }
  else if g.vfAt = 0 then s.setGctx c { g with vfAt := s.cyc }
  else if g.vfAt + 63 ≤ s.cyc then s.vetoVote c me else s

/-- A vote, or a keep-alive, arrives (R489, R491). K is compared where a step is open here (DEDUCED, log entry 38: a child may open the
step first). -/
def State.serveVote (s : State) (p : Packet) : Option State :=
  some (match s.domRank p.ctx, s.rankOfPeer p.ctx p.src with
    | some me, some r =>
      let c := p.ctx
      let s := s.hear c r
      let st := (s.ctx c).step
      let v : Vote := ⟨r, BitVec.ofNat 64 (pkField p 0 8), BitVec.ofNat 16 (pkField p 8 2), BitVec.ofNat 5 (pkField p 10 1), pkField p 12 2⟩
      if p.op = 0x22 then s
      else match ageOf v.att st.t with
        | .older => s
        | .newer => s.declare c r
        | .same =>
          if st.open_ && v.k != st.k then s.declare c r
          else
            let g := s.gctx c
            let s := s.setGctx c { g with votes := g.votes.filter (fun x => x.rank != r) ++ [v] }
            match g.parent me with
            | some q => if v.vf ≠ 0 then s.sendGlu c q 0x20 (pkBytes p) else s
            | none => s
    | _, _ => s)

/-- VOTE_ARRIVAL (R491). Keep-alives (OP 0x22) come the same way. -/
def execVoteArrival (pk : Packet) (s : State) : Host.Outcome State Fault Refusal :=
  .next (s.takePacket pk [0x20, 0x22] State.serveVote)

/-- 2^32 cycles in STATE 4 without every child's vote (R492). -/
def State.voteWaits (s : State) (c : Ctx) (me : Nat) : State :=
  let g := s.gctx c
  let vs := s.counted c me
  if g.st ≠ 4 || s.cyc < g.closedAt + 2 ^ 32 || g.voted || (g.children me).all (fun r => vs.any (fun v => v.rank == r)) then s
  else
    let s := s.veto c vFault
    s.sendVote c me (1 + (vs.map Vote.cnt).foldl (· + ·) 0) (s.unionVf c vs)

/-- VOTE_WAIT_TIMEOUT (R492). -/
def execVoteWaitTimeout (ctx : Ctx) (s : State) : Host.Outcome State Fault Refusal :=
  .next (match s.domRank ctx with
    | none => s
    | some me => s.voteWaits ctx me)

/-! ## Fabric barriers (R508) -/

def fbarKey (c : Ctx) (n : Nat) : Nat := 131072 + c.toNat * 8 + n % 8

/-- A round ends here: it has completed, or it has failed. -/
def State.endRound (s : State) (c : Ctx) (n : Nat) (done : Bool) : State :=
  let b := s.barrier (fbarKey c n)
  let s := s.setBarrier (fbarKey c n) ⟨if done then b.round + 1 else b.round, 0, false, 0, 0⟩
  let g := s.gctx c
  s.setGctx c { g with bars := Map.set [] g.bars n [], barSent := Map.set false g.barSent n false }

def barBytes (st : StepSt) (n : Nat) (round : BitVec 16) : Bytes :=
  bytesLE 8 st.k.toNat ++ bytesLE 2 st.t.toNat ++ bytesLE 2 n ++ bytesLE 2 round.toNat

/-- The acting root's release goes down the tree. -/
def State.releaseRound (s : State) (c : Ctx) (me n : Nat) (round : BitVec 16) : State :=
  let s := s.endRound c n true
  ((s.gctx c).children me).foldl (fun s r => s.sendGlu c r 0x24 (barBytes (s.ctx c).step n round)) s

/-- The local count and every live child have arrived: the arrival goes up, or the root, with all ranks counted, releases. -/
def State.fbarTry (s : State) (c : Ctx) (n : Nat) : State :=
  match s.domRank c with
  | none => s
  | some me =>
    let g := s.gctx c
    let b := s.barrier (fbarKey c n)
    let st := (s.ctx c).step
    let here := ((Map.get [] g.bars n).filter (fun e => !st.open_ || e.2 == st.k)).map Prod.fst
    if !b.open_ || b.arr ≠ b.fix || Map.get false g.barSent n || !(g.children me).all (fun r => here.contains r) then s
    else match g.parent me with
      | none => if g.lost.isEmpty then s.releaseRound c me n b.round else s
      | some q => (s.sendGlu c q 0x23 (barBytes (s.ctx c).step n b.round)).setGctx c { g with barSent := Map.set false g.barSent n true }

/-- A child's arrival (R491, R508). K is compared where a step is open here, or when one opens (DEDUCED: STEPNUM is the number of the open
step, 03 R103; log entry 38). -/
def State.serveBarArrival (s : State) (p : Packet) : Option State :=
  some (match s.domRank p.ctx, s.rankOfPeer p.ctx p.src with
    | some _, some r =>
      let c := p.ctx
      let s := s.hear c r
      let st := (s.ctx c).step
      let n := pkField p 10 2 % 8
      let k := BitVec.ofNat 64 (pkField p 0 8)
      if BitVec.ofNat 16 (pkField p 8 2) ≠ st.t || (st.open_ && k ≠ st.k) then s.declare c r
      else if BitVec.ofNat 16 (pkField p 12 2) ≠ (s.barrier (fbarKey c n)).round then s
      else
        let g := s.gctx c
        let l := (Map.get [] g.bars n).filter (fun e => e.1 != r)
        (s.setGctx c { g with bars := Map.set [] g.bars n (l ++ [(r, k)]) }).fbarTry c n
    | _, _ => s)

/-- FABRIC_BARRIER_ARRIVAL (R508). -/
def execFabricBarrierArrival (pk : Packet) (s : State) : Host.Outcome State Fault Refusal :=
  .next (s.takePacket pk [0x23] State.serveBarArrival)

/-- The release of a round. -/
def State.serveBarRelease (s : State) (p : Packet) : Option State :=
  some (match s.domRank p.ctx, s.rankOfPeer p.ctx p.src with
    | some me, some r =>
      let s := s.hear p.ctx r
      let n := pkField p 10 2 % 8
      let round := BitVec.ofNat 16 (pkField p 12 2)
      if (s.barrier (fbarKey p.ctx n)).round = round then s.releaseRound p.ctx me n round else s
    | _, _ => s)

/-- FABRIC_BARRIER_RELEASE (R508). -/
def execFabricBarrierRelease (pk : Packet) (s : State) : Host.Outcome State Fault Refusal :=
  .next (s.takePacket pk [0x24] State.serveBarRelease)

/-- Each BAR that waits in a round of fabric barrier `n` raises Barrier Fault: at its next attempt, which a stopped or checkpointed piece makes
when it goes on (09 R284). -/
def State.faultWaiting (s : State) (c : Ctx) (n : Nat) : State :=
  let hit (w : BarWait) : BarWait := if w.sc = 2 && w.n.toNat % 8 = n && !w.done then { w with fail := true } else w
  s.mapPieces (fun p => if p.ctx = c then { p with bar := p.bar.map hit, barH := p.barH.map hit } else p)

/-- A declaration of loss fails every open round of the domain (R508). -/
def State.failRounds (s : State) (c : Ctx) : State :=
  (List.range 8).foldl (fun s n => ((if (s.barrier (fbarKey c n)).open_ then s.faultWaiting c n else s).endRound c n false)) s

/-! ## Decisions (R490, R493) -/

/-- A decision: STEPNUM, attempt, vetoes, commit, ranks declared lost, whether tags change, and the halt of R507. -/
structure Decision where
  k : W64
  att : BitVec 16
  vf : BitVec 5
  commit : Bool
  lost : List Nat
  tag : Bool
  halt : Bool
  deriving DecidableEq, Repr

def Decision.bytes (d : Decision) : Bytes :=
  let fl := d.commit.toNat + 2 * (!d.lost.isEmpty).toNat + 4 * d.tag.toNat + 8 * d.halt.toNat
  bytesLE 8 d.k.toNat ++ bytesLE 2 d.att.toNat ++ bytesLE 1 d.vf.toNat ++ bytesLE 1 fl ++ bytesLE 2 d.lost.length ++ [0, 0] ++
    d.lost.flatMap (fun r => bytesLE 2 r)

def decisionOf (p : Packet) : Decision :=
  let fl := pkField p 11 1
  ⟨BitVec.ofNat 64 (pkField p 0 8), BitVec.ofNat 16 (pkField p 8 2), BitVec.ofNat 5 (pkField p 10 1), fl.testBit 0,
    (List.range (min 120 (pkField p 12 2))).map (fun i => pkField p (16 + 2 * i) 2), fl.testBit 2, fl.testBit 3⟩

/-- Streams of a context that hold a step. -/
def State.holders (s : State) (c : Ctx) : List (BitVec 6) :=
  (s.die.streams.filter (fun e => e.2.ctx == c && e.2.step.isSome)).map (fun e => BitVec.ofNat 6 e.1)

/-- A stream waits at STEPOPEN or STEPCLOSE. -/
def State.waitsAtStep (s : State) (n : Nat) (x : Stream) : Bool :=
  x.state == 2 && (match s.cpRead x.ctx (x.base.toNat + 32 * x.head.toNat) 1 (whoStream n) with
    | .ok (bs, _) => bs == [0x0A] || bs == [0x0B]
    | .error _ => false)

/-- Stream faults with FCODE 6 (R494, R507); the step is given up. -/
def State.faultStreams (s : State) (c : Ctx) (l : List (BitVec 6)) : State :=
  let s := l.foldl (fun s n => (s.setStream n { s.streamOf n with step := none }).streamFault n 6) s
  s.setStep c { (s.ctx c).step with wait := false }

/-- Every stream of the context that waits at or holds a step. -/
def State.stepStreams (s : State) (c : Ctx) : List (BitVec 6) :=
  (s.die.streams.filter (fun e => e.2.ctx == c && (e.2.step.isSome || s.waitsAtStep e.1 e.2))).map (fun e => BitVec.ofNat 6 e.1)

/-- The halt of R507 at a member. -/
def State.enterHalt (s : State) (c : Ctx) : State :=
  (s.faultStreams c (s.stepStreams c)).setGctx c { s.gctx c with st := 7 }

/-- A launch is inside the attempt (R335). -/
def State.insideAttempt (s : State) (c : Ctx) (li : Nat) (l : Launch) : Bool :=
  l.lr.ctx == c && (l.inStep || l.saved.any (fun v => v.core.pc.stepIn) ||
    s.allCores.any (fun e => e.2.pc.run && e.2.pc.li == li && e.2.pc.stepIn))

/-- With a commit no launch of the context is inside the attempt any more. -/
def State.launchesOut (s : State) (c : Ctx) : State :=
  let out (l : Option Launch) : Option Launch := l.map (fun l => if l.lr.ctx = c then { l with inStep := false } else l)
  s.setDie { s.die with launches := Map.mapVals none out s.die.launches }

/-- Launches inside an aborted attempt complete as cancelled. -/
def State.cancelInside (s : State) (c : Ctx) : State :=
  s.die.launches.foldl (fun s e => match e.2 with
    | some l => if s.insideAttempt c e.1 l then s.cancelLaunch e.1 else s
    | none => s) s

/-- Gauges that STEPOPEN saved, with their error bits. -/
def State.restoreGauges (s : State) (st : StepSt) : State :=
  (st.saved.zip (List.range st.saved.length)).foldl (fun s e =>
    (s.setGaugeAt (65536 + (st.f + e.2)) e.1.1).setGaugeErr (st.f + e.2) e.1.2) s

/-- The notes of `glnote` (08 R264). -/
def State.applyNotes (s : State) (l : List (Nat × Bool)) (commit : Bool) : State :=
  l.foldl (fun s e => if commit || !e.2 then s.addGaugeAt e.1 1 else s) s

/-- The stream that holds the step goes back to the position after STEPOPEN, with its loops, and the step waits for its retry. -/
def State.rewind (s : State) (c : Ctx) (st : StepSt) : State :=
  let x := s.streamOf st.stream
  if x.ctx = c && x.step.isSome then
    let x' := if x.state = 1 || x.state = 2 then { x with head := st.pos, nest := st.nest, skip := 0, state := 2 } else x
    (s.setStream st.stream x').setStep c { (s.ctx c).step with wait := true }
  else s

/-- Tags, DEAD and the pending loss mean (R384, 03 R80). -/
def CtxRec.decided (r : CtxRec) (commit : Bool) (pass : Nat) : CtxRec :=
  let st := r.step
  let st' := { st with g := if commit then st.t else st.g, t := st.t + 1, open_ := false, closed := false, notes := [], lossPend := none }
  { r with step := st', lag := r.lag + 1,
           lossrun := match commit, st.lossPend with
             | true, some m => BitVec.ofNat 64 m.toNat
             | _, _ => r.lossrun,
           dead := if commit then r.dead else Map.set none r.dead st.t.toNat (some pass) }

/-- What an abort gives back (R493). -/
def State.undo (s : State) (c : Ctx) (st : StepSt) : State :=
  let s := s.cancelInside c
  let s := if st.open_ then s.restoreGauges st else s
  let g := s.gctx c
  let s := if st.open_ then s.setGctx c { g with nseq := g.nseqOld } else s
  (s.collAborted c st.t).rewind c st

/-- GLUDEC (R486). -/
def decWord (d : Decision) : W64 :=
  BitVec.ofNat 64 (d.att.toNat * 2 ^ 48 + (!d.lost.isEmpty).toNat * 2 ^ 16 + d.commit.toNat * 2 ^ 15 + d.vf.toNat)

/-- The decision changes the tags: everything of R493 but the glue-up's own registers. -/
def State.changeTags (s : State) (c : Ctx) (d : Decision) : State :=
  let st := (s.ctx c).step
  let s := s.scribeDecided c d.commit (!d.lost.isEmpty) d.vf
  let s := s.setCtx c ((s.ctx c).decided d.commit s.pkg.pass.toNat)
  let s := if d.commit then s.launchesOut c else s.undo c st
  let s := s.applyNotes st.notes d.commit
  (s.moDecided c d.commit st.k).doveDecided c d.commit

/-- The decision is applied, in one cycle, and goes on to the children (R490, R493). One that changes no tag is logged too (R496). STATE 7 is
left by a restore alone (R489). -/
def State.applyDecision (s : State) (c : Ctx) (d : Decision) : State :=
  let s := if d.halt then s.enterHalt c else if d.tag then s.changeTags c d
    else s.scribeEvent c 2 devUnit (d.vf.toNat + 2 ^ 16)
  let s :=
    if d.halt then s
    else
      let g := s.gctx c
      let abrt := if !d.tag then g.abrt else if d.commit then 0 else g.abrt + 1
      s.setGctx c { g with
        gdec := decWord d, abrt := abrt, st := if g.st = 7 then 7 else 5, votes := [], voted := false, vetoed := false,
        lost := g.lost ++ d.lost.filter (fun r => !g.lost.contains r), notices := g.notices.filter (fun r => !d.lost.contains r) }
  let s := if d.lost.isEmpty then s else s.failRounds c
  match s.domRank c with
  | none => s
  | some me => ((s.gctx c).children me).foldl (fun s r => s.sendGlu c r 0x21 d.bytes) s

/-- A decision arrives: one of another attempt is dropped, one already applied ignored. It waits while a debugger holds the attempt. -/
def State.serveDecision (s : State) (p : Packet) : Option State :=
  if s.stepHeld p.ctx then none
  else some (match s.domRank p.ctx, s.rankOfPeer p.ctx p.src with
    | some _, some r =>
      let s := s.hear p.ctx r
      let d := decisionOf p
      let g := s.gctx p.ctx
      if d.att ≠ (s.ctx p.ctx).step.t || (d.halt && g.st = 7) || (!d.tag && !d.halt && d.lost.all (fun r => g.lost.contains r)) then s
      else s.applyDecision p.ctx d
    | _, _ => s)

/-- APPLY_DECISION (R493). -/
def execApplyDecision (pk : Packet) (s : State) : Host.Outcome State Fault Refusal :=
  .next (s.takePacket pk [0x21] State.serveDecision)

/-- ROOT_DECISION (R490, R501): the acting root aborts, commits, or declares a loss with no attempt open. -/
def State.rootDecide (s : State) (c : Ctx) (me : Nat) : State :=
  let g := s.gctx c
  let st := (s.ctx c).step
  let vs := s.counted c me
  let vf := g.votes.foldl (fun f v => f ||| v.vf) (if st.open_ then st.vf else 0)
  if st.open_ || !g.votes.isEmpty then
    if vf ≠ 0 || !g.notices.isEmpty then s.applyDecision c ⟨st.k, st.t, vf, false, g.notices, true, false⟩
    else if g.st = 4 && s.gluQuiet c && (vs.map Vote.cnt).foldl (· + ·) 0 = g.nm - 1 then
      s.applyDecision c ⟨st.k, st.t, 0, true, [], true, false⟩
    else s
  else if g.notices.isEmpty then s
  else s.applyDecision c ⟨st.k, st.t, 0, false, g.notices, false, false⟩

/-- The acting root decides, where it may. -/
def State.rootTurn (s : State) (c : Ctx) : State :=
  match s.domRank c with
  | none => s
  | some me =>
    let g := s.gctx c
    if me ≠ g.nextRoot || g.st = 5 || g.st = 7 || g.cut || s.stepHeld c then s else s.rootDecide c me

def execRootDecision (ctx : Ctx) (s : State) : Host.Outcome State Fault Refusal := .next (s.rootTurn ctx)

/-! ## The fill table (R504) -/

structure FillTable where
  spares : List Nat
  regs : List (Nat × Nat)
  reps : Nat
  deriving DecidableEq, Repr

def State.fillTable (s : State) (c : Ctx) : FillTable :=
  let a := bitsOf (s.gctx c).fillb 0 56
  let f (o n : Nat) : Nat := match s.ctxBytes c s.readKey (a + o) n with
    | .ok bs => natLE bs
    | .error _ => 0
  ⟨(List.range (min 64 (f 0 2))).map (fun i => f (0x40 + 2 * i) 2),
    (List.range (min 64 (f 2 2))).map (fun i => (f (0xC0 + 16 * i) 8, f (0xC8 + 16 * i) 8)), f 4 2⟩

/-- A part of the fill table that another peer has still to send, or that lies on a page in transit. -/
def State.tableAway (s : State) (c : Ctx) : Option Stop' :=
  (sectorBases (bitsOf (s.gctx c).fillb 0 56) 0x4C0).findSome? (fun b => match s.ctxBytes c s.readKey b 32 with
    | .error (.trap _) => none
    | .error e => some e
    | .ok _ => none)

/-- The fill table is read once something is lost, poisoned or being filled: what lies on other peers is asked for. -/
def State.tableFetch (s : State) (c : Ctx) : State :=
  let g := s.gctx c
  if g.lost.isEmpty && g.notices.isEmpty && !(bitsOf g.gdec 15 1 == 0 && bitsOf g.gdec 2 1 == 1) && !s.fab.fills.any (fun f => f.ctx == c) then s
  else match s.tableAway c with
    | some (.ask who pa) => s.askFar who pa c 1024 s.k
    | _ => s

/-- A device-virtual address lies in a shared region. -/
def FillTable.shares (t : FillTable) (va : Nat) : Bool := t.regs.any (fun r => decide (r.1 ≤ va) && decide (va < r.1 + r.2))

/-- The first live replica of a rank. -/
def State.replica (s : State) (c : Ctx) (i : Nat) : Option Nat :=
  let g := s.gctx c
  let r := (s.fillTable c).reps
  if r = 0 then none
  else ((List.range g.nm).filterMap (fun j => if 0 < j && j * r < g.nm then some ((i + j * r) % g.nm) else none)).find?
    (fun y => !g.lost.contains y)

/-- The first spare that is neither used nor a member. -/
def State.unusedSpare (s : State) (c : Ctx) : Option Nat :=
  (s.fillTable c).spares.find? (fun p =>
    let q := BitVec.ofNat 12 p
    !s.fab.subs.any (fun x => x.sub == q) && !s.fab.fills.any (fun x => x.spare == q) && (s.rankOfPeer c q).isNone)

/-! ## Fills (R505, R506) -/

def Fill.bytes (f : Fill) : Bytes :=
  bytesLE 2 f.rank.toNat ++ bytesLE 2 f.lost.toNat ++ bytesLE 2 f.spare.toNat ++ bytesLE 2 f.src.toNat

def fillOf (p : Packet) : Fill :=
  ⟨p.ctx, BitVec.ofNat 12 (pkField p 0 2), BitVec.ofNat 12 (pkField p 2 2), BitVec.ofNat 12 (pkField p 4 2),
    BitVec.ofNat 12 (pkField p 6 2), 0⟩

/-- FILLST of a fill that runs, or has ended (R486). -/
def fillWord (f : Fill) (run : Bool) : W64 :=
  BitVec.ofNat 64 (f.done * 2 ^ 32 + f.src.toNat * 2 ^ 20 + f.lost.toNat * 2 ^ 8 + run.toNat)

/-- A device remembers an assignment; the source and the spare show it in FILLST. -/
def State.recordFill (s : State) (f : Fill) : State :=
  let l := s.fab.fills.filter (fun x => !(x.ctx == f.ctx && x.rank == f.rank)) ++ [f]
  let st := if s.peer = f.spare || s.peer = f.src then fillWord f true else s.fab.fillSt
  s.setFab { s.fab with fills := l, fillSt := st }

/-- Flood an assignment from this rank down. -/
def State.floodFill (s : State) (f : Fill) : State :=
  match s.domRank f.ctx with
  | none => s
  | some me => ((s.gctx f.ctx).children me).foldl (fun s r => s.sendGlu f.ctx r 0x26 f.bytes) s

/-- The acting root assigns a fill to a lost rank, and tells the spare. -/
def State.assignFill (s : State) (f : Fill) : State :=
  ((s.recordFill f).floodFill f).send { pkZero with dst := f.spare, vc := vcGlu, ctx := f.ctx, op := 0x26, data := flitsOf 8 f.bytes }

/-- A running fill of a rank whose source lives. -/
def State.fillRuns (s : State) (c : Ctx) (x : Nat) : Bool :=
  s.fab.fills.any (fun f => f.ctx == c && f.rank.toNat == x &&
    (match s.rankOfPeer c f.src with
      | some y => !(s.gctx c).lost.contains y
      | none => false))

/-- Start, or restart from the next replica, the fill of a lost rank; nothing where no spare or no replica is left. -/
def State.startFill (s : State) (c : Ctx) (x : Nat) : State :=
  if s.fillRuns c x then s
  else
    let old := s.fab.fills.find? (fun f => f.ctx == c && f.rank.toNat == x)
    let spare := match old with
      | some f => some f.spare.toNat
      | none => s.unusedSpare c
    match spare, s.replica c x with
    | some p, some y =>
      s.assignFill ⟨c, BitVec.ofNat 12 x, match old with
        | some f => f.lost
        | none => s.domPeer c x, BitVec.ofNat 12 p, s.domPeer c y, 0⟩
    | _, _ => s

/-- The acting root sees to every lost rank. -/
def State.startFills (s : State) (c : Ctx) : State :=
  if s.domRank c = some (s.gctx c).root then (s.gctx c).lost.foldl (fun s x => s.startFill c x) s else s

/-- FILL_ASSIGNMENT_ARRIVAL (R505). -/
def State.serveFill (s : State) (p : Packet) : Option State := some ((s.recordFill (fillOf p)).floodFill (fillOf p))

def execFillAssignmentArrival (pk : Packet) (s : State) : Host.Outcome State Fault Refusal :=
  .next (s.takePacket pk [0x26] State.serveFill)

/-- A byte, or a bit, that comes from the source: not known to this device (log entry 1). -/
def State.cameByte (s : State) (a : Nat) : Byte := Config.freeBits 8 ((s.nonce + 1) * 2 ^ 80 + a)
def State.cameBit (s : State) (a : Nat) : Bool := Config.freeBool ((s.nonce + 1) * 2 ^ 80 + a)
def State.came (s : State) (w a : Nat) : BitVec w := Config.freeBits w ((s.nonce + 1) * 2 ^ 80 + 2 ^ 60 + a)

/-- Overwrite a frame with what the source sent: bytes, granule tags, poison and attempt tags. -/
def State.takeFrame (s : State) (f : Nat) : State :=
  let s : State := { s with mem := (List.range 65536).foldl (fun m i => writeByte m (f * 65536 + i) (s.cameByte (f * 65536 + i))) s.mem }
  let s : State := { s with tags := (List.range 4096).foldl (fun m i => Map.set false m (f * 4096 + i) (s.cameBit (f * 4096 + i))) s.tags }
  let s : State := { s with pois := (List.range 2048).foldl (fun m i =>
    Map.set false m (f * 2048 + i) (s.cameBit (2 ^ 58 + f * 2048 + i))) s.pois }
  { s with leafTag := (List.range 1024).foldl (fun m i => Map.set 0 m (f * 1024 + i) (s.came 16 (f * 1024 + i))) s.leafTag }

/-- A frame reads zero. -/
def State.zeroFrame (s : State) (f : Nat) : State :=
  { s with mem := s.mem.filter (fun c => c.1 / 65536 != f), tags := s.tags.filter (fun c => c.1 / 4096 != f),
           pois := s.pois.filter (fun c => c.1 / 2048 != f) }

/-- Frames of this device that a context's pages map, with the shadow of each. -/
def State.framesOf (s : State) (c : Ctx) (shared : Bool) : List Nat :=
  let t := s.fillTable c
  (s.ctx c).pages.flatMap (fun p =>
    if s.remote p.pa || t.shares p.va != shared then []
    else (unitsOf 65536 (p.pa % 2 ^ 45) (2 ^ p.sz)).flatMap (fun f => f :: (s.shadowOf f).toList))

/-- The context as the source sent it (R505 step 4): step position, random seed, loss check, sequence numbers, handler programs,
tensor handles, Dovetail table. -/
def State.takeContext (s : State) (c : Ctx) : State :=
  let r := s.ctx c
  let st := { r.step with g := s.came 16 1, t := s.came 16 2, k := s.came 64 3 }
  let dead := (List.range 65536).foldl (fun m i =>
    Map.set none m i (if s.cameBit (2 ^ 59 + i) then some s.pkg.pass.toNat else none)) []
  let s := s.setCtx c { r with step := st, dead := dead, rngseed := s.came 64 4, losslim := s.came 64 5, lossrun := s.came 64 6 }
  let g := s.gctx c
  let nseq := (List.range 16).foldl (fun m i => Map.set 0 m i (s.came 32 (16 + i))) []
  let prog := (List.range 32).foldl (fun m h => Map.set [] m h
    (if s.cameBit (2 ^ 59 + 65536 + h) then (List.range 64).map (fun i => s.came 32 (1024 + 64 * h + i)) else [])) []
  let s := s.setGctx c { g with nseq := nseq, prog := prog }
  let h := (List.range 4096).foldl (fun m i => Map.set handleReset m (c.toNat * 4096 + i) (s.came 512 (8192 + i))) s.pkg.handles
  let s := s.setPkg { s.pkg with handles := h }
  let d := s.pkg.dv
  if d.ctx ≠ c then s
  else
    let n := (s.came 9 7).toNat
    s.setDove { d with n := n, ents := (List.range n).map (fun i => s.came 128 (16384 + i)), pos := (s.came 9 8).toNat,
                       slots := (List.range 64).foldl (fun m i => Map.set 0 m i (s.came 2 (32768 + i))) [] }

/-- The source and the spare count the frames of a fill as they pass: which cycle each takes is a free choice (log entry 83). -/
def State.fillGoesOn (s : State) (f : Fill) : State :=
  if (s.peer ≠ f.spare && s.peer ≠ f.src) || (s.tableAway f.ctx).isSome || !s.choice (2 ^ 23 + f.rank.toNat) then s
  else match (s.framesOf f.ctx true)[f.done]? with
    | none => s
    | some x =>
      let s := if s.peer = f.spare then s.takeFrame x else s
      let f' := { f with done := f.done + 1 }
      s.setFab { s.fab with fills := s.fab.fills.map (fun y => if y.ctx == f.ctx && y.rank == f.rank then f' else y),
                            fillSt := fillWord f' true }

def State.fillsGoOn (s : State) : State := s.fab.fills.foldl (fun s f => (s.tableFetch f.ctx).fillGoesOn f) s

/-- FSUB, GLUL and FILLST as a fill completes (R500, R505). -/
def State.fillEnds (s : State) (f : Fill) : State :=
  let run := bitsOf s.fab.fillSt 0 1 == 1 && (s.peer == f.spare || s.peer == f.src)
  let subs := if s.fab.subs.length < 16 && !s.fab.subs.any (fun x => x.old == f.lost) then s.fab.subs ++ [⟨f.lost, f.spare⟩] else s.fab.subs
  let s := s.setFab { s.fab with
    subs := subs, fills := s.fab.fills.filter (fun x => !(x.ctx == f.ctx && x.rank == f.rank)),
    fillSt := if run then fillWord { f with done := (s.framesOf f.ctx true).length } false else s.fab.fillSt }
  let g := s.gctx f.ctx
  s.setGctx f.ctx { g with lost := g.lost.filter (fun r => r != f.rank.toNat), heard := Map.set 0 g.heard f.rank.toNat s.cyc }

/-- STATE returns to 0, or to 7 where ABRT has reached ALIM (R494); a retry that waits opens. -/
def State.leaveTo0 (s : State) (c : Ctx) : State :=
  let g := s.gctx c
  if g.alim ≠ 0 && g.alim ≤ g.abrt.toNat then (s.faultStreams c (s.holders c)).setGctx c { g with st := 7 }
  else (s.setGctx c { g with st := 0 }).reopenStep c

/-- FILL_COMPLETE (R505): at the spare, what is left of the shared regions has come; the pages outside read zero; the Mortise starts
empty; a fill done goes to every member. -/
def execFillComplete (ctx : Ctx) (s : State) : Host.Outcome State Fault Refusal :=
  .next (match s.fab.fills.find? (fun f => f.ctx == ctx && f.spare == s.peer) with
    | none => s
    | some f =>
      if (s.tableAway ctx).isSome then s else
      let s := ((s.framesOf ctx true).drop f.done).foldl (fun s x => s.takeFrame x) s
      let s := (s.framesOf ctx false).foldl (fun s x => s.zeroFrame x) s
      let s := s.takeContext ctx
      let s := if s.pkg.mo.ctx = ctx then s.setMo { s.pkg.mo with table := [], orph := [] } else s
      let s := s.fillEnds f
      (List.range (s.gctx ctx).nm).foldl (fun s r =>
        if r = f.rank.toNat || (s.gctx ctx).lost.contains r then s else s.sendGlu ctx r 0x27 f.bytes) s)

/-- FILL_DONE_ARRIVAL (R505): the spare is rank x; with no rank left to fill, steps run again. -/
def State.serveFillDone (s : State) (p : Packet) : Option State :=
  some (
    let s := s.fillEnds (fillOf p)
    let g := s.gctx p.ctx
    if g.st = 6 && g.lost.isEmpty then s.leaveTo0 p.ctx else s)

def execFillDoneArrival (pk : Packet) (s : State) : Host.Outcome State Fault Refusal :=
  .next (s.takePacket pk [0x27] State.serveFillDone)

/-! ## Leaving STATE 5 (R489, R503) and the checkpoint path (R507) -/

/-- Keys of the poisoned set leaves of a context's versioned lines: the primary key of each line's sector. -/
def State.poisonedLeaves (s : State) (c : Ctx) : List Nat :=
  s.pois.flatMap (fun e =>
    let k := 32 * e.1
    s.frames.filterMap (fun fr => match fr.2 with
      | none => none
      | some f =>
        let prim := fr.1 * 65536 + k % 65536
        let at_ := if fr.1 = k / 65536 then some 0 else if f.shadow = k / 65536 then some 1 else none
        if e.2 && f.ctx = c && f.part.toNat.testBit (k % 65536 / 4096) && at_ == some (s.setLeaf c (prim / 128)) then some prim else none))

/-- Device-virtual addresses at which a context maps a local address. -/
def State.vasOf (s : State) (c : Ctx) (k : Nat) : List Nat :=
  let pa := s.peer.toNat * 2 ^ 45 + k
  (s.ctx c).pages.filterMap (fun p => if p.pa ≤ pa && pa < p.pa + 2 ^ p.sz then some (p.va + (pa - p.pa)) else none)

/-- The last decision was an abort with CORR. -/
def GCtx.corrAbort (g : GCtx) : Bool := bitsOf g.gdec 15 1 == 0 && bitsOf g.gdec 2 1 == 1

/-- A poisoned set leaf that no replica can repair (R503). -/
def State.unrepairable (s : State) (c : Ctx) : Bool :=
  (s.gctx c).corrAbort && (s.poisonedLeaves c).any (fun k =>
    !(s.vasOf c k).any (s.fillTable c).shares || (match s.domRank c with
      | some me => (s.replica c me).isNone
      | none => true))

/-- DECIDED_STATE_EXIT (R489): every effect of the decision is done. -/
def execDecidedStateExit (ctx : Ctx) (s : State) : Host.Outcome State Fault Refusal :=
  .next (
    let g := s.gctx ctx
    if g.st ≠ 5 || ((g.corrAbort || !g.lost.isEmpty) && (s.tableAway ctx).isSome) || (s.pkg.mo.ctx == ctx && s.pkg.mo.await.isSome) || (g.corrAbort && !(s.poisonedLeaves ctx).isEmpty) then s
    else if bitsOf g.gdec 16 1 = 1 && !g.lost.isEmpty then (s.setGctx ctx { g with st := 6 }).startFills ctx
    else s.leaveTo0 ctx)

/-- The acting root has a reason to halt the domain: a lost rank that no fill can replace, poison that nothing repairs. Poison at
another member is not known here: a free choice (log entry 1). -/
def State.mustHalt (s : State) (c : Ctx) : Bool :=
  let g := s.gctx c
  (g.st == 6 && g.lost.any (fun x => !s.fillRuns c x)) ||
  (g.st == 5 && g.corrAbort && (s.unrepairable c || s.choice 303))

/-- CHECKPOINT_PATH_HALT (R507): the acting root floods the halt. -/
def execCheckpointPathHalt (ctx : Ctx) (s : State) : Host.Outcome State Fault Refusal :=
  .next (
    if s.domRank ctx = some (s.gctx ctx).root && (s.tableAway ctx).isNone && s.mustHalt ctx then
      let st := (s.ctx ctx).step
      s.applyDecision ctx ⟨st.k, st.t, 0, false, [], false, true⟩
    else s)

/-! ## Core failure (R502) -/

/-- CORE_FAILURE (R502): the core in focus fails; with no spare core left the device sends a lost notice for itself. -/
def execCoreFailure (s : State) : Host.Outcome State Fault Refusal :=
  .next (if s.spareUsed s.clu then s.failCore.lostSelf else s.failCore)

/-! ## Packets that wait aside, and packets to this device itself -/

/-- Serve any packet by its OP (R446, 20 R474, 21 R487). -/
def State.serve (s : State) (p : Packet) : Option State :=
  match p.op.toNat with
  | 0x01 => s.serveLoad p
  | 0x02 | 0x03 | 0x04 | 0x05 => s.serveWrite p
  | 0x06 => s.serveAnswer p
  | 0x07 => s.serveFree p
  | 0x08 => s.serveReward p
  | 0x10 | 0x11 => s.serveColl p
  | 0x12 => s.serveCollAck p
  | 0x13 => s.servePlane p
  | 0x14 => s.serveVnCancel p
  | 0x15 => s.serveVnAck p
  | 0x20 | 0x22 => s.serveVote p
  | 0x21 => s.serveDecision p
  | 0x23 => s.serveBarArrival p
  | 0x24 => s.serveBarRelease p
  | 0x25 => s.serveNotice p
  | 0x26 => s.serveFill p
  | 0x27 => s.serveFillDone p
  | _ => some s

/-- Packets that this device has sent to itself arrive. -/
def State.deliverOwn (s : State) : State :=
  let own := s.fab.out.filter (fun p => p.dst == s.peer)
  own.foldl (fun s p => s.takePacket p [p.op.toNat] State.serve) (s.setFab { s.fab with out := s.fab.out.filter (fun p => p.dst != s.peer) })

/-- The glue-up of a context as a cycle passes: STATE 4, keep-alives, children and ancestors that are silent, votes that are due, fabric
barriers. -/
def State.gluTick (s : State) (c : Ctx) : State :=
  if (s.domRank c).isNone then s
  else
    let s := (s.enterVoting c).tableFetch c
    let s := if (s.gctx c).kaAt + 2 ^ 16 ≤ s.cyc then s.keepAlive c else s
    let s := match s.domRank c with
      | some me => ((((s.gctx c).children me).foldl (fun s r => s.judge c me r) s).cutOff c me).vetoDue c me |>.voteWaits c me
      | none => s
    (List.range 8).foldl (fun s n => s.fbarTry c n) s

end Sys2Proof.Machine
end

