-- ==== Sys2Proof/Machine/Csr.lean ====
section
/-! DEFINITION. Control registers (03 R92, R93): what each number reads as, what a write does, CSRR, CSRW, CSRS, CSRC, and the
writes with an effect of their own: LC (R86), gauges (11 R311), MOLAG and MOICUR (17 R407), DWLOAD (19 R452), COLLGRP (20 R462),
GLUCFG and FILLB (21 R486), SCRCFG, SCRR and SCRH (21 R497). A read of a register for which R312 gives a window returns what
the device held at one cycle of the window, which one being free (log entry 40). -/
namespace Sys2Proof.Machine

/-! ## Access -/

/-- Read-write (true) or read-only; none where the number is unassigned (R92, R93, R166, R207, R240, R247, R273, R322, R355, R392, R394,
R410, R429 to R434, R438, R440, R448, R452, R459, R483, R486, R497, R500, R508). -/
def csrAccess (n : Nat) : Option Bool :=
  let rw := [0x001, 0x002, 0x003, 0x010, 0x011, 0x014, 0x080, 0x081, 0x082, 0x083, 0x0A0, 0x0A1, 0x0B0, 0x0B1, 0x0B2, 0x0B3, 0x0B4,
    0x3A1, 0x3A2, 0x3A3, 0x3A4, 0x3C1, 0x3C2, 0x50C, 0x541, 0x560, 0x563, 0x5D0, 0x5D2, 0x5D3, 0x600]
  let ro := [0x000, 0x012, 0x013, 0x016, 0x084, 0x085, 0x086, 0x0C0, 0x0C1, 0x0C2, 0x0C3, 0x0C4, 0x0D0, 0x390, 0x391, 0x3A0, 0x3A5, 0x3A6,
    0x3C0, 0x3E0, 0x3E1, 0x440, 0x441, 0x442, 0x443, 0x50D, 0x540, 0x542, 0x561, 0x562, 0x564, 0x5D1, 0x5D4, 0x601]
  let rws := [(0x140, 0x17F), (0x200, 0x2FF), (0x3C4, 0x3C7), (0x520, 0x52F)]
  let ros := [(0x090, 0x09F), (0x0D8, 0x0E3), (0x100, 0x107), (0x190, 0x19F), (0x1C0, 0x1EF), (0x300, 0x33F), (0x340, 0x343),
    (0x380, 0x38B), (0x3A8, 0x3AB), (0x3C8, 0x3CF), (0x400, 0x42F), (0x450, 0x46E), (0x480, 0x4FF), (0x500, 0x50B), (0x530, 0x53F),
    (0x570, 0x577), (0x580, 0x5BF), (0x5C0, 0x5CF), (0x610, 0x61F), (0x620, 0x62F)]
  let within (l : List (Nat × Nat)) : Bool := l.any (fun r => decide (r.1 ≤ n) && decide (n ≤ r.2))
  if rw.contains n || within rws then some true else if ro.contains n || within ros then some false else none

/-- A register of the Mortise or the Dovetail (17 R393). -/
def isMoCsr (n : Nat) : Bool := decide (0x3A0 ≤ n) && decide (n ≤ 0x3AB)
def isDvCsr (n : Nat) : Bool := decide (0x3C0 ≤ n) && decide (n ≤ 0x3CF)

/-- The piece may reach the register; `wr` asks for a write. DVCFG, DVLRB and the links are read-only while the table runs (R410). -/
def State.csrMay (s : State) (n : Nat) (wr : Bool) : Bool :=
  let c := s.core.pc.ctx
  let dv := s.pkg.dv
  (match csrAccess n with
    | none => false
    | some rw => rw || !wr) &&
  !(isMoCsr n && s.pkg.mo.ctx != c) && !(isDvCsr n && dv.ctx != c) && !(isDvCsr n && wr && dv.st == 2)

/-! ## Words -/

/-- Fields (value, lowest bit) as one word. -/
def csrWord (l : List (Nat × Nat)) : W64 := BitVec.ofNat 64 (l.foldl (fun n f => n + f.1 * 2 ^ f.2) 0)

/-- Bits `f 0`, `f 1`, ... as one word. -/
def csrBits (n : Nat) (f : Nat → Bool) : W64 := BitVec.ofNat 64 (packLanes 1 ((List.range n).map (fun i => (f i).toNat)))

/-- Occupancies (06 R187). -/
def State.qocc (s : State) : W64 :=
  let q (c : Nat) : Nat := (s.core.q c).occ s.cyc
  let r (c : Nat) : Nat := (s.core.rq c).occ s.cyc
  csrWord [(q 9, 41), (q 8, 36), (r 7, 33), (r 6, 30), (q 5, 25), (q 4, 20), (q 3, 15), (q 2, 10), (q 1, 5), (q 0, 0)]

/-- SHAPEn (06 R189). -/
def shapeWord (x : Shape) : W64 := csrWord [(x.val.toNat, 27), (x.fmt.toNat, 23), (x.rows.toNat, 16), (x.klen.toNat, 0)]

/-- ROUTEnB, ROUTEnP and ROUTEnC (07 R230). -/
def routeWord (x : Route) (i : Nat) : W64 :=
  match i with
  | 0 => csrWord [(x.addr.toNat, 0)]
  | 1 => csrWord [(x.adv.toNat, 32), (x.pitch.toNat, 0)]
  | _ => csrWord [(x.val.toNat, 63), (x.dg.toNat, 62), (x.dgn.toNat, 54), (x.vw.toNat, 53), (x.seq.toNat, 32)]

/-- A barrier of a cluster (11 R315), of the device (13 R354). -/
def barWord (b : Barrier) (clu : Bool) : W64 :=
  csrWord [(b.round.toNat, 32), (b.ctx.toNat, 28), (b.open_.toNat, 27), (b.fix.toNat, if clu then 4 else 18), (b.arr.toNat, 0)]

/-- STOPST and DSTOPST (11 R314). -/
def State.stopWord (s : State) (dev : Bool) : W64 :=
  let k (i : Nat) : Stop := s.stop (s.stopKey dev i)
  if dev then csrBits 64 (fun i => (k i).held.isSome)
  else csrBits 32 (fun i => if i < 16 then (k i).held.isSome else (k (i - 16)).true_)

/-- Piece registers of S, steps, context (R86, R88, R16, R40, R63, R79, R102, R273). -/
def State.csrPiece (s : State) (n : Nat) : W64 :=
  let p := s.core.pc
  let r := s.ctx p.ctx
  match n with
  | 0x000 => BitVec.ofNat 64 s.cyc
  | 0x001 => p.lc
  | 0x002 => p.lb
  | 0x003 => p.le
  | 0x010 => p.tvec
  | 0x011 => p.epc
  | 0x012 => p.tcause
  | 0x013 => p.taddr
  | 0x014 => p.tpc
  | 0x080 => p.vwin
  | 0x081 => p.erchk
  | 0x082 => p.fpst.zeroExtend 64
  | 0x083 => p.l1cfg.zeroExtend 64
  | 0x084 => s.qocc
  | 0x085 => s.core.use.zeroExtend 64
  | 0x086 => s.engsp
  | 0x0A0 => r.losslim
  | 0x0A1 => r.lossrun
  | 0x0B0 => r.rngseed
  | 0x0B1 => p.rngtid
  | 0x0B2 =>
    let h := (p.crdHist.filter (fun e => decide (s.cyc < e.1 + 3))).map Prod.snd
    (p.rngcrd :: h).getD (s.freeIdx 310 % (h.length + 1)) p.rngcrd
  | 0x0B3 => p.rngstr
  | 0x0B4 => p.rngadv
  | 0x0C0 => r.step.g.zeroExtend 64
  | 0x0C1 => r.step.t.zeroExtend 64
  | 0x0C2 => csrWord [(p.stepIn.toNat, 0)]
  | 0x0C3 => r.step.k
  | 0x0C4 => r.step.vf.zeroExtend 64
  | 0x0D0 => p.mgrant
  | _ => if 0x0D8 ≤ n then routeWord (s.core.routeOf ((n - 0x0D8) / 3)) ((n - 0x0D8) % 3) else shapeWord (s.core.shapeOf (n - 0x090))

/-- Registers of the cluster (11 R322) and of the die (13 R355). -/
def State.csrCluster (s : State) (n : Nat) : W64 :=
  let c := s.clu
  let modes (lo k : Nat) : W64 := BitVec.ofNat 64 (packLanes 2 ((List.range k).map (fun i => (s.bank c (lo + i)).mode.toNat)))
  if n = 0x100 then modes 0 32
  else if n = 0x101 then modes 32 16
  else if n = 0x102 then csrBits 48 (fun i => (s.bank c i).busy s.cyc)
  else if n = 0x103 then (s.spares c).zeroExtend 64
  else if n = 0x104 then csrWord [(s.k / 96, 7), (s.k / 8 % 12, 3), (s.k % 8, 0)]
  else if n = 0x105 then Map.get 0 s.shr.clerr c
  else if n = 0x106 then s.stopWord false
  else if n = 0x107 then s.stopWord true
  else if n ≤ 0x17F then (s.readGauge (c * 64 + (n - 0x140)) 3 311).zeroExtend 64
  else if n ≤ 0x19F then barWord (s.barrier (c * 16 + (n - 0x190))) true
  else if n ≤ 0x1EF then
    (if (s.bank c (n - 0x1C0)).mode = 2 then BitVec.ofNat 64 (Map.get [] s.shr.fifo (c * 48 + (n - 0x1C0))).length else 0)
  else if n ≤ 0x2FF then (s.readGauge (65536 + (n - 0x200)) 40 311).zeroExtend 64
  else if n ≤ 0x33F then barWord (s.barrier (65536 + (n - 0x300))) false
  else csrBits 64 (fun i => s.gaugeErr (64 * (n - 0x340) + i))

/-- Registers of memory (16 R392), Mortise (17 R394) and Dovetail (17 R410). -/
def State.csrUnit (s : State) (n : Nat) : W64 :=
  let m := s.pkg.mo
  let d := s.pkg.dv
  let pair (hi lo : W32) : W64 := csrWord [(hi.toNat, 32), (lo.toNat, 0)]
  if n ≤ 0x38B then
    let x := s.stackAt (n - 0x380)
    csrWord [(x.sch.toNat, 48), (x.ret.toNat, 32), (x.ue.toNat, 16), (x.ce.toNat, 0)]
  else match n with
    | 0x390 => csrWord [(s.pkg.pass.toNat, 32), ((s.ctx s.core.pc.ctx).lag % 4096, 0)]
    | 0x391 => s.pkg.pfree.zeroExtend 64
    | 0x3A0 => m.cfg
    | 0x3A1 => m.ifb
    | 0x3A2 => m.parm
    | 0x3A3 => m.dryLag.getD m.lag
    | 0x3A4 => (m.dryIcur.getD m.icur).zeroExtend 64
    | 0x3A5 => m.rc.zeroExtend 64
    | 0x3A6 => csrWord [(m.orph.length, 32), (m.table.length, 0)]
    | 0x3A8 => pair m.dup m.rel
    | 0x3A9 => pair m.orpl m.orphN
    | 0x3AA => pair m.tzr m.tout
    | 0x3AB => pair m.refuse m.stale
    | 0x3C0 => csrWord [(d.code.toNat, 56), (d.ctx.toNat, 52), (d.st.toNat, 45), (d.ina.toNat, 44), (d.n, 16), (d.pos, 0)]
    | 0x3C1 => d.nst.zeroExtend 64
    | 0x3C2 => d.lrb
    | 0x3C8 => BitVec.ofNat 64 (packLanes 2 ((List.range 32).map (fun i => (d.slot i).toNat)))
    | 0x3C9 => BitVec.ofNat 64 (packLanes 2 ((List.range 32).map (fun i => (d.slot (32 + i)).toNat)))
    | 0x3CA => (d.entry d.pos).truncate 64
    | 0x3CB => ((d.entry d.pos) >>> 64).truncate 64
    | _ => if 0x3CC ≤ n then Map.get 0 d.bub (n - 0x3CC) else d.link (n - 0x3C4)

/-- Registers of power (18 R434), the fabric (19 R438, R440, R448) and Dowel (19 R452, R459). The averaged power and the
temperatures are those that the events of R434 have measured last (DESIGN CHOICE, log entry 84). -/
def State.csrFabric (s : State) (n : Nat) : W64 :=
  let f := s.fab
  let g := s.gctx s.core.pc.ctx
  if n = 0x3E0 then s.pkg.pcap.zeroExtend 64
  else if n = 0x3E1 then
    csrWord [(s.pkg.pwr.toNat, 16), (s.pkg.mhz.toNat, 0)]
  else if n ≤ 0x42F then (Map.get 0 s.pkg.temp (n - 0x400)).zeroExtend 64
  else if n = 0x440 then s.peer.zeroExtend 64
  else if n = 0x441 then csrWord [(f.members.toNat, 8), (f.groups.toNat, 0)]
  else if n = 0x442 then csrWord [(f.tout.toNat, 32), (f.disc.toNat, 16), (f.spf, 0)]
  else if n = 0x443 then csrWord [(f.mcStl.toNat, 14), (s.mcHeld, 0)]
  else if n ≤ 0x46E then
    let l := s.linkOf false (n - 0x450)
    csrWord [(l.rty.toNat, 32), (l.weak.n, 16), (l.weak.sp, 8), (l.st.toNat, 0)]
  else if n ≤ 0x4FF then
    let l := s.linkOf true (n - 0x480)
    csrWord [(l.rty.toNat, 32), (l.weak.n, 16), (l.weak.sp, 9), (l.sfb.toNat, 8), (l.st.toNat, 0)]
  else if n ≤ 0x50B then
    let d := s.dowelOf (n - 0x500)
    csrWord [(d.ops.toNat, 32), (d.hf.toNat, 16), (d.lcode.toNat, 8), (d.lhn.toNat, 0)]
  else if n = 0x50C then g.dwload
  else csrWord [(g.hwidx.toNat, 8), (g.hload.isSome.toNat, 7), (g.herr.toNat, 0)]

/-- Registers of collectives and Veneer (20 R483), glue-up (21 R486, R500, R508), Scribe (21 R497) and Ethernet (18 R430,
R433). Where this device has no rank GLUST.RANK is free. -/
def State.csrGlue (s : State) (n : Nat) : W64 :=
  let f := s.fab
  let c := s.core.pc.ctx
  let g := s.gctx c
  if n ≤ 0x52F then Map.get 0 g.grp (n - 0x520)
  else if n ≤ 0x53F then (Map.get 0 g.nseq (n - 0x530)).zeroExtend 64
  else if n = 0x540 then
    csrWord [(f.cflt.toNat, 48), (f.clcode.toNat, 40), (f.clgrp.toNat, 36), (f.clalg.toNat, 34), (f.colls.length, 0)]
  else if n = 0x541 then g.vncfg
  else if n = 0x542 then csrWord [(f.vdisc.toNat, 48), (f.vcanc.toNat, 32), (f.vconf.toNat, 16), (f.vns.length, 0)]
  else if n = 0x560 then g.glucfg
  else if n = 0x561 then
    let rank := match s.domRank c with
      | some r => r
      | none => (s.free 12 313).toNat
    csrWord [(g.abrt.toNat, 48), (g.root, 20), (rank, 8), (s.gluState c, 0)]
  else if n = 0x562 then g.gdec
  else if n = 0x563 then g.fillb
  else if n = 0x564 then f.fillSt
  else if n ≤ 0x577 then
    let b := s.barrier (fbarKey c (n - 0x570))
    csrWord [(b.round.toNat, 32), ((Map.get false g.barSent (n - 0x570)).toNat, 28), (b.open_.toNat, 27), (b.fix.toNat, 18),
      (b.arr.toNat, 0)]
  else if n ≤ 0x5BF then csrBits 64 (fun i => g.lost.contains (64 * (n - 0x580) + i))
  else if n ≤ 0x5CF then
    (match f.subs[n - 0x5C0]? with
      | some x => csrWord [(1, 63), (x.sub.toNat, 12), (x.old.toNat, 0)]
      | none => 0)
  else match n with
    | 0x5D0 => g.scrcfg
    | 0x5D1 => g.scrw
    | 0x5D2 => g.scrh
    | 0x5D3 => g.scrr
    | 0x5D4 => csrWord [(g.dkind.toNat, 16), (g.dunit.toNat, 8), (g.sfull.toNat, 2), (g.sdiv.toNat, 1), (g.rpl.toNat, 0)]
    | 0x600 => 0
    | 0x601 => s.pkg.ethUp.zeroExtend 64
    | _ =>
      let p := s.port (n % 16)
      if n ≤ 0x61F then csrWord [(p.rxf.toNat, 32), (p.txf.toNat, 0)]
      else csrWord [(p.fcs.toNat, 48), (p.drop.toNat, 32), (p.poi.toNat, 16), (p.db.toNat, 8), (p.flt.toNat, 0)]

/-- The register numbered `n` as it stands, where it is assigned. -/
def State.csrNow (s : State) (n : Nat) : W64 :=
  if n ≤ 0x0E3 then s.csrPiece n
  else if n ≤ 0x343 then s.csrCluster n
  else if n ≤ 0x3CF then s.csrUnit n
  else if n ≤ 0x50D then s.csrFabric n
  else s.csrGlue n

/-- Cycles by which a read of the register may lag (R312): 40 where its rule names device gauges (R322, R355, R392, R394, R433,
R483, R497, and the whole of 19), 3 for STOPST. Gauges have their own history. -/
def csrLag (n : Nat) : Nat :=
  let late := [(0x107, 0x107), (0x300, 0x343), (0x380, 0x391), (0x3A0, 0x3AB), (0x440, 0x50D), (0x520, 0x542), (0x5D0, 0x5D4), (0x601, 0x62F)]
  if n = 0x106 then 3 else if late.any (fun r => decide (r.1 ≤ n) && decide (n ≤ r.2)) then 40 else 0

/-- The state with what the device held at the end of an earlier cycle. -/
def State.asOf (s : State) (e : Past) : State :=
  { s with shr := e.shr, die := e.die, ctxs := e.ctxs, pkg := e.pkg, fab := e.fab }

/-- What a CSRR of the register returns: its value now, or at the end of a cycle of its window. -/
def State.csrValue (s : State) (n : Nat) : W64 :=
  let l := s.past.filter (fun e => decide (s.cyc ≤ e.cyc + csrLag n))
  match l[s.freeIdx 315 % (l.length + 1)]? with
  | some e => (s.asOf e).csrNow n
  | none => s.csrNow n

/-! ## Writes -/

/-- What CSRW, CSRS and CSRC make of the old value. -/
inductive CsrOp where
  | w | s | c
  deriving DecidableEq, Repr

def CsrOp.apply (o : CsrOp) (old x : W64) : W64 :=
  match o with
  | .w => x
  | .s => old ||| x
  | .c => old &&& ~~~x

/-- Bits that are not reserved. -/
def csrMask (n : Nat) : W64 :=
  match n with
  | 0x010 => ~~~(3 : W64)
  | 0x014 => ~~~(3 : W64)
  | 0x080 => 0xF03
  | 0x081 => 0xF
  | 0x082 => 0x3F
  | 0x083 => 3
  | 0x0A1 => 0xFFFFFFFF
  | 0x0B1 => 0xFFFFFFFF
  | 0x3A1 => 0xFFFFFFFFFFFFFF
  | 0x3A4 => 0xFFFFFFFF
  | 0x3C1 => 0x7F
  | 0x3C2 => 0xFFFFFFFFFFFFFF
  | 0x50C => 0x1FFFFFFFFFFFFF3F
  | 0x541 => 0x2FF
  | 0x560 => 0xFF3FFFFFFFFE0000
  | 0x563 => 0xFFFFFFFFFFFFFF
  | 0x5D0 => 0xFFFFFFFFFFF33F
  | _ =>
    if 0x3C4 ≤ n && n ≤ 0x3C7 then 0x80000FFF0000FFFF
    else if 0x520 ≤ n && n ≤ 0x52F then 0x1FFFFFFFFF000000
    else BitVec.allOnes 64

/-- A write to a generator register: its old value may still be seen (05 R167). -/
def State.rngWrite (s : State) (i : Nat) (v : W64) : State :=
  let p := s.core.pc
  let cur := match i with
    | 0 => (s.ctx p.ctx).rngseed
    | 1 => p.rngtid
    | 2 => p.rngcrd
    | 3 => p.rngstr
    | _ => p.rngadv
  let s := s.setPiece { p with
    rngOld := Map.set [] p.rngOld i ((s.cyc, cur) :: (Map.get [] p.rngOld i).filter (fun e => decide (s.cyc < e.1 + 3))) }
  let p := s.core.pc
  match i with
  | 0 => s.setCtx p.ctx { s.ctx p.ctx with rngseed := v }
  | 1 => s.setPiece { p with rngtid := v }
  | 2 => s.setPiece { p with rngcrd := v, crdHist := [] }
  | 3 => s.setPiece { p with rngstr := v }
  | _ => s.setPiece { p with rngadv := v }

/-- A write of a gauge (11 R311): it takes effect 2 cycles later, or 20 for the device. -/
def State.gaugeWrite (s : State) (key : Nat) (op : CsrOp) (v : W32) : State :=
  let kind : BitVec 2 := match op with
    | .w => 0
    | .s => 1
    | .c => 2
  let w : GaugeWr := ⟨s.cyc + (if 65536 ≤ key then 20 else 2), kind, v, false⟩
  s.setShr { s.shr with gaugeWr := Map.set [] s.shr.gaugeWr key (Map.get [] s.shr.gaugeWr key ++ [w]) }

/-- A step of the piece's context is open, or its decision or retry is awaited. -/
def State.stepBusy (s : State) : Bool :=
  let st := (s.ctx s.core.pc.ctx).step
  st.open_ || st.wait

/-- The rule of R486: Step State inside the attempt, else a stall while a step is open. -/
def State.stepRule (s : State) : Chk Unit :=
  if s.core.pc.stepIn then raise .stepState else if s.stepBusy then .error .wait else .ok ()

/-- MOLAG and MOICUR (R407): dry inside a step; ICUR keeps its value where the written one is refused. -/
def State.moWriteReg (s : State) (icur : Bool) (v : W64) : State :=
  let m := s.pkg.mo
  let w : W32 := v.truncate 32
  if s.core.pc.stepIn then s.setMo (if icur then (if m.icurOk w then { m with dryIcur := some w } else m) else { m with dryLag := some v })
  else s.setMo (if icur then (if m.icurOk w then { m with icur := w } else m) else { m with lag := v })

/-- DWLOAD (19 R452): a load begins; the write waits while one is in progress. -/
def State.dwloadWrite (s : State) (v : W64) : Chk State :=
  let c := s.core.pc.ctx
  let g := s.gctx c
  if g.hload.isSome then .error .wait
  else .ok (s.setGctx c { g with dwload := v, hload := some ⟨BitVec.ofNat 5 (bitsOf v 56 5), BitVec.ofNat 64 (bitsOf v 8 48 * 256),
    bitsOf v 0 6 + 1, []⟩ })

/-- COLLGRPn (20 R462). -/
def State.collgrpWrite (s : State) (n : Nat) (v : W64) : Chk State :=
  let c := s.core.pc.ctx
  let g := s.gctx c
  if s.core.pc.stepIn then raise .stepState
  else if s.fab.colls.any (fun x => x.ctx == c && pbGrp x.blk == n) then .error .wait
  else .ok (s.setGctx c { g with grp := Map.set 0 g.grp n v, nseq := Map.set 0 g.nseq n 0 })

/-- GLUCFG and FILLB (21 R486). The silence of R501 is counted from the write. -/
def State.glucfgWrite (s : State) (fillb : Bool) (v : W64) : Chk State := do
  s.stepRule
  let c := s.core.pc.ctx
  let g := s.gctx c
  .ok (s.setGctx c (if fillb then { g with fillb := v } else { g with glucfg := v, heard := [], heardFrom := s.cyc, kaAt := s.cyc }))

/-- SCRCFG and SCRR (21 R497). -/
def State.scrcfgWrite (s : State) (scrr : Bool) (v : W64) : Chk State := do
  s.stepRule
  let c := s.core.pc.ctx
  let g := s.gctx c
  let moved := bitsOf v 12 44 != bitsOf g.scrcfg 12 44 || bitsOf v 0 6 != bitsOf g.scrcfg 0 6
  .ok (s.setGctx c (if scrr then { g with scrr := v }
    else if moved then { g with scrcfg := v, scrw := 0, scrh := 0 } else { g with scrcfg := v }))

/-- SCRH (21 R497): ignored outside [H, W]. -/
def State.scrhWrite (s : State) (v : W64) : State :=
  let c := s.core.pc.ctx
  let g := s.gctx c
  if g.scrh.toNat ≤ v.toNat && v.toNat ≤ g.scrw.toNat then s.setGctx c { g with scrh := v } else s

/-- L1CFG (06 R194): it takes effect at CORE_SCRATCH_SWITCH_END; a second write waits for the first. -/
def State.l1cfgWrite (s : State) (v : W64) : Chk State :=
  let p := s.core.pc
  if p.l1pend.isSome then .error .wait else .ok (s.setPiece { p with l1pend := some (v.truncate 2, s.nextId) })

/-- A loop that a write of LC, LB or LE makes anew is fetched anew (03 R86; log entry 67). -/
def State.freshLoop (s : State) (b : Bool) : State := if b then s.emptyBuf .s else s

/-- A write of VWIN: while a LOOPR runs it leaves RB undefined (05 R180). -/
def State.vwinWritten (s : State) (v : W64) : W64 :=
  if s.core.pc.loopr.isSome then withRb v (s.free 4 316).toNat else v

/-- Write value `v`, reserved bits cleared, to a register that is no gauge. -/
def State.csrPut (s : State) (n : Nat) (v : W64) : Chk State :=
  let p := s.core.pc
  let r := s.ctx p.ctx
  let m := s.pkg.mo
  let d := s.pkg.dv
  match n with
  | 0x001 => .ok ((s.setPiece { p with lc := v }).freshLoop (p.lc = 0))
  | 0x002 => .ok ((s.setPiece { p with lb := v }).freshLoop true)
  | 0x003 => .ok ((s.setPiece { p with le := v }).freshLoop true)
  | 0x010 => .ok (s.setPiece { p with tvec := v })
  | 0x011 => .ok (s.setPiece { p with epc := v })
  | 0x014 => .ok (s.setPiece { p with tpc := v })
  | 0x080 => .ok (s.setPiece { p with vwin := s.vwinWritten v, vwinOld := s.vwinNow, vwinAt := s.cyc + 1 })
  | 0x081 => .ok (s.setPiece { p with erchk := v })
  | 0x082 => .ok (s.setPiece { p with fpst := v.truncate 6 ||| s.fpEvents })
  | 0x083 => s.l1cfgWrite v
  | 0x0A0 => .ok (s.setCtx p.ctx { r with losslim := v })
  | 0x0A1 => .ok (s.setCtx p.ctx { r with lossrun := v })
  | 0x0B0 => .ok (s.rngWrite 0 v)
  | 0x0B1 => .ok (s.rngWrite 1 v)
  | 0x0B2 => .ok (s.rngWrite 2 v)
  | 0x0B3 => .ok (s.rngWrite 3 v)
  | 0x0B4 => .ok (s.rngWrite 4 v)
  | 0x3A1 => .ok (s.setMo { m with ifb := v })
  | 0x3A2 => .ok (s.setMo { m with parm := v })
  | 0x3A3 => .ok (s.moWriteReg false v)
  | 0x3A4 => .ok (s.moWriteReg true v)
  | 0x3C1 => .ok (s.setDove { d with nst := v.truncate 7 })
  | 0x3C2 => .ok (s.setDove { d with lrb := v })
  | 0x50C => s.dwloadWrite v
  | 0x541 => .ok (s.setGctx p.ctx { s.gctx p.ctx with vncfg := v })
  | 0x560 => s.glucfgWrite false v
  | 0x563 => s.glucfgWrite true v
  | 0x5D0 => s.scrcfgWrite false v
  | 0x5D2 => .ok (s.scrhWrite v)
  | 0x5D3 => s.scrcfgWrite true v
  | 0x600 => .ok (s.setPkg { s.pkg with dbPend := s.pkg.dbPend ++ [(s.cyc + 20, v, some p.ctx)] })
  | _ =>
    if 0x3C4 ≤ n && n ≤ 0x3C7 then .ok (s.setDove (d.setLink (n - 0x3C4) v))
    else if 0x520 ≤ n && n ≤ 0x52F then s.collgrpWrite (n - 0x520) v
    else .ok s

/-- Gauge that a register number names (11 R309). -/
def State.csrGauge (s : State) (n : Nat) : Option Nat :=
  if 0x140 ≤ n && n ≤ 0x17F then some (s.clu * 64 + (n - 0x140))
  else if 0x200 ≤ n && n ≤ 0x2FF then some (65536 + (n - 0x200)) else none

/-- The read-modify-write of R92: it reads as S reads, and later reads by S within the csr bound are undefined (01 R38). -/
def State.csrModify (s : State) (n : Nat) (op : CsrOp) (x : W64) : Chk State := do
  let s' ← (match s.csrGauge n with
    | some key => .ok (s.gaugeWrite key op (x.truncate 32))
    | none => s.csrPut n (op.apply (s.csrSeen n (s.csrNow n)) x &&& csrMask n) : Chk State)
  .ok (s'.setPiece { s'.core.pc with csrRdy := Map.set 0 s'.core.pc.csrRdy n (s.cyc + 3) })

/-! ## The words (R92) -/

/-- CSRW, CSRS and CSRC. -/
def csrWordOp (op : CsrOp) (a : BitVec 5) (r : BitVec 12) (s : State) : Host.Outcome State Fault Refusal :=
  word .s s (
    if !s.csrMay r.toNat true then s.illegal .s
    else do
      let x ← s.gVal a 1
      s.csrModify r.toNat op x)

/-- CSRR (R92): a read of what S wrote less than 3 cycles ago is undefined (R38). A read of LANDW is WAITL (09 R280). -/
def execCsrr (d : BitVec 5) (r : BitVec 12) (s : State) : Host.Outcome State Fault Refusal :=
  if r = 0x016 then execWaitl d s
  else word .s s (
    if !s.csrMay r.toNat false then s.illegal .s
    else
      let v := if s.cyc < Map.get 0 s.core.pc.csrRdy r.toNat then s.free 64 314 else s.csrValue r.toNat
      .ok (s.putG d v 3))

def execCsrw (a : BitVec 5) (r : BitVec 12) (s : State) : Host.Outcome State Fault Refusal := csrWordOp .w a r s
def execCsrs (a : BitVec 5) (r : BitVec 12) (s : State) : Host.Outcome State Fault Refusal := csrWordOp .s a r s
def execCsrc (a : BitVec 5) (r : BitVec 12) (s : State) : Host.Outcome State Fault Refusal := csrWordOp .c a r s

/-! ## Writes as events: the effect of a CSRW of the core in focus; nothing where it would stall or trap -/

/-- The write has its effect, if it may. -/
def State.csrEvent (s : State) (n : Nat) (v : W64) : State :=
  if !s.csrMay n true then s
  else match s.csrModify n .w v with
    | .ok s' => s'
    | .error _ => s

/-- LC_WRITE (R86). -/
def execLcWrite (v : W64) (s : State) : Host.Outcome State Fault Refusal := .next (s.csrEvent 0x001 v)

/-- GAUGE_WRITE (11 R311): cluster gauges below 64, and device gauges. -/
def execGaugeWrite (dev : Bool) (n : BitVec 8) (v : BitVec 32) (s : State) : Host.Outcome State Fault Refusal :=
  .next (s.csrEvent (if dev then 0x200 + n.toNat else 0x140 + n.toNat % 64) (v.zeroExtend 64))

/-- MOLAG_MOICUR_WRITE (17 R407). -/
def execMolagMoicurWrite (icur : Bool) (v : W64) (s : State) : Host.Outcome State Fault Refusal :=
  .next (s.csrEvent (if icur then 0x3A4 else 0x3A3) v)

/-- DWLOAD_WRITE (19 R452). -/
def execDwloadWrite (v : W64) (s : State) : Host.Outcome State Fault Refusal := .next (s.csrEvent 0x50C v)

/-- COLLGRP_WRITE (20 R462). -/
def execCollgrpWrite (n : BitVec 4) (v : W64) (s : State) : Host.Outcome State Fault Refusal :=
  .next (s.csrEvent (0x520 + n.toNat) v)

/-- GLUCFG_WRITE (21 R486): GLUCFG, or FILLB. -/
def execGlucfgWrite (fillb : Bool) (v : W64) (s : State) : Host.Outcome State Fault Refusal :=
  .next (s.csrEvent (if fillb then 0x563 else 0x560) v)

/-- SCRCFG_WRITE (21 R497): SCRCFG, or SCRR. -/
def execScrcfgWrite (scrr : Bool) (v : W64) (s : State) : Host.Outcome State Fault Refusal :=
  .next (s.csrEvent (if scrr then 0x5D3 else 0x5D0) v)

/-- SCRH_WRITE (21 R497). -/
def execScrhWrite (v : W64) (s : State) : Host.Outcome State Fault Refusal := .next (s.csrEvent 0x5D2 v)

end Sys2Proof.Machine
end

