-- ==== Sys2Proof/Machine/Clock.lean ====
section
/-! DEFINITION. One cycle passes (00 R9, 06 R204): what ends with the cycle (copies that start, stops and predicates evaluated,
promises missed, what the root decides), the count, and what is exactly due in the cycle that begins (gauge writes before the amounts of the cycle,
11 R311; in-use bits, bank switches, landings, chunks). -/
namespace Sys2Proof.Machine

/-- Do `f` with each core in focus that is not at its reset state. -/
def State.eachCore (s : State) (f : State → State) : State :=
  s.allCores.foldl (fun s e => (s.at e.1 f).bump) s

/-! ## The end of a cycle -/

/-- Copies whose cycle has come start (06 R198, 08 R257). -/
def State.copiesStart (s : State) : State := s.eachCore (fun s => (s.startCopy .ml).startCopy .ms)

/-- Stops are evaluated on the gauges as they stand, one whose firing is decided holds nothing from now on (11 R313), and the predicates of
waiting launches are evaluated too (13 R343). -/
def State.evaluate (s : State) : State :=
  let s := s.shr.stops.foldl (fun s e => (s.evalStop e.1).releaseStop e.1) s
  let see (l : Option Launch) : Option Launch :=
    l.map (fun l => if l.state = .waiting && s.launchHolds l.lr then { l with holds := true } else l)
  s.setDie { s.die with launches := Map.mapVals none see s.die.launches }

/-- Routes armed two cycles ago are in force from the next cycle (08 R260). -/
def State.routesDue (s : State) : State :=
  let due := s.core.routePend.filter (fun e => decide (e.1 ≤ s.cyc))
  s.setCore { s.core with
    route := due.foldl (fun m e => Map.set routeEmpty m e.2.1 e.2.2) s.core.route,
    routePend := s.core.routePend.filter (fun e => decide (s.cyc < e.1)) }

/-- Everything that belongs to the end of the cycle. -/
def State.cycleEnds (s : State) : State :=
  let s := s.copiesStart.evaluate.quarantineDue.doveCycle.ownEnds
  let s := (List.range 16).foldl (fun s c => s.rootTurn (BitVec.ofNat 4 c)) s
  s.eachCore (fun s => ((s.missPromises .ml (s.cyc + 1)).missPromises .ms (s.cyc + 1)).routesDue)

/-! ## The cycle that begins -/

/-- The count, and the cycles of each piece on its core (13 R350). -/
def State.count (s : State) : State :=
  let s := s.eachCore (fun s => if s.core.pc.run then s.setPiece { s.core.pc with onCore := s.core.pc.onCore + 1 } else s)
  let e : Past := ⟨s.cyc, s.shr, s.die, s.ctxs, s.pkg, s.fab⟩
  { s with cyc := s.cyc + 1, turns := [], past := e :: s.past.filter (fun e => decide (s.cyc < e.cyc + 40)) }

/-- A write of a gauge takes effect on the value held at the start of the cycle (11 R311); one of a command clears the
error bit (13 R331). -/
def State.gaugeWrites (s : State) (key : Nat) (l : List GaugeWr) : State :=
  let due := l.filter (fun w => decide (w.at_ ≤ s.cyc))
  let s := s.setShr { s.shr with gaugeWr := Map.set [] s.shr.gaugeWr key (l.filter (fun w => decide (s.cyc < w.at_))) }
  due.foldl (fun s w =>
    let old := Map.get 0 s.shr.gauge key
    let new := if w.kind = 0 then w.v else if w.kind = 1 then old ||| w.v else old &&& ~~~w.v
    let s := s.setGaugeAt key new
    if w.clr then s.setGaugeErr (key - 65536) false else s) s

def State.gaugesDue (s : State) : State := s.shr.gaugeWr.foldl (fun s e => s.gaugeWrites e.1 e.2) s

/-- In-use bits of slots (07 R211). -/
def State.slotsDue (s : State) : State :=
  let due := s.core.usePend.filter (fun e => decide (e.1 ≤ s.cyc))
  let put (u : BitVec 16) (e : Nat × BitVec 4 × Bool) : BitVec 16 :=
    let bit : BitVec 16 := BitVec.ofNat 16 (2 ^ e.2.1.toNat)
    if e.2.2 then u ||| bit else u &&& ~~~bit
  s.setCore { s.core with use := due.foldl put s.core.use, usePend := s.core.usePend.filter (fun e => decide (s.cyc < e.1)) }

/-- In-use bits of a block (04 R141, 06 R203): a block already set keeps its first owner. -/
def Block.due (now : Nat) (b : Block) : Block :=
  let due := b.pend.filter (fun e => decide (e.1 ≤ now))
  let rest := b.pend.filter (fun e => decide (now < e.1))
  let put (b : Block) (e : Nat × Bool × Nat × Nat × Nat) : Block :=
    if e.2.1 then (if b.use then b else { b with use := true, core := e.2.2.1, pid := e.2.2.2.1, li := e.2.2.2.2 })
    else { b with use := false, core := 0, pid := 0, li := 0 }
  due.foldl put { b with pend := rest }

def State.blocksDue (s : State) : State :=
  s.setShr { s.shr with blocks := Map.mapVals blockEmpty (Block.due s.cyc) s.shr.blocks }

/-- Bank switches end at their bound and begin in the cycle after their BANKSET or after the switch before (11 R301). -/
def State.banksDue (s : State) : State :=
  s.shr.banks.foldl (fun s e =>
    let clu := e.1 / 48
    let n := e.1 % 48
    let s := match (s.bank clu n).cur with
      | some (_, _, z) => if z ≤ s.cyc then s.switchEnd clu n else s
      | none => s
    s.switchBegin clu n) s

/-- Stops whose oldest firing has reached its bound (08 R268): 8 cycles for a cluster's, 40 for the device's. -/
def State.stopsDue (s : State) : State :=
  s.shr.stops.foldl (fun s e => match e.2.fired with
    | (d, _) :: _ => if d + (if 65536 ≤ e.1 then 40 else 8) ≤ s.cyc then s.fireStop e.1 else s
    | [] => s) s

/-- Outputs of EPI and XPOSE whose cycle has come. Fuel bounds their number. -/
def State.landAll (s : State) (epi : Bool) : Nat → State
  | 0 => s
  | n + 1 => if s.core.land.any (fun l => l.epi == epi && decide (l.at_ ≤ s.cyc)) then (s.landDue epi).landAll epi n else s

/-- What becomes seen on the core in focus: in-use bits, chunks, outputs of XPOSE before those of EPI (07 R239). -/
def State.coreSeen (s : State) : State :=
  let s := s.slotsDue.seeDue none (16 * (s.core.copies.length + 1))
  let s := s.landAll false s.core.land.length
  s.landAll true s.core.land.length

/-- What the core in focus then does: its copies read (08 R255: what any core's copy shows in this cycle is seen), and the flags of MMAs. -/
def State.coreDue (s : State) : State := ((List.range 4).foldl State.mmaFlags s.readDue).settleLeave

/-- Episodes whose deadline has passed (17 R400). -/
def State.episodesDue (s : State) : State :=
  s.pkg.mo.table.foldl (fun s e => match e.2 with
    | some x => (match execEpisodeTimeout x.tid s with
      | .next t => t.bump
      | _ => s)
    | none => s) s

/-! ## What a replayed log holds back (21 R498) -/

/-- A Dowel engine has arrivals of the context, and the log does not let it perform one. -/
def State.stackHolds (s : State) (c : Ctx) (st : Nat) : Bool :=
  let mine := (s.dowelOf st).q.filter (fun o => o.pk.ctx == c && decide (o.at_ < s.cyc))
  !mine.isEmpty && !mine.any (fun o => s.scribeAllows c 3 st (s.dowelEntry st o))

/-- A Jig has a free core for a piece of the context, and the log gives the piece another. -/
def State.jigHolds (s : State) (c : Ctx) (die : Nat) : Bool :=
  (s.nextLogged c 4 die).isSome && s.die.launches.any (fun e => match e.2 with
    | some l => l.lr.ctx == c && ((List.range 96).map (96 * die + ·)).any (fun x => s.coreFree x && (s.pieceFor l x).isSome && !s.maySit l x)
    | none => false)

/-- A Veneer word at the head of a queue of a die waits for its logged depth. -/
def State.wordHolds (s : State) (c : Ctx) (die : Nat) : Bool :=
  (s.nextLogged c 7 die).isSome && s.allCores.any (fun e => dieOf e.1 == die && (match e.2.headOp .vc with
    | some o => o.ctx == c && decide (2 ≤ nb o.word.toNat 8 4) && decide (nb o.word.toNat 8 4 ≤ 4) && s.vnWord o == .wait
    | none => false))

/-- A stop that has fired is not the next logged firing of its unit. -/
def State.stopHolds (s : State) (c : Ctx) (key : Nat) : Bool :=
  match (s.stop key).fired with
  | (_, o) :: _ => o.ctx == c && !s.scribeAllows c 8 (stopUnit key) (s.stopEntry c key)
  | [] => false

/-- Units that hold an event of the context back, each as KIND and UNIT. -/
def State.logHolds (s : State) (c : Ctx) : List Nat :=
  ((List.range 12).filter (s.stackHolds c)).map (3 * 256 + ·) ++ ((List.range 4).filter (s.jigHolds c)).map (4 * 256 + ·) ++
  (if s.pkg.mo.ctx = c && s.pkg.mo.await.isSome && (s.nextLogged c 5 devUnit).isSome then [5 * 256 + devUnit] else []) ++
  ((List.range 4).filter (s.wordHolds c)).map (7 * 256 + ·) ++
  ((s.shr.stops.filter (fun e => s.stopHolds c e.1)).map (fun e => 8 * 256 + stopUnit e.1)).eraseDups

/-- A replaying context: what its log has on another peer is asked for, and units that hold too long diverge. -/
def State.replayDue (s : State) (c : Ctx) : State :=
  if (s.source c).isNone then s else (s.scribeFetch c).scribeHolds c (s.logHolds c)

/-- Every context's glue-up and log as a cycle begins. -/
def State.contextsDue (s : State) : State :=
  (List.range 16).foldl (fun s c => (s.gluTick (BitVec.ofNat 4 c)).replayDue (BitVec.ofNat 4 c)) s

/-- Collectives whose writes other peers have answered. -/
def State.collsDue (s : State) : State := s.fab.colls.foldl (fun s x => s.collAnswers x.id) s

/-- What the host link does by itself: a boot goes on, and a request that the window has posted is executed (18 R423, R424). -/
def State.hostDue (s : State) : State := s.bootNext.mailRun execAssignEthernetRing

/-- Everything that is due in the cycle that begins. -/
def State.cycleBegins (s : State) : State :=
  let s := (s.gaugesDue.blocksDue.banksDue.bump).stopsDue
  let s := (s.eachCore State.coreSeen).eachCore State.coreDue
  let s := if s.fab.held.isEmpty then s else (s.releaseHeld State.serve).bump
  let s := s.doorbellsDue.episodesDue.doveDue.moRetry.moFar.ringsDue.bump
  let s := s.timeOuts.deliverOwn.collsDue.hostDue.bump
  s.fillsGoOn.contextsDue.mcDue.bump

/-- One cycle passes. -/
def State.tick (s : State) : State := s.cycleEnds.count.cycleBegins

end Sys2Proof.Machine
end

