-- ==== Sys2Proof/WellFormed.lean ====
section
/-! DEFINITION. Which terms of Instr the spec's encodings admit: the register, queue and sub-code restrictions that
the field widths do not already impose (01_slot_cluster_words.md R25, R28, R31; each check cites its rule). Events have
no encoding and no restriction of this kind. -/
namespace Sys2Proof

/-- A loop body is 1 to 64 words long: off19 from 2 to 65 (03 R86, 05 R178). -/
def wfLoop (o : BitVec 19) : Bool := decide (2 ≤ o.toNat) && decide (o.toNat ≤ 65)

/-- Scope and barrier number of BAR (03 R99). -/
def wfBar (sc : BitVec 2) (n : BitVec 6) : Bool :=
  (sc == 0#2 && decide (n.toNat < 16)) || sc == 1#2 || (sc == 2#2 && decide (n.toNat < 8))

/-- A scalar load or a returning atomic delivers into q0 or q2 (04 R118, R134). -/
def wfLoadQ (q : BitVec 3) : Bool := q == 0#3 || q == 2#3

/-- A scalar store pops q1 or q3 (04 R118). -/
def wfStoreQ (q : BitVec 3) : Bool := q == 1#3 || q == 3#3

/-- A built-in atomic: width 32 or 64, operation 0 to 9, qd 0 when posted (04 R134, R135). -/
def wfAtom (q : BitVec 3) (o : BitVec 5) (z : BitVec 2) : Bool :=
  (z == 2#2 || z == 3#2) && decide (o.toNat % 16 ≤ 9) && (if o.toNat < 16 then wfLoadQ q else q == 0#3)

/-- The immediate of VSETT names no reserved code and sets no reserved bit (01 R18). -/
def wfVT (t : BitVec 16) : Bool :=
  decide (t.toNat % 8 ≤ 2) && decide (t.toNat / 8 % 2 = 0) && decide (t.toNat / 16 % 8 ≤ 5) &&
  decide (t.toNat / 128 % 2 = 0) && decide (t.toNat / 2048 = 0)

/-- The well-formed instructions. -/
def Instr.wf : Instr → Bool
  | .add .. => true
  | .sub .. => true
  | .and .. => true
  | .or .. => true
  | .xor .. => true
  | .andn .. => true
  | .sll .. => true
  | .srl .. => true
  | .sra .. => true
  | .rotr .. => true
  | .slt .. => true
  | .sltz .. => true
  | .min .. => true
  | .max .. => true
  | .minz .. => true
  | .maxz .. => true
  | .mul .. => true
  | .mulh .. => true
  | .mulhz .. => true
  | .mulhsz .. => true
  | .div .. => true
  | .divz .. => true
  | .rem .. => true
  | .remz .. => true
  | .clmul .. => true
  | .clmulh .. => true
  | .clz .. => true
  | .ctz .. => true
  | .popc .. => true
  | .brev .. => true
  | .bswap .. => true
  | .addi .. => true
  | .andi .. => true
  | .ori .. => true
  | .xori .. => true
  | .slli .. => true
  | .srli .. => true
  | .srai .. => true
  | .rotri .. => true
  | .slti .. => true
  | .sltiz .. => true
  | .lih .. => true
  | .faddF32 .. => true
  | .fsubF32 .. => true
  | .fmulF32 .. => true
  | .fmaF32 .. => true
  | .fdivF32 .. => true
  | .fsqrtF32 .. => true
  | .fminF32 .. => true
  | .fmaxF32 .. => true
  | .feqF32 .. => true
  | .fltF32 .. => true
  | .fleF32 .. => true
  | .fabsF32 .. => true
  | .fnegF32 .. => true
  | .fcvtS64F32 _ _ m => decide (m.toNat ≤ 3)
  | .fcvtZ64F32 _ _ m => decide (m.toNat ≤ 3)
  | .fcvtF32S64 _ _ m => decide (m.toNat ≤ 3)
  | .fcvtF32Z64 _ _ m => decide (m.toNat ≤ 3)
  | .fcvtF32Bf16 .. => true
  | .fcvtBf16F32 _ _ m => decide (m.toNat ≤ 3)
  | .fcvtF32F16 .. => true
  | .fcvtF16F32 _ _ m => decide (m.toNat ≤ 3)
  | .losschk _ _ w => decide (w.toNat ≤ 16)
  | .sBr .. => true
  | .call .. => true
  | .sBeqz .. => true
  | .sBnez .. => true
  | .sBltz .. => true
  | .sBgez .. => true
  | .sBfol .. => true
  | .sBqt .. => true
  | .sBqf .. => true
  | .jalr .. => true
  | .sLoop _ o => wfLoop o
  | .trap .. => true
  | .eret => true
  | .sEnd => true
  | .early => true
  | .csrr .. => true
  | .csrw .. => true
  | .csrs .. => true
  | .csrc .. => true
  | .sQpush q _ => q == 1#6 || q == 4#6
  | .sQpop _ q => q == 0#6 || q == 5#6 || q == 9#6
  | .fmtq .. => true
  | .waitc .. => true
  | .waitg _ _ e g => e || decide (g.toNat < 64)
  | .bar _ s n => wfBar s n
  | .barF _ s n => wfBar s n
  | .stepbeg .. => true
  | .stepvote .. => true
  | .stepend .. => true
  | .waitl .. => true
  | .lcWrite .. => true
  | .gaugeWrite .. => true
  | .molagMoicurWrite .. => true
  | .ethdbWrite .. => true
  | .dwloadWrite .. => true
  | .collgrpWrite .. => true
  | .glucfgWrite .. => true
  | .scrcfgWrite .. => true
  | .scrhWrite .. => true
  | .cadd .. => true
  | .csub .. => true
  | .cmov .. => true
  | .cclr .. => true
  | .aIadd .. => true
  | .isub .. => true
  | .imul .. => true
  | .iand .. => true
  | .ior .. => true
  | .ixor .. => true
  | .isll .. => true
  | .isrl .. => true
  | .isra .. => true
  | .islt .. => true
  | .isltz .. => true
  | .aaddi .. => true
  | .alih .. => true
  | .csetb .. => true
  | .csetbx .. => true
  | .csetbi .. => true
  | .candp .. => true
  | .cget _ _ f => decide (f.toNat ≤ 6)
  | .ctest .. => true
  | .cteq .. => true
  | .csets _ _ s => decide (s.toNat ≤ 4)
  | .ldS8 _ q _ _ => wfLoadQ q
  | .ldZ8 _ q _ _ => wfLoadQ q
  | .ldS16 _ q _ _ => wfLoadQ q
  | .ldZ16 _ q _ _ => wfLoadQ q
  | .ldS32 _ q _ _ => wfLoadQ q
  | .ldZ32 _ q _ _ => wfLoadQ q
  | .ld64 _ q _ _ => wfLoadQ q
  | .ldrow .. => true
  | .st8 _ q _ _ => wfStoreQ q
  | .st16 _ q _ _ => wfStoreQ q
  | .st32 _ q _ _ => wfStoreQ q
  | .st64 _ q _ _ => wfStoreQ q
  | .strow .. => true
  | .ldc .. => true
  | .stc .. => true
  | .prefL1 .. => true
  | .prefCc .. => true
  | .prefDc .. => true
  | .atom _ q _ o z _ => wfAtom q o z
  | .ratom _ q _ o z _ => wfAtom q o z
  | .ratomH _ q _ _ r _ => if r then wfLoadQ q else q == 0#3
  | .latom _ _ z _ => z == 1#2 || z == 2#2
  | .gath .. => true
  | .scat .. => true
  | .fenceC _ m => m != 0#16
  | .bankset _ m n => decide (n.toNat ≤ 47) && m != 3#2
  | .busy .. => true
  | .idle .. => true
  | .aBr .. => true
  | .aBeqz .. => true
  | .aBnez .. => true
  | .aBltz .. => true
  | .aBgez .. => true
  | .aBfol .. => true
  | .bpub .. => true
  | .aLoop _ o => wfLoop o
  | .eng sel _ _ => decide (sel.toNat ≤ 6)
  | .aQpush q _ => q == 0#6 || q == 2#6
  | .aQpop _ q => q == 1#6 || q == 3#6
  | .aEnd => true
  | .vsett t => wfVT t
  | .vfadd .. => true
  | .vfaddVa .. => true
  | .vfsub .. => true
  | .vfsubVa .. => true
  | .vfmul .. => true
  | .vfmulVa .. => true
  | .vfma .. => true
  | .vfmaVa .. => true
  | .vfmin .. => true
  | .vfminVa .. => true
  | .vfmax .. => true
  | .vfmaxVa .. => true
  | .vfcmp _ m _ _ _ _ => m != 0#4
  | .vfcmpVa _ m _ _ _ _ => m != 0#4
  | .vadd .. => true
  | .vaddVa .. => true
  | .vsub .. => true
  | .vsubVa .. => true
  | .vmul .. => true
  | .vmulVa .. => true
  | .vmulh .. => true
  | .vmulhVa .. => true
  | .vmin .. => true
  | .vminVa .. => true
  | .vmax .. => true
  | .vmaxVa .. => true
  | .vadds .. => true
  | .vaddsVa .. => true
  | .vsubs .. => true
  | .vsubsVa .. => true
  | .vand .. => true
  | .vandVa .. => true
  | .vor .. => true
  | .vorVa .. => true
  | .vxor .. => true
  | .vxorVa .. => true
  | .vshl .. => true
  | .vshlVa .. => true
  | .vshr .. => true
  | .vshrVa .. => true
  | .vcmp _ m _ _ _ _ => m != 0#4
  | .vcmpVa _ m _ _ _ _ => m != 0#4
  | .vclmul .. => true
  | .vclmulVa .. => true
  | .vclmulh .. => true
  | .vclmulhVa .. => true
  | .vsel .. => true
  | .vselVa .. => true
  | .vcvtF2n _ _ r _ _ => decide (r.toNat ≤ 4)
  | .vcvtF2ns _ _ r _ _ => decide (r.toNat ≤ 4)
  | .vcvtN2f _ _ r _ _ => decide (r.toNat ≤ 4)
  | .vcvtF2i _ _ r _ _ => decide (r.toNat ≤ 4)
  | .vcvtI2f _ _ r _ _ => decide (r.toNat ≤ 4)
  | .vcvtI32n .. => true
  | .vcvtI32ns .. => true
  | .vcvtIw32 .. => true
  | .vsfExp2 .. => true
  | .vsfLog2 .. => true
  | .vsfRcp .. => true
  | .vsfRsqrt .. => true
  | .vsfTanh .. => true
  | .vsfSigm .. => true
  | .vredFadd .. => true
  | .vredFmin .. => true
  | .vredFmax .. => true
  | .vredAdd .. => true
  | .vredMin .. => true
  | .vredMax .. => true
  | .vredAnd .. => true
  | .vredOr .. => true
  | .vredXor .. => true
  | .vrng .. => true
  | .vmov .. => true
  | .vmand d _ _ => d != 0#4
  | .vmor d _ _ => d != 0#4
  | .vmxor d _ _ => d != 0#4
  | .vmandn d _ _ => d != 0#4
  | .vmnot d _ => d != 0#4
  | .vmmov d _ => d != 0#4
  | .vmfirst d n => d != 0#4 && decide (n.toNat ≤ 256)
  | .vpop _ q _ => q == 2#6 || q == 4#6 || q == 6#6
  | .vpush q _ _ => q == 3#6 || q == 5#6 || q == 7#6
  | .loopr s _ _ o => decide (s.toNat ≤ 1) && wfLoop o
  | .vBr .. => true
  | .vBfol .. => true
  | .vBqt .. => true
  | .vBqf .. => true
  | .vEnd => true
  | .clamp .. => true
  | .free .. => true
  | .mma .. => true
  | .mmas .. => true
  | .rep .. => true
  | .shape .. => true
  | .shapeOff => true
  | .xpose .. => true
  | .epi .. => true
  | .epir .. => true
  | .tzero .. => true
  | .tmov .. => true
  | .iset .. => true
  | .mIadd .. => true
  | .mBr .. => true
  | .mBfol .. => true
  | .mBqt .. => true
  | .mBqf .. => true
  | .mLoop _ o => wfLoop o
  | .mEnd => true
  | .copyStart .. => true
  | .copyChunkSeen .. => true
  | .promiseSectorPerform .. => true
  | .promiseMiss .. => true
  | .gatherRowLand .. => true
  | .gaddApply .. => true
  | .stopFire .. => true
  | .mmaComplete .. => true
  | .epiOutputSeen => true
  | .xposeOutputSeen => true
  | .epirRowPerform .. => true
  | .bankSwitchBegin .. => true
  | .bankSwitchEnd .. => true
  | .barrierComplete => true
  | .queueDeadlock => true
  | .reportedTrapTaken => true
  | .watchdog => true
  | .earlyReached .. => true
  | .translationWalkComplete => true
  | .translationStallTimeout .. => true
  | .remoteAccessTimeout .. => true
  | .launch .. => true
  | .launchi .. => true
  | .cmdLoop .. => true
  | .endLoop .. => true
  | .cmdIf .. => true
  | .cmdElse .. => true
  | .endIf .. => true
  | .cmdWaitg .. => true
  | .signalImmediate .. => true
  | .signalDeferred .. => true
  | .signalDeferredApply .. => true
  | .stepopen .. => true
  | .stepclose .. => true
  | .cmdFence .. => true
  | .write .. => true
  | .writeGauge .. => true
  | .halt .. => true
  | .launchReady .. => true
  | .pieceStart => true
  | .launchRetire .. => true
  | .launchFaulted .. => true
  | .promotion .. => true
  | .preemption .. => true
  | .drainConversion => true
  | .sramScrub .. => true
  | .pageRetirement .. => true
  | .versionScrubVisit .. => true
  | .scrubPassEnd => true
  | .poisonRepair .. => true
  | .rewardArrival .. => true
  | .episodeTimeout .. => true
  | .planeScan => true
  | .dovetailEntryStart => true
  | .dovetailTableEnd => true
  | .freeSlotsArrival .. => true
  | .collectiveStart => true
  | .collectiveChunkRead .. => true
  | .collectivePacketArrival .. => true
  | .collectiveAckArrival .. => true
  | .collectiveComplete .. => true
  | .collectiveTimeout .. => true
  | .veneerPlaneSend .. => true
  | .veneerPlaneArrival .. => true
  | .veneerCancelArrival .. => true
  | .veneerAckArrival .. => true
  | .veneerEntryWaitDrop => true
  | .veneerFirstPlaneTimeout .. => true
  | .remoteLoadArrival .. => true
  | .remoteStoreArrival .. => true
  | .answerArrival .. => true
  | .dowelOperation .. => true
  | .dowelHandler .. => true
  | .handlerLoadComplete .. => true
  | .flitReplay .. => true
  | .laneSwap .. => true
  | .linkDown .. => true
  | .voteSend .. => true
  | .vetoVote .. => true
  | .voteArrival .. => true
  | .rootDecision .. => true
  | .applyDecision .. => true
  | .decidedStateExit .. => true
  | .voteWaitTimeout .. => true
  | .keepAliveSend .. => true
  | .declareLost .. => true
  | .lostNoticeArrival .. => true
  | .ancestorSilenceHalt .. => true
  | .fillAssignmentArrival .. => true
  | .fillComplete .. => true
  | .fillDoneArrival .. => true
  | .checkpointPathHalt .. => true
  | .fabricBarrierArrival .. => true
  | .fabricBarrierRelease .. => true
  | .scribeDivergence .. => true
  | .ethTxFrame .. => true
  | .ethTxComplete .. => true
  | .ethRxFrame .. => true
  | .powerCapThrottle .. => true
  | .thermalShutdown .. => true
  | .coreFailure => true
  | .deviceReset .. => true
  | .ownerLinkDown .. => true
  | .claim .. => true
  | .give .. => true
  | .accept .. => true
  | .release .. => true
  | .installTensorHandle .. => true
  | .markVersioned .. => true
  | .unmarkVersioned .. => true
  | .setCoreSet .. => true
  | .assignUnit .. => true
  | .restoreStepPosition .. => true
  | .debugHaltDrain .. => true
  | .debugHaltFreeze .. => true
  | .debugResume .. => true
  | .debugWrite .. => true
  | .repairMapUpdate .. => true
  | .quote .. => true
  | .setPowerCap .. => true
  | .assignEthernetRing .. => true
  | .accessPerformed .. => true
  | .engineTakesOperation .. => true
  | .coreScratchSwitchEnd => true
  | .streamDescriptorWrite .. => true
  | .ethLinkChange .. => true
  | .priorityFlowControlPause .. => true

end Sys2Proof
end

