-- ==== Sys2Proof/Decode.lean ====
section
/-! DEFINITION. Decoding, total on any bytes, and the encoder beside it, both written from the formats of
01_slot_cluster_words.md R24 and the encoding tables of 03 R71, 04 R118, 05 R150 and 07 R208. A slot word is read as
the number of its 32 bits, bit 0 the least significant; a word is stored little-endian (00 R2). Each cluster decodes
the major opcode [30:25] on its own (R19). What no arm accepts is an Illegal Word (R31, R32). -/
namespace Sys2Proof

/-- Field of `w` bits at bit `lo` of the word `n`. -/
def fd (w lo n : Nat) : BitVec w := BitVec.ofNat w (n / 2 ^ lo)

/-- One-bit field at bit `lo`. -/
def fb (lo n : Nat) : Bool := n / 2 ^ lo % 2 == 1

/-- The field of `w` bits at `lo` holds `v`. -/
def fx (n lo w v : Nat) : Bool := n / 2 ^ lo % 2 ^ w == v

/-- An instruction is accepted only when it is well formed. -/
def accept (i : Instr) : Option Instr := if i.wf then some i else none

/-- The S cluster's decoder (01 R33). -/
def decodeS (n : Nat) : Option Instr :=
  match n / 2 ^ 25 % 64 with
  | 0x01 =>
    if fx n 0 13 0x28 && fx n 18 1 0x0 && fx n 24 1 0x0 then accept (.clz (fd 5 19 n) (fd 5 13 n))
    else if fx n 0 13 0x29 && fx n 18 1 0x0 && fx n 24 1 0x0 then accept (.ctz (fd 5 19 n) (fd 5 13 n))
    else if fx n 0 13 0x2A && fx n 18 1 0x0 && fx n 24 1 0x0 then accept (.popc (fd 5 19 n) (fd 5 13 n))
    else if fx n 0 13 0x2B && fx n 18 1 0x0 && fx n 24 1 0x0 then accept (.brev (fd 5 19 n) (fd 5 13 n))
    else if fx n 0 13 0x2C && fx n 18 1 0x0 && fx n 24 1 0x0 then accept (.bswap (fd 5 19 n) (fd 5 13 n))
    else if fx n 0 7 0x0 && fx n 12 1 0x0 && fx n 18 1 0x0 && fx n 24 1 0x0 then accept (.add (fd 5 19 n) (fd 5 13 n) (fd 5 7 n))
    else if fx n 0 7 0x1 && fx n 12 1 0x0 && fx n 18 1 0x0 && fx n 24 1 0x0 then accept (.sub (fd 5 19 n) (fd 5 13 n) (fd 5 7 n))
    else if fx n 0 7 0x2 && fx n 12 1 0x0 && fx n 18 1 0x0 && fx n 24 1 0x0 then accept (.and (fd 5 19 n) (fd 5 13 n) (fd 5 7 n))
    else if fx n 0 7 0x3 && fx n 12 1 0x0 && fx n 18 1 0x0 && fx n 24 1 0x0 then accept (.or (fd 5 19 n) (fd 5 13 n) (fd 5 7 n))
    else if fx n 0 7 0x4 && fx n 12 1 0x0 && fx n 18 1 0x0 && fx n 24 1 0x0 then accept (.xor (fd 5 19 n) (fd 5 13 n) (fd 5 7 n))
    else if fx n 0 7 0x5 && fx n 12 1 0x0 && fx n 18 1 0x0 && fx n 24 1 0x0 then accept (.andn (fd 5 19 n) (fd 5 13 n) (fd 5 7 n))
    else if fx n 0 7 0x6 && fx n 12 1 0x0 && fx n 18 1 0x0 && fx n 24 1 0x0 then accept (.sll (fd 5 19 n) (fd 5 13 n) (fd 5 7 n))
    else if fx n 0 7 0x7 && fx n 12 1 0x0 && fx n 18 1 0x0 && fx n 24 1 0x0 then accept (.srl (fd 5 19 n) (fd 5 13 n) (fd 5 7 n))
    else if fx n 0 7 0x8 && fx n 12 1 0x0 && fx n 18 1 0x0 && fx n 24 1 0x0 then accept (.sra (fd 5 19 n) (fd 5 13 n) (fd 5 7 n))
    else if fx n 0 7 0x9 && fx n 12 1 0x0 && fx n 18 1 0x0 && fx n 24 1 0x0 then accept (.rotr (fd 5 19 n) (fd 5 13 n) (fd 5 7 n))
    else if fx n 0 7 0xA && fx n 12 1 0x0 && fx n 18 1 0x0 && fx n 24 1 0x0 then accept (.slt (fd 5 19 n) (fd 5 13 n) (fd 5 7 n))
    else if fx n 0 7 0xB && fx n 12 1 0x0 && fx n 18 1 0x0 && fx n 24 1 0x0 then accept (.sltz (fd 5 19 n) (fd 5 13 n) (fd 5 7 n))
    else if fx n 0 7 0xC && fx n 12 1 0x0 && fx n 18 1 0x0 && fx n 24 1 0x0 then accept (.min (fd 5 19 n) (fd 5 13 n) (fd 5 7 n))
    else if fx n 0 7 0xD && fx n 12 1 0x0 && fx n 18 1 0x0 && fx n 24 1 0x0 then accept (.max (fd 5 19 n) (fd 5 13 n) (fd 5 7 n))
    else if fx n 0 7 0xE && fx n 12 1 0x0 && fx n 18 1 0x0 && fx n 24 1 0x0 then accept (.minz (fd 5 19 n) (fd 5 13 n) (fd 5 7 n))
    else if fx n 0 7 0xF && fx n 12 1 0x0 && fx n 18 1 0x0 && fx n 24 1 0x0 then accept (.maxz (fd 5 19 n) (fd 5 13 n) (fd 5 7 n))
    else if fx n 0 7 0x10 && fx n 12 1 0x0 && fx n 18 1 0x0 && fx n 24 1 0x0 then accept (.mul (fd 5 19 n) (fd 5 13 n) (fd 5 7 n))
    else if fx n 0 7 0x11 && fx n 12 1 0x0 && fx n 18 1 0x0 && fx n 24 1 0x0 then accept (.mulh (fd 5 19 n) (fd 5 13 n) (fd 5 7 n))
    else if fx n 0 7 0x12 && fx n 12 1 0x0 && fx n 18 1 0x0 && fx n 24 1 0x0 then accept (.mulhz (fd 5 19 n) (fd 5 13 n) (fd 5 7 n))
    else if fx n 0 7 0x13 && fx n 12 1 0x0 && fx n 18 1 0x0 && fx n 24 1 0x0 then accept (.mulhsz (fd 5 19 n) (fd 5 13 n) (fd 5 7 n))
    else if fx n 0 7 0x18 && fx n 12 1 0x0 && fx n 18 1 0x0 && fx n 24 1 0x0 then accept (.div (fd 5 19 n) (fd 5 13 n) (fd 5 7 n))
    else if fx n 0 7 0x19 && fx n 12 1 0x0 && fx n 18 1 0x0 && fx n 24 1 0x0 then accept (.divz (fd 5 19 n) (fd 5 13 n) (fd 5 7 n))
    else if fx n 0 7 0x1A && fx n 12 1 0x0 && fx n 18 1 0x0 && fx n 24 1 0x0 then accept (.rem (fd 5 19 n) (fd 5 13 n) (fd 5 7 n))
    else if fx n 0 7 0x1B && fx n 12 1 0x0 && fx n 18 1 0x0 && fx n 24 1 0x0 then accept (.remz (fd 5 19 n) (fd 5 13 n) (fd 5 7 n))
    else if fx n 0 7 0x20 && fx n 12 1 0x0 && fx n 18 1 0x0 && fx n 24 1 0x0 then accept (.clmul (fd 5 19 n) (fd 5 13 n) (fd 5 7 n))
    else if fx n 0 7 0x21 && fx n 12 1 0x0 && fx n 18 1 0x0 && fx n 24 1 0x0 then accept (.clmulh (fd 5 19 n) (fd 5 13 n) (fd 5 7 n))
    else none
  | 0x02 =>
    if fx n 18 1 0x0 && fx n 24 1 0x0 then accept (.addi (fd 5 19 n) (fd 5 13 n) (fd 13 0 n))
    else none
  | 0x03 =>
    if fx n 18 1 0x0 && fx n 24 1 0x0 then accept (.andi (fd 5 19 n) (fd 5 13 n) (fd 13 0 n))
    else none
  | 0x04 =>
    if fx n 18 1 0x0 && fx n 24 1 0x0 then accept (.ori (fd 5 19 n) (fd 5 13 n) (fd 13 0 n))
    else none
  | 0x05 =>
    if fx n 18 1 0x0 && fx n 24 1 0x0 then accept (.xori (fd 5 19 n) (fd 5 13 n) (fd 13 0 n))
    else none
  | 0x06 =>
    if fx n 6 7 0x0 && fx n 18 1 0x0 && fx n 24 1 0x0 then accept (.slli (fd 5 19 n) (fd 5 13 n) (fd 6 0 n))
    else if fx n 6 7 0x1 && fx n 18 1 0x0 && fx n 24 1 0x0 then accept (.srli (fd 5 19 n) (fd 5 13 n) (fd 6 0 n))
    else if fx n 6 7 0x2 && fx n 18 1 0x0 && fx n 24 1 0x0 then accept (.srai (fd 5 19 n) (fd 5 13 n) (fd 6 0 n))
    else if fx n 6 7 0x3 && fx n 18 1 0x0 && fx n 24 1 0x0 then accept (.rotri (fd 5 19 n) (fd 5 13 n) (fd 6 0 n))
    else none
  | 0x07 =>
    if fx n 18 1 0x0 && fx n 24 1 0x0 then accept (.slti (fd 5 19 n) (fd 5 13 n) (fd 13 0 n))
    else none
  | 0x08 =>
    if fx n 18 1 0x0 && fx n 24 1 0x0 then accept (.sltiz (fd 5 19 n) (fd 5 13 n) (fd 13 0 n))
    else none
  | 0x09 =>
    if fx n 24 1 0x0 then accept (.lih (fd 5 19 n) (fd 19 0 n))
    else none
  | 0x0A =>
    if fx n 0 13 0x5 && fx n 18 1 0x0 && fx n 24 1 0x0 then accept (.fsqrtF32 (fd 5 19 n) (fd 5 13 n))
    else if fx n 0 13 0xB && fx n 18 1 0x0 && fx n 24 1 0x0 then accept (.fabsF32 (fd 5 19 n) (fd 5 13 n))
    else if fx n 0 13 0xC && fx n 18 1 0x0 && fx n 24 1 0x0 then accept (.fnegF32 (fd 5 19 n) (fd 5 13 n))
    else if fx n 0 13 0x14 && fx n 18 1 0x0 && fx n 24 1 0x0 then accept (.fcvtF32Bf16 (fd 5 19 n) (fd 5 13 n))
    else if fx n 0 13 0x16 && fx n 18 1 0x0 && fx n 24 1 0x0 then accept (.fcvtF32F16 (fd 5 19 n) (fd 5 13 n))
    else if fx n 0 7 0x10 && fx n 10 3 0x0 && fx n 18 1 0x0 && fx n 24 1 0x0 then accept (.fcvtS64F32 (fd 5 19 n) (fd 5 13 n) (fd 3 7 n))
    else if fx n 0 7 0x11 && fx n 10 3 0x0 && fx n 18 1 0x0 && fx n 24 1 0x0 then accept (.fcvtZ64F32 (fd 5 19 n) (fd 5 13 n) (fd 3 7 n))
    else if fx n 0 7 0x12 && fx n 10 3 0x0 && fx n 18 1 0x0 && fx n 24 1 0x0 then accept (.fcvtF32S64 (fd 5 19 n) (fd 5 13 n) (fd 3 7 n))
    else if fx n 0 7 0x13 && fx n 10 3 0x0 && fx n 18 1 0x0 && fx n 24 1 0x0 then accept (.fcvtF32Z64 (fd 5 19 n) (fd 5 13 n) (fd 3 7 n))
    else if fx n 0 7 0x15 && fx n 10 3 0x0 && fx n 18 1 0x0 && fx n 24 1 0x0 then accept (.fcvtBf16F32 (fd 5 19 n) (fd 5 13 n) (fd 3 7 n))
    else if fx n 0 7 0x17 && fx n 10 3 0x0 && fx n 18 1 0x0 && fx n 24 1 0x0 then accept (.fcvtF16F32 (fd 5 19 n) (fd 5 13 n) (fd 3 7 n))
    else if fx n 0 7 0x0 && fx n 12 1 0x0 && fx n 18 1 0x0 && fx n 24 1 0x0 then accept (.faddF32 (fd 5 19 n) (fd 5 13 n) (fd 5 7 n))
    else if fx n 0 7 0x1 && fx n 12 1 0x0 && fx n 18 1 0x0 && fx n 24 1 0x0 then accept (.fsubF32 (fd 5 19 n) (fd 5 13 n) (fd 5 7 n))
    else if fx n 0 7 0x2 && fx n 12 1 0x0 && fx n 18 1 0x0 && fx n 24 1 0x0 then accept (.fmulF32 (fd 5 19 n) (fd 5 13 n) (fd 5 7 n))
    else if fx n 0 7 0x3 && fx n 12 1 0x0 && fx n 18 1 0x0 && fx n 24 1 0x0 then accept (.fmaF32 (fd 5 19 n) (fd 5 13 n) (fd 5 7 n))
    else if fx n 0 7 0x4 && fx n 12 1 0x0 && fx n 18 1 0x0 && fx n 24 1 0x0 then accept (.fdivF32 (fd 5 19 n) (fd 5 13 n) (fd 5 7 n))
    else if fx n 0 7 0x6 && fx n 12 1 0x0 && fx n 18 1 0x0 && fx n 24 1 0x0 then accept (.fminF32 (fd 5 19 n) (fd 5 13 n) (fd 5 7 n))
    else if fx n 0 7 0x7 && fx n 12 1 0x0 && fx n 18 1 0x0 && fx n 24 1 0x0 then accept (.fmaxF32 (fd 5 19 n) (fd 5 13 n) (fd 5 7 n))
    else if fx n 0 7 0x8 && fx n 12 1 0x0 && fx n 18 1 0x0 && fx n 24 1 0x0 then accept (.feqF32 (fd 5 19 n) (fd 5 13 n) (fd 5 7 n))
    else if fx n 0 7 0x9 && fx n 12 1 0x0 && fx n 18 1 0x0 && fx n 24 1 0x0 then accept (.fltF32 (fd 5 19 n) (fd 5 13 n) (fd 5 7 n))
    else if fx n 0 7 0xA && fx n 12 1 0x0 && fx n 18 1 0x0 && fx n 24 1 0x0 then accept (.fleF32 (fd 5 19 n) (fd 5 13 n) (fd 5 7 n))
    else none
  | 0x0B =>
    if fx n 7 6 0x0 && fx n 18 1 0x0 && fx n 24 1 0x0 then accept (.losschk (fd 5 19 n) (fd 5 13 n) (fd 7 0 n))
    else none
  | 0x10 =>
    if fx n 19 6 0x0 then accept (.sBr (fd 19 0 n))
    else none
  | 0x11 =>
    if fx n 19 6 0x0 then accept (.call (fd 19 0 n))
    else none
  | 0x12 =>
    if fx n 24 1 0x0 then accept (.sBeqz (fd 5 19 n) (fd 19 0 n))
    else none
  | 0x13 =>
    if fx n 24 1 0x0 then accept (.sBnez (fd 5 19 n) (fd 19 0 n))
    else none
  | 0x14 =>
    if fx n 24 1 0x0 then accept (.sBltz (fd 5 19 n) (fd 19 0 n))
    else none
  | 0x15 =>
    if fx n 24 1 0x0 then accept (.sBgez (fd 5 19 n) (fd 19 0 n))
    else none
  | 0x16 =>
    if fx n 19 6 0x0 then accept (.sBfol (fd 19 0 n))
    else none
  | 0x17 =>
    if fx n 19 6 0x0 then accept (.sBqt (fd 19 0 n))
    else none
  | 0x18 =>
    if fx n 19 6 0x0 then accept (.sBqf (fd 19 0 n))
    else none
  | 0x19 =>
    if fx n 0 13 0x0 && fx n 18 1 0x0 && fx n 24 1 0x0 then accept (.jalr (fd 5 19 n) (fd 5 13 n))
    else none
  | 0x1A =>
    if fx n 24 1 0x0 then accept (.sLoop (fd 5 19 n) (fd 19 0 n))
    else none
  | 0x1B =>
    if fx n 13 12 0x0 then accept (.trap (fd 13 0 n))
    else none
  | 0x1C =>
    if fx n 0 25 0x0 then accept .eret
    else none
  | 0x1D =>
    if fx n 0 25 0x0 then accept .sEnd
    else none
  | 0x1E =>
    if fx n 0 25 0x0 then accept .early
    else none
  | 0x20 =>
    if fx n 0 19 0x16 && fx n 24 1 0x0 then accept (.waitl (fd 5 19 n))
    else if fx n 12 7 0x0 && fx n 24 1 0x0 then accept (.csrr (fd 5 19 n) (fd 12 0 n))
    else none
  | 0x21 =>
    if fx n 12 1 0x0 && fx n 18 7 0x0 then accept (.csrw (fd 5 13 n) (fd 12 0 n))
    else none
  | 0x22 =>
    if fx n 12 1 0x0 && fx n 18 7 0x0 then accept (.csrs (fd 5 13 n) (fd 12 0 n))
    else none
  | 0x23 =>
    if fx n 12 1 0x0 && fx n 18 7 0x0 then accept (.csrc (fd 5 13 n) (fd 12 0 n))
    else none
  | 0x24 =>
    if fx n 0 13 0x0 && fx n 18 1 0x0 then accept (.sQpush (fd 6 19 n) (fd 5 13 n))
    else none
  | 0x25 =>
    if fx n 0 13 0x0 && fx n 24 1 0x0 then accept (.sQpop (fd 5 19 n) (fd 6 13 n))
    else none
  | 0x26 =>
    if fx n 0 13 0x0 && fx n 18 7 0x0 then accept (.fmtq (fd 5 13 n))
    else none
  | 0x27 =>
    if fx n 0 13 0x0 && fx n 18 7 0x0 then accept (.waitc (fd 5 13 n))
    else none
  | 0x28 =>
    if fx n 9 4 0x0 && fx n 18 1 0x0 && fx n 24 1 0x0 then accept (.waitg (fd 5 19 n) (fd 5 13 n) (fb 8 n) (fd 8 0 n))
    else none
  | 0x29 =>
    if fx n 6 1 0x0 && fx n 9 4 0x0 && fx n 18 7 0x0 then accept (.bar (fd 5 13 n) (fd 2 7 n) (fd 6 0 n))
    else if fx n 6 1 0x0 && fx n 9 4 0x1 && fx n 18 7 0x0 && fx n 31 1 1 then accept (.barF (fd 5 13 n) (fd 2 7 n) (fd 6 0 n))
    else none
  | 0x2A =>
    if fx n 0 19 0x0 && fx n 24 1 0x0 then accept (.stepbeg (fd 5 19 n))
    else none
  | 0x2B =>
    if fx n 6 7 0x0 && fx n 18 7 0x0 then accept (.stepvote (fd 5 13 n) (fb 5 n) (fd 5 0 n))
    else none
  | 0x2C =>
    if fx n 0 19 0x0 && fx n 24 1 0x0 then accept (.stepend (fd 5 19 n))
    else none
  | _ => none

/-- The A cluster's decoder (01 R34); `p` is the word after `n`, the payload of ENG (R30). -/
def decodeA (n p : Nat) : Option Instr :=
  match n / 2 ^ 25 % 64 with
  | 0x01 =>
    if fx n 0 13 0x2 && fx n 18 1 0x0 && fx n 24 1 0x0 then accept (.cmov (fd 5 19 n) (fd 5 13 n))
    else if fx n 0 13 0x3 && fx n 18 1 0x0 && fx n 24 1 0x0 then accept (.cclr (fd 5 19 n) (fd 5 13 n))
    else if fx n 0 7 0x0 && fx n 12 1 0x0 && fx n 18 1 0x0 && fx n 24 1 0x0 then accept (.cadd (fd 5 19 n) (fd 5 13 n) (fd 5 7 n))
    else if fx n 0 7 0x1 && fx n 12 1 0x0 && fx n 18 1 0x0 && fx n 24 1 0x0 then accept (.csub (fd 5 19 n) (fd 5 13 n) (fd 5 7 n))
    else if fx n 0 7 0x8 && fx n 12 1 0x0 && fx n 18 1 0x0 && fx n 24 1 0x0 then accept (.aIadd (fd 5 19 n) (fd 5 13 n) (fd 5 7 n))
    else if fx n 0 7 0x9 && fx n 12 1 0x0 && fx n 18 1 0x0 && fx n 24 1 0x0 then accept (.isub (fd 5 19 n) (fd 5 13 n) (fd 5 7 n))
    else if fx n 0 7 0xA && fx n 12 1 0x0 && fx n 18 1 0x0 && fx n 24 1 0x0 then accept (.imul (fd 5 19 n) (fd 5 13 n) (fd 5 7 n))
    else if fx n 0 7 0xB && fx n 12 1 0x0 && fx n 18 1 0x0 && fx n 24 1 0x0 then accept (.iand (fd 5 19 n) (fd 5 13 n) (fd 5 7 n))
    else if fx n 0 7 0xC && fx n 12 1 0x0 && fx n 18 1 0x0 && fx n 24 1 0x0 then accept (.ior (fd 5 19 n) (fd 5 13 n) (fd 5 7 n))
    else if fx n 0 7 0xD && fx n 12 1 0x0 && fx n 18 1 0x0 && fx n 24 1 0x0 then accept (.ixor (fd 5 19 n) (fd 5 13 n) (fd 5 7 n))
    else if fx n 0 7 0xE && fx n 12 1 0x0 && fx n 18 1 0x0 && fx n 24 1 0x0 then accept (.isll (fd 5 19 n) (fd 5 13 n) (fd 5 7 n))
    else if fx n 0 7 0xF && fx n 12 1 0x0 && fx n 18 1 0x0 && fx n 24 1 0x0 then accept (.isrl (fd 5 19 n) (fd 5 13 n) (fd 5 7 n))
    else if fx n 0 7 0x10 && fx n 12 1 0x0 && fx n 18 1 0x0 && fx n 24 1 0x0 then accept (.isra (fd 5 19 n) (fd 5 13 n) (fd 5 7 n))
    else if fx n 0 7 0x11 && fx n 12 1 0x0 && fx n 18 1 0x0 && fx n 24 1 0x0 then accept (.islt (fd 5 19 n) (fd 5 13 n) (fd 5 7 n))
    else if fx n 0 7 0x12 && fx n 12 1 0x0 && fx n 18 1 0x0 && fx n 24 1 0x0 then accept (.isltz (fd 5 19 n) (fd 5 13 n) (fd 5 7 n))
    else none
  | 0x02 =>
    if fx n 18 1 0x0 && fx n 24 1 0x0 then accept (.aaddi (fd 5 19 n) (fd 5 13 n) (fd 13 0 n))
    else none
  | 0x03 =>
    if fx n 24 1 0x0 then accept (.alih (fd 5 19 n) (fd 19 0 n))
    else none
  | 0x04 =>
    if fx n 0 7 0x0 && fx n 12 1 0x0 && fx n 18 1 0x0 && fx n 24 1 0x0 then accept (.csetb (fd 5 19 n) (fd 5 13 n) (fd 5 7 n))
    else if fx n 0 7 0x1 && fx n 12 1 0x0 && fx n 18 1 0x0 && fx n 24 1 0x0 then accept (.csetbx (fd 5 19 n) (fd 5 13 n) (fd 5 7 n))
    else none
  | 0x05 =>
    if fx n 18 1 0x0 && fx n 24 1 0x0 then accept (.csetbi (fd 5 19 n) (fd 5 13 n) (fd 13 0 n))
    else none
  | 0x06 =>
    if fx n 12 1 0x0 && fx n 18 1 0x0 && fx n 24 1 0x0 then accept (.candp (fd 5 19 n) (fd 5 13 n) (fd 12 0 n))
    else none
  | 0x07 =>
    if fx n 7 6 0x0 && fx n 18 1 0x0 && fx n 24 1 0x0 then accept (.cget (fd 5 19 n) (fd 5 13 n) (fd 7 0 n))
    else none
  | 0x08 =>
    if fx n 0 7 0x0 && fx n 12 1 0x0 && fx n 18 1 0x0 && fx n 24 1 0x0 then accept (.ctest (fd 5 19 n) (fd 5 13 n) (fd 5 7 n))
    else if fx n 0 7 0x1 && fx n 12 1 0x0 && fx n 18 1 0x0 && fx n 24 1 0x0 then accept (.cteq (fd 5 19 n) (fd 5 13 n) (fd 5 7 n))
    else none
  | 0x09 =>
    if fx n 4 9 0x0 && fx n 18 1 0x0 && fx n 24 1 0x0 then accept (.csets (fd 5 19 n) (fd 5 13 n) (fd 4 0 n))
    else none
  | 0x10 =>
    accept (.ldS8 (fd 5 20 n) (fd 3 17 n) (fd 4 13 n) (fd 13 0 n))
  | 0x11 =>
    accept (.ldZ8 (fd 5 20 n) (fd 3 17 n) (fd 4 13 n) (fd 13 0 n))
  | 0x12 =>
    accept (.ldS16 (fd 5 20 n) (fd 3 17 n) (fd 4 13 n) (fd 13 0 n))
  | 0x13 =>
    accept (.ldZ16 (fd 5 20 n) (fd 3 17 n) (fd 4 13 n) (fd 13 0 n))
  | 0x14 =>
    accept (.ldS32 (fd 5 20 n) (fd 3 17 n) (fd 4 13 n) (fd 13 0 n))
  | 0x15 =>
    accept (.ldZ32 (fd 5 20 n) (fd 3 17 n) (fd 4 13 n) (fd 13 0 n))
  | 0x16 =>
    accept (.ld64 (fd 5 20 n) (fd 3 17 n) (fd 4 13 n) (fd 13 0 n))
  | 0x17 =>
    if fx n 17 3 0x6 then accept (.ldrow (fd 5 20 n) (fd 4 13 n) (fd 13 0 n))
    else none
  | 0x18 =>
    accept (.st8 (fd 5 20 n) (fd 3 17 n) (fd 4 13 n) (fd 13 0 n))
  | 0x19 =>
    accept (.st16 (fd 5 20 n) (fd 3 17 n) (fd 4 13 n) (fd 13 0 n))
  | 0x1A =>
    accept (.st32 (fd 5 20 n) (fd 3 17 n) (fd 4 13 n) (fd 13 0 n))
  | 0x1B =>
    accept (.st64 (fd 5 20 n) (fd 3 17 n) (fd 4 13 n) (fd 13 0 n))
  | 0x1C =>
    if fx n 17 3 0x7 then accept (.strow (fd 5 20 n) (fd 4 13 n) (fd 13 0 n))
    else none
  | 0x1D =>
    accept (.ldc (fd 5 20 n) (fd 5 15 n) (fd 4 11 n) (fd 11 0 n))
  | 0x1E =>
    accept (.stc (fd 5 20 n) (fd 5 15 n) (fd 4 11 n) (fd 11 0 n))
  | 0x1F =>
    if fx n 17 3 0x0 then accept (.prefL1 (fd 5 20 n) (fd 4 13 n) (fd 13 0 n))
    else if fx n 17 3 0x1 then accept (.prefCc (fd 5 20 n) (fd 4 13 n) (fd 13 0 n))
    else if fx n 17 3 0x2 then accept (.prefDc (fd 5 20 n) (fd 4 13 n) (fd 13 0 n))
    else none
  | 0x20 =>
    if fx n 0 5 0x0 then accept (.atom (fd 5 20 n) (fd 3 17 n) (fd 4 13 n) (fd 5 8 n) (fd 2 6 n) (fb 5 n))
    else none
  | 0x21 =>
    if fx n 0 5 0x0 && fx n 7 1 0x0 then accept (.ratomH (fd 5 20 n) (fd 3 17 n) (fd 4 13 n) (fd 5 8 n) (fb 6 n) (fb 5 n))
    else if fx n 0 5 0x0 then accept (.ratom (fd 5 20 n) (fd 3 17 n) (fd 4 13 n) (fd 5 8 n) (fd 2 6 n) (fb 5 n))
    else none
  | 0x22 =>
    if fx n 0 5 0x0 && fx n 8 5 0x0 && fx n 17 3 0x7 then accept (.latom (fd 5 20 n) (fd 4 13 n) (fd 2 6 n) (fb 5 n))
    else none
  | 0x23 =>
    if fx n 17 3 0x6 then accept (.gath (fd 5 20 n) (fd 4 13 n) (fd 13 0 n))
    else none
  | 0x24 =>
    if fx n 17 3 0x7 then accept (.scat (fd 5 20 n) (fd 4 13 n) (fd 13 0 n))
    else none
  | 0x25 =>
    if fx n 16 7 0x0 then accept (.fenceC (fd 2 23 n) (fd 16 0 n))
    else none
  | 0x26 =>
    if fx n 8 5 0x0 && fx n 18 7 0x0 then accept (.bankset (fd 5 13 n) (fd 2 6 n) (fd 6 0 n))
    else none
  | 0x27 =>
    if fx n 18 7 0x0 then accept (.busy (fd 5 13 n) (fd 13 0 n))
    else none
  | 0x28 =>
    if fx n 18 7 0x0 then accept (.idle (fd 5 13 n) (fd 13 0 n))
    else none
  | 0x29 =>
    if fx n 19 6 0x0 then accept (.aBr (fd 19 0 n))
    else none
  | 0x2A =>
    if fx n 24 1 0x0 then accept (.aBeqz (fd 5 19 n) (fd 19 0 n))
    else none
  | 0x2B =>
    if fx n 24 1 0x0 then accept (.aBnez (fd 5 19 n) (fd 19 0 n))
    else none
  | 0x2C =>
    if fx n 24 1 0x0 then accept (.aBltz (fd 5 19 n) (fd 19 0 n))
    else none
  | 0x2D =>
    if fx n 24 1 0x0 then accept (.aBgez (fd 5 19 n) (fd 19 0 n))
    else none
  | 0x2E =>
    if fx n 19 6 0x0 && fx n 31 1 1 then accept (.aBfol (fd 19 0 n))
    else none
  | 0x2F =>
    if fx n 24 1 0x0 then accept (.bpub (fd 5 19 n) (fd 19 0 n))
    else none
  | 0x30 =>
    if fx n 24 1 0x0 then accept (.aLoop (fd 5 19 n) (fd 19 0 n))
    else none
  | 0x31 =>
    if fx n 0 22 0x0 then accept (.eng (fd 3 22 n) (fd 16 0 p) (fd 16 16 p))
    else none
  | 0x32 =>
    if fx n 0 13 0x0 && fx n 18 1 0x0 then accept (.aQpush (fd 6 19 n) (fd 5 13 n))
    else none
  | 0x33 =>
    if fx n 0 13 0x0 && fx n 24 1 0x0 then accept (.aQpop (fd 5 19 n) (fd 6 13 n))
    else none
  | 0x34 =>
    if fx n 0 25 0x0 then accept .aEnd
    else none
  | _ => none

/-- The V cluster's decoder (01 R35). -/
def decodeV (n : Nat) : Option Instr :=
  match n / 2 ^ 25 % 64 with
  | 0x01 =>
    if fx n 16 9 0x0 then accept (.vsett (fd 16 0 n))
    else none
  | 0x02 =>
    accept (.vfadd (fd 6 19 n) (fd 6 13 n) (fd 6 7 n) (fd 4 3 n) (fd 3 0 n))
  | 0x03 =>
    accept (.vfaddVa (fd 6 19 n) (fd 6 13 n) (fd 6 7 n) (fd 4 3 n) (fd 3 0 n))
  | 0x04 =>
    accept (.vfsub (fd 6 19 n) (fd 6 13 n) (fd 6 7 n) (fd 4 3 n) (fd 3 0 n))
  | 0x05 =>
    accept (.vfsubVa (fd 6 19 n) (fd 6 13 n) (fd 6 7 n) (fd 4 3 n) (fd 3 0 n))
  | 0x06 =>
    accept (.vfmul (fd 6 19 n) (fd 6 13 n) (fd 6 7 n) (fd 4 3 n) (fd 3 0 n))
  | 0x07 =>
    accept (.vfmulVa (fd 6 19 n) (fd 6 13 n) (fd 6 7 n) (fd 4 3 n) (fd 3 0 n))
  | 0x08 =>
    accept (.vfma (fd 6 19 n) (fd 6 13 n) (fd 6 7 n) (fd 4 3 n) (fd 3 0 n))
  | 0x09 =>
    accept (.vfmaVa (fd 6 19 n) (fd 6 13 n) (fd 6 7 n) (fd 4 3 n) (fd 3 0 n))
  | 0x0A =>
    accept (.vfmin (fd 6 19 n) (fd 6 13 n) (fd 6 7 n) (fd 4 3 n) (fd 3 0 n))
  | 0x0B =>
    accept (.vfminVa (fd 6 19 n) (fd 6 13 n) (fd 6 7 n) (fd 4 3 n) (fd 3 0 n))
  | 0x0C =>
    accept (.vfmax (fd 6 19 n) (fd 6 13 n) (fd 6 7 n) (fd 4 3 n) (fd 3 0 n))
  | 0x0D =>
    accept (.vfmaxVa (fd 6 19 n) (fd 6 13 n) (fd 6 7 n) (fd 4 3 n) (fd 3 0 n))
  | 0x0E =>
    accept (.vfcmp (fd 2 23 n) (fd 4 19 n) (fd 6 13 n) (fd 6 7 n) (fd 4 3 n) (fd 3 0 n))
  | 0x0F =>
    accept (.vfcmpVa (fd 2 23 n) (fd 4 19 n) (fd 6 13 n) (fd 6 7 n) (fd 4 3 n) (fd 3 0 n))
  | 0x10 =>
    accept (.vadd (fd 6 19 n) (fd 6 13 n) (fd 6 7 n) (fd 4 3 n) (fd 3 0 n))
  | 0x11 =>
    accept (.vaddVa (fd 6 19 n) (fd 6 13 n) (fd 6 7 n) (fd 4 3 n) (fd 3 0 n))
  | 0x12 =>
    accept (.vsub (fd 6 19 n) (fd 6 13 n) (fd 6 7 n) (fd 4 3 n) (fd 3 0 n))
  | 0x13 =>
    accept (.vsubVa (fd 6 19 n) (fd 6 13 n) (fd 6 7 n) (fd 4 3 n) (fd 3 0 n))
  | 0x14 =>
    accept (.vmul (fd 6 19 n) (fd 6 13 n) (fd 6 7 n) (fd 4 3 n) (fd 3 0 n))
  | 0x15 =>
    accept (.vmulVa (fd 6 19 n) (fd 6 13 n) (fd 6 7 n) (fd 4 3 n) (fd 3 0 n))
  | 0x16 =>
    accept (.vmulh (fd 6 19 n) (fd 6 13 n) (fd 6 7 n) (fd 4 3 n) (fd 3 0 n))
  | 0x17 =>
    accept (.vmulhVa (fd 6 19 n) (fd 6 13 n) (fd 6 7 n) (fd 4 3 n) (fd 3 0 n))
  | 0x18 =>
    accept (.vmin (fd 6 19 n) (fd 6 13 n) (fd 6 7 n) (fd 4 3 n) (fd 3 0 n))
  | 0x19 =>
    accept (.vminVa (fd 6 19 n) (fd 6 13 n) (fd 6 7 n) (fd 4 3 n) (fd 3 0 n))
  | 0x1A =>
    accept (.vmax (fd 6 19 n) (fd 6 13 n) (fd 6 7 n) (fd 4 3 n) (fd 3 0 n))
  | 0x1B =>
    accept (.vmaxVa (fd 6 19 n) (fd 6 13 n) (fd 6 7 n) (fd 4 3 n) (fd 3 0 n))
  | 0x1C =>
    accept (.vadds (fd 6 19 n) (fd 6 13 n) (fd 6 7 n) (fd 4 3 n) (fd 3 0 n))
  | 0x1D =>
    accept (.vaddsVa (fd 6 19 n) (fd 6 13 n) (fd 6 7 n) (fd 4 3 n) (fd 3 0 n))
  | 0x1E =>
    accept (.vsubs (fd 6 19 n) (fd 6 13 n) (fd 6 7 n) (fd 4 3 n) (fd 3 0 n))
  | 0x1F =>
    accept (.vsubsVa (fd 6 19 n) (fd 6 13 n) (fd 6 7 n) (fd 4 3 n) (fd 3 0 n))
  | 0x20 =>
    accept (.vand (fd 6 19 n) (fd 6 13 n) (fd 6 7 n) (fd 4 3 n) (fd 3 0 n))
  | 0x21 =>
    accept (.vandVa (fd 6 19 n) (fd 6 13 n) (fd 6 7 n) (fd 4 3 n) (fd 3 0 n))
  | 0x22 =>
    accept (.vor (fd 6 19 n) (fd 6 13 n) (fd 6 7 n) (fd 4 3 n) (fd 3 0 n))
  | 0x23 =>
    accept (.vorVa (fd 6 19 n) (fd 6 13 n) (fd 6 7 n) (fd 4 3 n) (fd 3 0 n))
  | 0x24 =>
    accept (.vxor (fd 6 19 n) (fd 6 13 n) (fd 6 7 n) (fd 4 3 n) (fd 3 0 n))
  | 0x25 =>
    accept (.vxorVa (fd 6 19 n) (fd 6 13 n) (fd 6 7 n) (fd 4 3 n) (fd 3 0 n))
  | 0x26 =>
    accept (.vshl (fd 6 19 n) (fd 6 13 n) (fd 6 7 n) (fd 4 3 n) (fd 3 0 n))
  | 0x27 =>
    accept (.vshlVa (fd 6 19 n) (fd 6 13 n) (fd 6 7 n) (fd 4 3 n) (fd 3 0 n))
  | 0x28 =>
    accept (.vshr (fd 6 19 n) (fd 6 13 n) (fd 6 7 n) (fd 4 3 n) (fd 3 0 n))
  | 0x29 =>
    accept (.vshrVa (fd 6 19 n) (fd 6 13 n) (fd 6 7 n) (fd 4 3 n) (fd 3 0 n))
  | 0x2A =>
    accept (.vcmp (fd 2 23 n) (fd 4 19 n) (fd 6 13 n) (fd 6 7 n) (fd 4 3 n) (fd 3 0 n))
  | 0x2B =>
    accept (.vcmpVa (fd 2 23 n) (fd 4 19 n) (fd 6 13 n) (fd 6 7 n) (fd 4 3 n) (fd 3 0 n))
  | 0x2C =>
    if fx n 0 3 0x0 then accept (.vclmul (fd 6 19 n) (fd 6 13 n) (fd 6 7 n) (fd 4 3 n))
    else if fx n 0 3 0x1 then accept (.vclmulh (fd 6 19 n) (fd 6 13 n) (fd 6 7 n) (fd 4 3 n))
    else none
  | 0x2D =>
    if fx n 0 3 0x0 then accept (.vclmulVa (fd 6 19 n) (fd 6 13 n) (fd 6 7 n) (fd 4 3 n))
    else if fx n 0 3 0x1 then accept (.vclmulhVa (fd 6 19 n) (fd 6 13 n) (fd 6 7 n) (fd 4 3 n))
    else none
  | 0x2E =>
    accept (.vsel (fd 6 19 n) (fd 6 13 n) (fd 6 7 n) (fd 4 3 n) (fd 3 0 n))
  | 0x2F =>
    accept (.vselVa (fd 6 19 n) (fd 6 13 n) (fd 6 7 n) (fd 4 3 n) (fd 3 0 n))
  | 0x30 =>
    if fx n 7 6 0x5 then accept (.vcvtI32n (fd 6 19 n) (fd 6 13 n) (fd 4 3 n) (fd 3 0 n))
    else if fx n 7 6 0x6 then accept (.vcvtI32ns (fd 6 19 n) (fd 6 13 n) (fd 4 3 n) (fd 3 0 n))
    else if fx n 7 6 0x7 then accept (.vcvtIw32 (fd 6 19 n) (fd 6 13 n) (fd 4 3 n) (fd 3 0 n))
    else if fx n 7 3 0x0 then accept (.vcvtF2n (fd 6 19 n) (fd 6 13 n) (fd 3 10 n) (fd 4 3 n) (fd 3 0 n))
    else if fx n 7 3 0x1 then accept (.vcvtF2ns (fd 6 19 n) (fd 6 13 n) (fd 3 10 n) (fd 4 3 n) (fd 3 0 n))
    else if fx n 7 3 0x2 then accept (.vcvtN2f (fd 6 19 n) (fd 6 13 n) (fd 3 10 n) (fd 4 3 n) (fd 3 0 n))
    else if fx n 7 3 0x3 then accept (.vcvtF2i (fd 6 19 n) (fd 6 13 n) (fd 3 10 n) (fd 4 3 n) (fd 3 0 n))
    else if fx n 7 3 0x4 then accept (.vcvtI2f (fd 6 19 n) (fd 6 13 n) (fd 3 10 n) (fd 4 3 n) (fd 3 0 n))
    else none
  | 0x31 =>
    if fx n 7 6 0x0 then accept (.vsfExp2 (fd 6 19 n) (fd 6 13 n) (fd 4 3 n) (fd 3 0 n))
    else if fx n 7 6 0x1 then accept (.vsfLog2 (fd 6 19 n) (fd 6 13 n) (fd 4 3 n) (fd 3 0 n))
    else if fx n 7 6 0x2 then accept (.vsfRcp (fd 6 19 n) (fd 6 13 n) (fd 4 3 n) (fd 3 0 n))
    else if fx n 7 6 0x3 then accept (.vsfRsqrt (fd 6 19 n) (fd 6 13 n) (fd 4 3 n) (fd 3 0 n))
    else if fx n 7 6 0x4 then accept (.vsfTanh (fd 6 19 n) (fd 6 13 n) (fd 4 3 n) (fd 3 0 n))
    else if fx n 7 6 0x5 then accept (.vsfSigm (fd 6 19 n) (fd 6 13 n) (fd 4 3 n) (fd 3 0 n))
    else none
  | 0x32 =>
    if fx n 9 4 0x0 then accept (.vredFadd (fd 6 19 n) (fd 6 13 n) (fd 2 7 n) (fd 4 3 n) (fd 3 0 n))
    else if fx n 9 4 0x1 then accept (.vredFmin (fd 6 19 n) (fd 6 13 n) (fd 2 7 n) (fd 4 3 n) (fd 3 0 n))
    else if fx n 9 4 0x2 then accept (.vredFmax (fd 6 19 n) (fd 6 13 n) (fd 2 7 n) (fd 4 3 n) (fd 3 0 n))
    else if fx n 9 4 0x3 then accept (.vredAdd (fd 6 19 n) (fd 6 13 n) (fd 2 7 n) (fd 4 3 n) (fd 3 0 n))
    else if fx n 9 4 0x4 then accept (.vredMin (fd 6 19 n) (fd 6 13 n) (fd 2 7 n) (fd 4 3 n) (fd 3 0 n))
    else if fx n 9 4 0x5 then accept (.vredMax (fd 6 19 n) (fd 6 13 n) (fd 2 7 n) (fd 4 3 n) (fd 3 0 n))
    else if fx n 9 4 0x6 then accept (.vredAnd (fd 6 19 n) (fd 6 13 n) (fd 2 7 n) (fd 4 3 n) (fd 3 0 n))
    else if fx n 9 4 0x7 then accept (.vredOr (fd 6 19 n) (fd 6 13 n) (fd 2 7 n) (fd 4 3 n) (fd 3 0 n))
    else if fx n 9 4 0x8 then accept (.vredXor (fd 6 19 n) (fd 6 13 n) (fd 2 7 n) (fd 4 3 n) (fd 3 0 n))
    else none
  | 0x33 =>
    if fx n 3 16 0x0 then accept (.vrng (fd 6 19 n) (fd 3 0 n))
    else none
  | 0x34 =>
    if fx n 7 6 0x0 then accept (.vmov (fd 6 19 n) (fd 6 13 n) (fd 4 3 n) (fd 3 0 n))
    else none
  | 0x35 =>
    if fx n 0 13 0x20 && fx n 17 2 0x0 && fx n 23 2 0x0 then accept (.vmnot (fd 4 19 n) (fd 4 13 n))
    else if fx n 0 13 0x28 && fx n 17 2 0x0 && fx n 23 2 0x0 then accept (.vmmov (fd 4 19 n) (fd 4 13 n))
    else if fx n 0 7 0x0 && fx n 11 2 0x0 && fx n 17 2 0x0 && fx n 23 2 0x0 then accept (.vmand (fd 4 19 n) (fd 4 13 n) (fd 4 7 n))
    else if fx n 0 7 0x8 && fx n 11 2 0x0 && fx n 17 2 0x0 && fx n 23 2 0x0 then accept (.vmor (fd 4 19 n) (fd 4 13 n) (fd 4 7 n))
    else if fx n 0 7 0x10 && fx n 11 2 0x0 && fx n 17 2 0x0 && fx n 23 2 0x0 then accept (.vmxor (fd 4 19 n) (fd 4 13 n) (fd 4 7 n))
    else if fx n 0 7 0x18 && fx n 11 2 0x0 && fx n 17 2 0x0 && fx n 23 2 0x0 then accept (.vmandn (fd 4 19 n) (fd 4 13 n) (fd 4 7 n))
    else if fx n 0 7 0x30 && fx n 23 2 0x0 then accept (.vmfirst (fd 4 19 n) (fd 12 7 n))
    else none
  | 0x36 =>
    if fx n 3 10 0x0 then accept (.vpop (fd 6 19 n) (fd 6 13 n) (fd 3 0 n))
    else none
  | 0x37 =>
    if fx n 0 3 0x0 && fx n 7 6 0x0 then accept (.vpush (fd 6 19 n) (fd 6 13 n) (fd 4 3 n))
    else none
  | 0x38 =>
    accept (.loopr (fd 2 23 n) (fb 22 n) (fd 3 19 n) (fd 19 0 n))
  | 0x39 =>
    if fx n 19 6 0x0 then accept (.vBr (fd 19 0 n))
    else none
  | 0x3A =>
    if fx n 19 6 0x0 && fx n 31 1 1 then accept (.vBfol (fd 19 0 n))
    else none
  | 0x3B =>
    if fx n 19 6 0x0 then accept (.vBqt (fd 19 0 n))
    else none
  | 0x3C =>
    if fx n 19 6 0x0 then accept (.vBqf (fd 19 0 n))
    else none
  | 0x3D =>
    if fx n 0 25 0x0 then accept .vEnd
    else none
  | _ => none

/-- The M cluster's decoder (01 R36). -/
noncomputable def decodeM (n : Nat) : Option Instr :=
  match n / 2 ^ 25 % 64 with
  | 0x01 =>
    if fx n 0 12 0x0 && fx n 15 4 0x0 && fx n 23 2 0x0 then accept (.clamp (fd 4 19 n) (fd 3 12 n))
    else none
  | 0x02 =>
    if fx n 0 12 0x0 && fx n 15 4 0x0 && fx n 23 2 0x0 then accept (.free (fd 4 19 n) (fd 3 12 n))
    else none
  | 0x03 =>
    if fx n 1 8 0x0 then accept (.mma (fd 2 23 n) (fd 4 19 n) (fd 4 15 n) (fd 3 12 n) (fd 3 9 n) (fb 0 n))
    else none
  | 0x04 =>
    if fx n 1 8 0x0 && fx n 31 1 0 then accept (.mmas (fd 2 23 n) (fd 4 19 n) (fd 4 15 n) (fd 3 12 n) (fd 3 9 n) (fb 0 n))
    else none
  | 0x05 =>
    if fx n 14 11 0x0 then accept (.rep (fb 13 n) (fb 12 n) (fd 12 0 n))
    else none
  | 0x06 =>
    if fx n 0 25 0x100 then accept .shapeOff
    else if fx n 3 6 0x0 && fx n 15 10 0x0 then accept (.shape (fd 3 12 n) (fd 3 9 n) (fd 3 0 n))
    else none
  | 0x07 =>
    if fx n 0 9 0x0 && fx n 23 2 0x0 then accept (.xpose (fd 4 19 n) (fd 4 15 n) (fd 3 12 n) (fd 3 9 n))
    else none
  | 0x08 =>
    if fx n 0 1 0x0 && fx n 12 3 0x0 && fx n 19 4 0x0 then accept (.epi (fd 2 23 n) (fd 4 15 n) (fd 3 9 n) (fb 8 n) (fb 7 n) (fd 6 1 n))
    else none
  | 0x09 =>
    if fx n 0 1 0x0 && fx n 9 6 0x0 && fx n 17 6 0x0 then accept (.epir (fd 2 23 n) (fd 2 15 n) (fb 8 n) (fb 7 n) (fd 6 1 n))
    else none
  | 0x0A =>
    if fx n 0 23 0x0 then accept (.tzero (fd 2 23 n))
    else none
  | 0x0B =>
    if fx n 0 15 0x0 && fx n 17 6 0x0 then accept (.tmov (fd 2 23 n) (fd 2 15 n))
    else none
  | 0x0D =>
    if fx n 16 6 0x0 then accept (.iset (fd 3 22 n) (fd 16 0 n))
    else none
  | 0x0E =>
    if fx n 16 6 0x0 then accept (.mIadd (fd 3 22 n) (fd 16 0 n))
    else none
  | 0x10 =>
    if fx n 19 6 0x0 then accept (.mBr (fd 19 0 n))
    else none
  | 0x11 =>
    if fx n 19 6 0x0 && fx n 31 1 1 then accept (.mBfol (fd 19 0 n))
    else none
  | 0x12 =>
    if fx n 19 6 0x0 then accept (.mBqt (fd 19 0 n))
    else none
  | 0x13 =>
    if fx n 19 6 0x0 then accept (.mBqf (fd 19 0 n))
    else none
  | 0x14 =>
    if fx n 22 3 0x0 then accept (.mLoop (fd 3 19 n) (fd 19 0 n))
    else none
  | 0x15 =>
    if fx n 0 25 0x0 then accept .mEnd
    else none
  | _ => none

/-- Whether the M cluster's decoder accepts a word: decodeM, without building the term. -/
def acceptsM (n : Nat) : Bool :=
  match n / 2 ^ 25 % 64 with
  | 0x01 =>
    fx n 0 12 0x0 && fx n 15 4 0x0 && fx n 23 2 0x0
  | 0x02 =>
    fx n 0 12 0x0 && fx n 15 4 0x0 && fx n 23 2 0x0
  | 0x03 =>
    fx n 1 8 0x0
  | 0x04 =>
    fx n 1 8 0x0 && fx n 31 1 0
  | 0x05 =>
    fx n 14 11 0x0
  | 0x06 =>
    (fx n 0 25 0x100) || (fx n 3 6 0x0 && fx n 15 10 0x0)
  | 0x07 =>
    fx n 0 9 0x0 && fx n 23 2 0x0
  | 0x08 =>
    fx n 0 1 0x0 && fx n 12 3 0x0 && fx n 19 4 0x0
  | 0x09 =>
    fx n 0 1 0x0 && fx n 9 6 0x0 && fx n 17 6 0x0
  | 0x0A =>
    fx n 0 23 0x0
  | 0x0B =>
    fx n 0 15 0x0 && fx n 17 6 0x0
  | 0x0D =>
    fx n 16 6 0x0
  | 0x0E =>
    fx n 16 6 0x0
  | 0x10 =>
    fx n 19 6 0x0
  | 0x11 =>
    fx n 19 6 0x0 && fx n 31 1 1
  | 0x12 =>
    fx n 19 6 0x0
  | 0x13 =>
    fx n 19 6 0x0
  | 0x14 =>
    fx n 22 3 0x0 && wfLoop (fd 19 0 n)
  | 0x15 =>
    fx n 0 25 0x0
  | _ => false

/-- Decoding for one cluster: the sync bit is bit 31 (R19). -/
noncomputable def decodeWord (c : Cl) (n p : Nat) : Option SlotWord :=
  (match c with
    | .s => decodeS n
    | .a => decodeA n p
    | .v => decodeV n
    | .m => decodeM n).map (fun i => ⟨fb 31 n, i⟩)

/-- How many words an instruction occupies: two for ENG, one for every other (R19, R30). -/
def Instr.words : Instr → Nat
  | .eng .. => 2
  | _ => 1

/-- Four bytes, the first at the lowest address, read as a word (00 R2); missing bytes read 0. -/
def wordOfBytes (bs : Bytes) : Nat :=
  (bs.getD 0 0#8).toNat + 2 ^ 8 * (bs.getD 1 0#8).toNat + 2 ^ 16 * (bs.getD 2 0#8).toNat + 2 ^ 24 * (bs.getD 3 0#8).toNat

/-- Decoding from bytes, with the bytes that follow the instruction. A word is four bytes, ENG eight. -/
noncomputable def decodeBytes (c : Cl) (bs : Bytes) : Option (SlotWord × Bytes) :=
  if bs.length < 4 then none
  else match decodeWord c (wordOfBytes bs) (wordOfBytes (bs.drop 4)) with
    | none => none
    | some w => if bs.length < 4 * w.i.words then none else some (w, bs.drop (4 * w.i.words))

/-- The word that the table numbers `w` (bit 0 the least significant bit of the first word), with the bits from
`nbits` upward zero, laid out as two words. -/
def tableWords (nbits w : Nat) : Nat × Nat := (w % 2 ^ nbits % 2 ^ 32, w % 2 ^ nbits / 2 ^ 32 % 2 ^ 32)

/-- The cluster whose decoder reads a table word: the first of M, S, A, V that accepts it. Each cluster has an opcode
map of its own (R33 to R36) and a word does not say whose it is; log entry 2. -/
def tableCluster (nbits w : Nat) : Cl :=
  let (n, p) := tableWords nbits w
  if acceptsM n then .m
  else if (decodeS n).isSome then .s
  else if (decodeA n p).isSome then .a
  else .v

/-- The instruction this decoder reads from a table word (log entry 2). -/
noncomputable def decodeTableWord (nbits w : Nat) : Option Instr :=
  let (n, p) := tableWords nbits w
  (decodeWord (tableCluster nbits w) n p).map SlotWord.i

/-- The cluster whose stream holds the instruction; none for an event. -/
def Instr.cl : Instr → Option Cl
  | .add .. => some .s
  | .sub .. => some .s
  | .and .. => some .s
  | .or .. => some .s
  | .xor .. => some .s
  | .andn .. => some .s
  | .sll .. => some .s
  | .srl .. => some .s
  | .sra .. => some .s
  | .rotr .. => some .s
  | .slt .. => some .s
  | .sltz .. => some .s
  | .min .. => some .s
  | .max .. => some .s
  | .minz .. => some .s
  | .maxz .. => some .s
  | .mul .. => some .s
  | .mulh .. => some .s
  | .mulhz .. => some .s
  | .mulhsz .. => some .s
  | .div .. => some .s
  | .divz .. => some .s
  | .rem .. => some .s
  | .remz .. => some .s
  | .clmul .. => some .s
  | .clmulh .. => some .s
  | .clz .. => some .s
  | .ctz .. => some .s
  | .popc .. => some .s
  | .brev .. => some .s
  | .bswap .. => some .s
  | .addi .. => some .s
  | .andi .. => some .s
  | .ori .. => some .s
  | .xori .. => some .s
  | .slli .. => some .s
  | .srli .. => some .s
  | .srai .. => some .s
  | .rotri .. => some .s
  | .slti .. => some .s
  | .sltiz .. => some .s
  | .lih .. => some .s
  | .faddF32 .. => some .s
  | .fsubF32 .. => some .s
  | .fmulF32 .. => some .s
  | .fmaF32 .. => some .s
  | .fdivF32 .. => some .s
  | .fsqrtF32 .. => some .s
  | .fminF32 .. => some .s
  | .fmaxF32 .. => some .s
  | .feqF32 .. => some .s
  | .fltF32 .. => some .s
  | .fleF32 .. => some .s
  | .fabsF32 .. => some .s
  | .fnegF32 .. => some .s
  | .fcvtS64F32 .. => some .s
  | .fcvtZ64F32 .. => some .s
  | .fcvtF32S64 .. => some .s
  | .fcvtF32Z64 .. => some .s
  | .fcvtF32Bf16 .. => some .s
  | .fcvtBf16F32 .. => some .s
  | .fcvtF32F16 .. => some .s
  | .fcvtF16F32 .. => some .s
  | .losschk .. => some .s
  | .sBr .. => some .s
  | .call .. => some .s
  | .sBeqz .. => some .s
  | .sBnez .. => some .s
  | .sBltz .. => some .s
  | .sBgez .. => some .s
  | .sBfol .. => some .s
  | .sBqt .. => some .s
  | .sBqf .. => some .s
  | .jalr .. => some .s
  | .sLoop .. => some .s
  | .trap .. => some .s
  | .eret => some .s
  | .sEnd => some .s
  | .early => some .s
  | .csrr .. => some .s
  | .csrw .. => some .s
  | .csrs .. => some .s
  | .csrc .. => some .s
  | .sQpush .. => some .s
  | .sQpop .. => some .s
  | .fmtq .. => some .s
  | .waitc .. => some .s
  | .waitg .. => some .s
  | .bar .. => some .s
  | .barF .. => some .s
  | .stepbeg .. => some .s
  | .stepvote .. => some .s
  | .stepend .. => some .s
  | .waitl .. => some .s
  | .lcWrite .. => none
  | .gaugeWrite .. => none
  | .molagMoicurWrite .. => none
  | .ethdbWrite .. => none
  | .dwloadWrite .. => none
  | .collgrpWrite .. => none
  | .glucfgWrite .. => none
  | .scrcfgWrite .. => none
  | .scrhWrite .. => none
  | .cadd .. => some .a
  | .csub .. => some .a
  | .cmov .. => some .a
  | .cclr .. => some .a
  | .aIadd .. => some .a
  | .isub .. => some .a
  | .imul .. => some .a
  | .iand .. => some .a
  | .ior .. => some .a
  | .ixor .. => some .a
  | .isll .. => some .a
  | .isrl .. => some .a
  | .isra .. => some .a
  | .islt .. => some .a
  | .isltz .. => some .a
  | .aaddi .. => some .a
  | .alih .. => some .a
  | .csetb .. => some .a
  | .csetbx .. => some .a
  | .csetbi .. => some .a
  | .candp .. => some .a
  | .cget .. => some .a
  | .ctest .. => some .a
  | .cteq .. => some .a
  | .csets .. => some .a
  | .ldS8 .. => some .a
  | .ldZ8 .. => some .a
  | .ldS16 .. => some .a
  | .ldZ16 .. => some .a
  | .ldS32 .. => some .a
  | .ldZ32 .. => some .a
  | .ld64 .. => some .a
  | .ldrow .. => some .a
  | .st8 .. => some .a
  | .st16 .. => some .a
  | .st32 .. => some .a
  | .st64 .. => some .a
  | .strow .. => some .a
  | .ldc .. => some .a
  | .stc .. => some .a
  | .prefL1 .. => some .a
  | .prefCc .. => some .a
  | .prefDc .. => some .a
  | .atom .. => some .a
  | .ratom .. => some .a
  | .ratomH .. => some .a
  | .latom .. => some .a
  | .gath .. => some .a
  | .scat .. => some .a
  | .fenceC .. => some .a
  | .bankset .. => some .a
  | .busy .. => some .a
  | .idle .. => some .a
  | .aBr .. => some .a
  | .aBeqz .. => some .a
  | .aBnez .. => some .a
  | .aBltz .. => some .a
  | .aBgez .. => some .a
  | .aBfol .. => some .a
  | .bpub .. => some .a
  | .aLoop .. => some .a
  | .eng .. => some .a
  | .aQpush .. => some .a
  | .aQpop .. => some .a
  | .aEnd => some .a
  | .vsett .. => some .v
  | .vfadd .. => some .v
  | .vfaddVa .. => some .v
  | .vfsub .. => some .v
  | .vfsubVa .. => some .v
  | .vfmul .. => some .v
  | .vfmulVa .. => some .v
  | .vfma .. => some .v
  | .vfmaVa .. => some .v
  | .vfmin .. => some .v
  | .vfminVa .. => some .v
  | .vfmax .. => some .v
  | .vfmaxVa .. => some .v
  | .vfcmp .. => some .v
  | .vfcmpVa .. => some .v
  | .vadd .. => some .v
  | .vaddVa .. => some .v
  | .vsub .. => some .v
  | .vsubVa .. => some .v
  | .vmul .. => some .v
  | .vmulVa .. => some .v
  | .vmulh .. => some .v
  | .vmulhVa .. => some .v
  | .vmin .. => some .v
  | .vminVa .. => some .v
  | .vmax .. => some .v
  | .vmaxVa .. => some .v
  | .vadds .. => some .v
  | .vaddsVa .. => some .v
  | .vsubs .. => some .v
  | .vsubsVa .. => some .v
  | .vand .. => some .v
  | .vandVa .. => some .v
  | .vor .. => some .v
  | .vorVa .. => some .v
  | .vxor .. => some .v
  | .vxorVa .. => some .v
  | .vshl .. => some .v
  | .vshlVa .. => some .v
  | .vshr .. => some .v
  | .vshrVa .. => some .v
  | .vcmp .. => some .v
  | .vcmpVa .. => some .v
  | .vclmul .. => some .v
  | .vclmulVa .. => some .v
  | .vclmulh .. => some .v
  | .vclmulhVa .. => some .v
  | .vsel .. => some .v
  | .vselVa .. => some .v
  | .vcvtF2n .. => some .v
  | .vcvtF2ns .. => some .v
  | .vcvtN2f .. => some .v
  | .vcvtF2i .. => some .v
  | .vcvtI2f .. => some .v
  | .vcvtI32n .. => some .v
  | .vcvtI32ns .. => some .v
  | .vcvtIw32 .. => some .v
  | .vsfExp2 .. => some .v
  | .vsfLog2 .. => some .v
  | .vsfRcp .. => some .v
  | .vsfRsqrt .. => some .v
  | .vsfTanh .. => some .v
  | .vsfSigm .. => some .v
  | .vredFadd .. => some .v
  | .vredFmin .. => some .v
  | .vredFmax .. => some .v
  | .vredAdd .. => some .v
  | .vredMin .. => some .v
  | .vredMax .. => some .v
  | .vredAnd .. => some .v
  | .vredOr .. => some .v
  | .vredXor .. => some .v
  | .vrng .. => some .v
  | .vmov .. => some .v
  | .vmand .. => some .v
  | .vmor .. => some .v
  | .vmxor .. => some .v
  | .vmandn .. => some .v
  | .vmnot .. => some .v
  | .vmmov .. => some .v
  | .vmfirst .. => some .v
  | .vpop .. => some .v
  | .vpush .. => some .v
  | .loopr .. => some .v
  | .vBr .. => some .v
  | .vBfol .. => some .v
  | .vBqt .. => some .v
  | .vBqf .. => some .v
  | .vEnd => some .v
  | .clamp .. => some .m
  | .free .. => some .m
  | .mma .. => some .m
  | .mmas .. => some .m
  | .rep .. => some .m
  | .shape .. => some .m
  | .shapeOff => some .m
  | .xpose .. => some .m
  | .epi .. => some .m
  | .epir .. => some .m
  | .tzero .. => some .m
  | .tmov .. => some .m
  | .iset .. => some .m
  | .mIadd .. => some .m
  | .mBr .. => some .m
  | .mBfol .. => some .m
  | .mBqt .. => some .m
  | .mBqf .. => some .m
  | .mLoop .. => some .m
  | .mEnd => some .m
  | .copyStart .. => none
  | .copyChunkSeen .. => none
  | .promiseSectorPerform .. => none
  | .promiseMiss .. => none
  | .gatherRowLand .. => none
  | .gaddApply .. => none
  | .stopFire .. => none
  | .mmaComplete .. => none
  | .epiOutputSeen => none
  | .xposeOutputSeen => none
  | .epirRowPerform .. => none
  | .bankSwitchBegin .. => none
  | .bankSwitchEnd .. => none
  | .barrierComplete => none
  | .queueDeadlock => none
  | .reportedTrapTaken => none
  | .watchdog => none
  | .earlyReached .. => none
  | .translationWalkComplete => none
  | .translationStallTimeout .. => none
  | .remoteAccessTimeout .. => none
  | .launch .. => none
  | .launchi .. => none
  | .cmdLoop .. => none
  | .endLoop .. => none
  | .cmdIf .. => none
  | .cmdElse .. => none
  | .endIf .. => none
  | .cmdWaitg .. => none
  | .signalImmediate .. => none
  | .signalDeferred .. => none
  | .signalDeferredApply .. => none
  | .stepopen .. => none
  | .stepclose .. => none
  | .cmdFence .. => none
  | .write .. => none
  | .writeGauge .. => none
  | .halt .. => none
  | .launchReady .. => none
  | .pieceStart => none
  | .launchRetire .. => none
  | .launchFaulted .. => none
  | .promotion .. => none
  | .preemption .. => none
  | .drainConversion => none
  | .sramScrub .. => none
  | .pageRetirement .. => none
  | .versionScrubVisit .. => none
  | .scrubPassEnd => none
  | .poisonRepair .. => none
  | .rewardArrival .. => none
  | .episodeTimeout .. => none
  | .planeScan => none
  | .dovetailEntryStart => none
  | .dovetailTableEnd => none
  | .freeSlotsArrival .. => none
  | .collectiveStart => none
  | .collectiveChunkRead .. => none
  | .collectivePacketArrival .. => none
  | .collectiveAckArrival .. => none
  | .collectiveComplete .. => none
  | .collectiveTimeout .. => none
  | .veneerPlaneSend .. => none
  | .veneerPlaneArrival .. => none
  | .veneerCancelArrival .. => none
  | .veneerAckArrival .. => none
  | .veneerEntryWaitDrop => none
  | .veneerFirstPlaneTimeout .. => none
  | .remoteLoadArrival .. => none
  | .remoteStoreArrival .. => none
  | .answerArrival .. => none
  | .dowelOperation .. => none
  | .dowelHandler .. => none
  | .handlerLoadComplete .. => none
  | .flitReplay .. => none
  | .laneSwap .. => none
  | .linkDown .. => none
  | .voteSend .. => none
  | .vetoVote .. => none
  | .voteArrival .. => none
  | .rootDecision .. => none
  | .applyDecision .. => none
  | .decidedStateExit .. => none
  | .voteWaitTimeout .. => none
  | .keepAliveSend .. => none
  | .declareLost .. => none
  | .lostNoticeArrival .. => none
  | .ancestorSilenceHalt .. => none
  | .fillAssignmentArrival .. => none
  | .fillComplete .. => none
  | .fillDoneArrival .. => none
  | .checkpointPathHalt .. => none
  | .fabricBarrierArrival .. => none
  | .fabricBarrierRelease .. => none
  | .scribeDivergence .. => none
  | .ethTxFrame .. => none
  | .ethTxComplete .. => none
  | .ethRxFrame .. => none
  | .powerCapThrottle .. => none
  | .thermalShutdown .. => none
  | .coreFailure => none
  | .deviceReset .. => none
  | .ownerLinkDown .. => none
  | .claim .. => none
  | .give .. => none
  | .accept .. => none
  | .release .. => none
  | .installTensorHandle .. => none
  | .markVersioned .. => none
  | .unmarkVersioned .. => none
  | .setCoreSet .. => none
  | .assignUnit .. => none
  | .restoreStepPosition .. => none
  | .debugHaltDrain .. => none
  | .debugHaltFreeze .. => none
  | .debugResume .. => none
  | .debugWrite .. => none
  | .repairMapUpdate .. => none
  | .quote .. => none
  | .setPowerCap .. => none
  | .assignEthernetRing .. => none
  | .accessPerformed .. => none
  | .engineTakesOperation .. => none
  | .coreScratchSwitchEnd => none
  | .streamDescriptorWrite .. => none
  | .ethLinkChange .. => none
  | .priorityFlowControlPause .. => none

/-- First word of an instruction of cluster S without its sync bit; 0 for any other. -/
def Instr.codeS : Instr → Nat
  | .add d a b => 0x02000000 + d.toNat * 524288 + a.toNat * 8192 + b.toNat * 128
  | .sub d a b => 0x02000001 + d.toNat * 524288 + a.toNat * 8192 + b.toNat * 128
  | .and d a b => 0x02000002 + d.toNat * 524288 + a.toNat * 8192 + b.toNat * 128
  | .or d a b => 0x02000003 + d.toNat * 524288 + a.toNat * 8192 + b.toNat * 128
  | .xor d a b => 0x02000004 + d.toNat * 524288 + a.toNat * 8192 + b.toNat * 128
  | .andn d a b => 0x02000005 + d.toNat * 524288 + a.toNat * 8192 + b.toNat * 128
  | .sll d a b => 0x02000006 + d.toNat * 524288 + a.toNat * 8192 + b.toNat * 128
  | .srl d a b => 0x02000007 + d.toNat * 524288 + a.toNat * 8192 + b.toNat * 128
  | .sra d a b => 0x02000008 + d.toNat * 524288 + a.toNat * 8192 + b.toNat * 128
  | .rotr d a b => 0x02000009 + d.toNat * 524288 + a.toNat * 8192 + b.toNat * 128
  | .slt d a b => 0x0200000A + d.toNat * 524288 + a.toNat * 8192 + b.toNat * 128
  | .sltz d a b => 0x0200000B + d.toNat * 524288 + a.toNat * 8192 + b.toNat * 128
  | .min d a b => 0x0200000C + d.toNat * 524288 + a.toNat * 8192 + b.toNat * 128
  | .max d a b => 0x0200000D + d.toNat * 524288 + a.toNat * 8192 + b.toNat * 128
  | .minz d a b => 0x0200000E + d.toNat * 524288 + a.toNat * 8192 + b.toNat * 128
  | .maxz d a b => 0x0200000F + d.toNat * 524288 + a.toNat * 8192 + b.toNat * 128
  | .mul d a b => 0x02000010 + d.toNat * 524288 + a.toNat * 8192 + b.toNat * 128
  | .mulh d a b => 0x02000011 + d.toNat * 524288 + a.toNat * 8192 + b.toNat * 128
  | .mulhz d a b => 0x02000012 + d.toNat * 524288 + a.toNat * 8192 + b.toNat * 128
  | .mulhsz d a b => 0x02000013 + d.toNat * 524288 + a.toNat * 8192 + b.toNat * 128
  | .div d a b => 0x02000018 + d.toNat * 524288 + a.toNat * 8192 + b.toNat * 128
  | .divz d a b => 0x02000019 + d.toNat * 524288 + a.toNat * 8192 + b.toNat * 128
  | .rem d a b => 0x0200001A + d.toNat * 524288 + a.toNat * 8192 + b.toNat * 128
  | .remz d a b => 0x0200001B + d.toNat * 524288 + a.toNat * 8192 + b.toNat * 128
  | .clmul d a b => 0x02000020 + d.toNat * 524288 + a.toNat * 8192 + b.toNat * 128
  | .clmulh d a b => 0x02000021 + d.toNat * 524288 + a.toNat * 8192 + b.toNat * 128
  | .clz d a => 0x02000028 + d.toNat * 524288 + a.toNat * 8192
  | .ctz d a => 0x02000029 + d.toNat * 524288 + a.toNat * 8192
  | .popc d a => 0x0200002A + d.toNat * 524288 + a.toNat * 8192
  | .brev d a => 0x0200002B + d.toNat * 524288 + a.toNat * 8192
  | .bswap d a => 0x0200002C + d.toNat * 524288 + a.toNat * 8192
  | .addi d a i => 0x04000000 + d.toNat * 524288 + a.toNat * 8192 + i.toNat
  | .andi d a i => 0x06000000 + d.toNat * 524288 + a.toNat * 8192 + i.toNat
  | .ori d a i => 0x08000000 + d.toNat * 524288 + a.toNat * 8192 + i.toNat
  | .xori d a i => 0x0A000000 + d.toNat * 524288 + a.toNat * 8192 + i.toNat
  | .slli d a s => 0x0C000000 + d.toNat * 524288 + a.toNat * 8192 + s.toNat
  | .srli d a s => 0x0C000040 + d.toNat * 524288 + a.toNat * 8192 + s.toNat
  | .srai d a s => 0x0C000080 + d.toNat * 524288 + a.toNat * 8192 + s.toNat
  | .rotri d a s => 0x0C0000C0 + d.toNat * 524288 + a.toNat * 8192 + s.toNat
  | .slti d a i => 0x0E000000 + d.toNat * 524288 + a.toNat * 8192 + i.toNat
  | .sltiz d a i => 0x10000000 + d.toNat * 524288 + a.toNat * 8192 + i.toNat
  | .lih d i => 0x12000000 + d.toNat * 524288 + i.toNat
  | .faddF32 d a b => 0x14000000 + d.toNat * 524288 + a.toNat * 8192 + b.toNat * 128
  | .fsubF32 d a b => 0x14000001 + d.toNat * 524288 + a.toNat * 8192 + b.toNat * 128
  | .fmulF32 d a b => 0x14000002 + d.toNat * 524288 + a.toNat * 8192 + b.toNat * 128
  | .fmaF32 d a b => 0x14000003 + d.toNat * 524288 + a.toNat * 8192 + b.toNat * 128
  | .fdivF32 d a b => 0x14000004 + d.toNat * 524288 + a.toNat * 8192 + b.toNat * 128
  | .fsqrtF32 d a => 0x14000005 + d.toNat * 524288 + a.toNat * 8192
  | .fminF32 d a b => 0x14000006 + d.toNat * 524288 + a.toNat * 8192 + b.toNat * 128
  | .fmaxF32 d a b => 0x14000007 + d.toNat * 524288 + a.toNat * 8192 + b.toNat * 128
  | .feqF32 d a b => 0x14000008 + d.toNat * 524288 + a.toNat * 8192 + b.toNat * 128
  | .fltF32 d a b => 0x14000009 + d.toNat * 524288 + a.toNat * 8192 + b.toNat * 128
  | .fleF32 d a b => 0x1400000A + d.toNat * 524288 + a.toNat * 8192 + b.toNat * 128
  | .fabsF32 d a => 0x1400000B + d.toNat * 524288 + a.toNat * 8192
  | .fnegF32 d a => 0x1400000C + d.toNat * 524288 + a.toNat * 8192
  | .fcvtS64F32 d a m => 0x14000010 + d.toNat * 524288 + a.toNat * 8192 + m.toNat * 128
  | .fcvtZ64F32 d a m => 0x14000011 + d.toNat * 524288 + a.toNat * 8192 + m.toNat * 128
  | .fcvtF32S64 d a m => 0x14000012 + d.toNat * 524288 + a.toNat * 8192 + m.toNat * 128
  | .fcvtF32Z64 d a m => 0x14000013 + d.toNat * 524288 + a.toNat * 8192 + m.toNat * 128
  | .fcvtF32Bf16 d a => 0x14000014 + d.toNat * 524288 + a.toNat * 8192
  | .fcvtBf16F32 d a m => 0x14000015 + d.toNat * 524288 + a.toNat * 8192 + m.toNat * 128
  | .fcvtF32F16 d a => 0x14000016 + d.toNat * 524288 + a.toNat * 8192
  | .fcvtF16F32 d a m => 0x14000017 + d.toNat * 524288 + a.toNat * 8192 + m.toNat * 128
  | .losschk d a w => 0x16000000 + d.toNat * 524288 + a.toNat * 8192 + w.toNat
  | .sBr o => 0x20000000 + o.toNat
  | .call o => 0x22000000 + o.toNat
  | .sBeqz c o => 0x24000000 + c.toNat * 524288 + o.toNat
  | .sBnez c o => 0x26000000 + c.toNat * 524288 + o.toNat
  | .sBltz c o => 0x28000000 + c.toNat * 524288 + o.toNat
  | .sBgez c o => 0x2A000000 + c.toNat * 524288 + o.toNat
  | .sBfol o => 0x2C000000 + o.toNat
  | .sBqt o => 0x2E000000 + o.toNat
  | .sBqf o => 0x30000000 + o.toNat
  | .jalr d a => 0x32000000 + d.toNat * 524288 + a.toNat * 8192
  | .sLoop c o => 0x34000000 + c.toNat * 524288 + o.toNat
  | .trap i => 0x36000000 + i.toNat
  | .eret => 0x38000000
  | .sEnd => 0x3A000000
  | .early => 0x3C000000
  | .csrr d r => 0x40000000 + d.toNat * 524288 + r.toNat
  | .csrw a r => 0x42000000 + a.toNat * 8192 + r.toNat
  | .csrs a r => 0x44000000 + a.toNat * 8192 + r.toNat
  | .csrc a r => 0x46000000 + a.toNat * 8192 + r.toNat
  | .sQpush q a => 0x48000000 + q.toNat * 524288 + a.toNat * 8192
  | .sQpop d q => 0x4A000000 + d.toNat * 524288 + q.toNat * 8192
  | .fmtq a => 0x4C000000 + a.toNat * 8192
  | .waitc a => 0x4E000000 + a.toNat * 8192
  | .waitg d a e g => 0x50000000 + d.toNat * 524288 + a.toNat * 8192 + e.toNat * 256 + g.toNat
  | .bar a s n => 0x52000000 + a.toNat * 8192 + s.toNat * 128 + n.toNat
  | .barF a s n => 0x52000200 + a.toNat * 8192 + s.toNat * 128 + n.toNat
  | .stepbeg d => 0x54000000 + d.toNat * 524288
  | .stepvote a u f => 0x56000000 + a.toNat * 8192 + u.toNat * 32 + f.toNat
  | .stepend d => 0x58000000 + d.toNat * 524288
  | .waitl d => 0x40000016 + d.toNat * 524288
  | _ => 0

/-- First word of an instruction of cluster A without its sync bit; 0 for any other. -/
def Instr.codeA : Instr → Nat
  | .cadd d a b => 0x02000000 + d.toNat * 524288 + a.toNat * 8192 + b.toNat * 128
  | .csub d a b => 0x02000001 + d.toNat * 524288 + a.toNat * 8192 + b.toNat * 128
  | .cmov d a => 0x02000002 + d.toNat * 524288 + a.toNat * 8192
  | .cclr d a => 0x02000003 + d.toNat * 524288 + a.toNat * 8192
  | .aIadd d a b => 0x02000008 + d.toNat * 524288 + a.toNat * 8192 + b.toNat * 128
  | .isub d a b => 0x02000009 + d.toNat * 524288 + a.toNat * 8192 + b.toNat * 128
  | .imul d a b => 0x0200000A + d.toNat * 524288 + a.toNat * 8192 + b.toNat * 128
  | .iand d a b => 0x0200000B + d.toNat * 524288 + a.toNat * 8192 + b.toNat * 128
  | .ior d a b => 0x0200000C + d.toNat * 524288 + a.toNat * 8192 + b.toNat * 128
  | .ixor d a b => 0x0200000D + d.toNat * 524288 + a.toNat * 8192 + b.toNat * 128
  | .isll d a b => 0x0200000E + d.toNat * 524288 + a.toNat * 8192 + b.toNat * 128
  | .isrl d a b => 0x0200000F + d.toNat * 524288 + a.toNat * 8192 + b.toNat * 128
  | .isra d a b => 0x02000010 + d.toNat * 524288 + a.toNat * 8192 + b.toNat * 128
  | .islt d a b => 0x02000011 + d.toNat * 524288 + a.toNat * 8192 + b.toNat * 128
  | .isltz d a b => 0x02000012 + d.toNat * 524288 + a.toNat * 8192 + b.toNat * 128
  | .aaddi d a i => 0x04000000 + d.toNat * 524288 + a.toNat * 8192 + i.toNat
  | .alih d i => 0x06000000 + d.toNat * 524288 + i.toNat
  | .csetb d a b => 0x08000000 + d.toNat * 524288 + a.toNat * 8192 + b.toNat * 128
  | .csetbx d a b => 0x08000001 + d.toNat * 524288 + a.toNat * 8192 + b.toNat * 128
  | .csetbi d a i => 0x0A000000 + d.toNat * 524288 + a.toNat * 8192 + i.toNat
  | .candp d a p => 0x0C000000 + d.toNat * 524288 + a.toNat * 8192 + p.toNat
  | .cget d a f => 0x0E000000 + d.toNat * 524288 + a.toNat * 8192 + f.toNat
  | .ctest d a b => 0x10000000 + d.toNat * 524288 + a.toNat * 8192 + b.toNat * 128
  | .cteq d a b => 0x10000001 + d.toNat * 524288 + a.toNat * 8192 + b.toNat * 128
  | .csets d a s => 0x12000000 + d.toNat * 524288 + a.toNat * 8192 + s.toNat
  | .ldS8 b q c i => 0x20000000 + b.toNat * 1048576 + q.toNat * 131072 + c.toNat * 8192 + i.toNat
  | .ldZ8 b q c i => 0x22000000 + b.toNat * 1048576 + q.toNat * 131072 + c.toNat * 8192 + i.toNat
  | .ldS16 b q c i => 0x24000000 + b.toNat * 1048576 + q.toNat * 131072 + c.toNat * 8192 + i.toNat
  | .ldZ16 b q c i => 0x26000000 + b.toNat * 1048576 + q.toNat * 131072 + c.toNat * 8192 + i.toNat
  | .ldS32 b q c i => 0x28000000 + b.toNat * 1048576 + q.toNat * 131072 + c.toNat * 8192 + i.toNat
  | .ldZ32 b q c i => 0x2A000000 + b.toNat * 1048576 + q.toNat * 131072 + c.toNat * 8192 + i.toNat
  | .ld64 b q c i => 0x2C000000 + b.toNat * 1048576 + q.toNat * 131072 + c.toNat * 8192 + i.toNat
  | .ldrow b c i => 0x2E0C0000 + b.toNat * 1048576 + c.toNat * 8192 + i.toNat
  | .st8 b q c i => 0x30000000 + b.toNat * 1048576 + q.toNat * 131072 + c.toNat * 8192 + i.toNat
  | .st16 b q c i => 0x32000000 + b.toNat * 1048576 + q.toNat * 131072 + c.toNat * 8192 + i.toNat
  | .st32 b q c i => 0x34000000 + b.toNat * 1048576 + q.toNat * 131072 + c.toNat * 8192 + i.toNat
  | .st64 b q c i => 0x36000000 + b.toNat * 1048576 + q.toNat * 131072 + c.toNat * 8192 + i.toNat
  | .strow b c i => 0x380E0000 + b.toNat * 1048576 + c.toNat * 8192 + i.toNat
  | .ldc d b c i => 0x3A000000 + d.toNat * 1048576 + b.toNat * 32768 + c.toNat * 2048 + i.toNat
  | .stc d b c i => 0x3C000000 + d.toNat * 1048576 + b.toNat * 32768 + c.toNat * 2048 + i.toNat
  | .prefL1 b c i => 0x3E000000 + b.toNat * 1048576 + c.toNat * 8192 + i.toNat
  | .prefCc b c i => 0x3E020000 + b.toNat * 1048576 + c.toNat * 8192 + i.toNat
  | .prefDc b c i => 0x3E040000 + b.toNat * 1048576 + c.toNat * 8192 + i.toNat
  | .atom b q c o z s => 0x40000000 + b.toNat * 1048576 + q.toNat * 131072 + c.toNat * 8192 + o.toNat * 256 + z.toNat * 64 + s.toNat * 32
  | .ratom b q c o z s => 0x42000000 + b.toNat * 1048576 + q.toNat * 131072 + c.toNat * 8192 + o.toNat * 256 + z.toNat * 64 + s.toNat * 32
  | .ratomH b q c n r s => 0x42000000 + b.toNat * 1048576 + q.toNat * 131072 + c.toNat * 8192 + n.toNat * 256 + r.toNat * 64 + s.toNat * 32
  | .latom b c z s => 0x440E0000 + b.toNat * 1048576 + c.toNat * 8192 + z.toNat * 64 + s.toNat * 32
  | .gath b c i => 0x460C0000 + b.toNat * 1048576 + c.toNat * 8192 + i.toNat
  | .scat b c i => 0x480E0000 + b.toNat * 1048576 + c.toNat * 8192 + i.toNat
  | .fenceC s m => 0x4A000000 + s.toNat * 8388608 + m.toNat
  | .bankset a m n => 0x4C000000 + a.toNat * 8192 + m.toNat * 64 + n.toNat
  | .busy a n => 0x4E000000 + a.toNat * 8192 + n.toNat
  | .idle a n => 0x50000000 + a.toNat * 8192 + n.toNat
  | .aBr o => 0x52000000 + o.toNat
  | .aBeqz c o => 0x54000000 + c.toNat * 524288 + o.toNat
  | .aBnez c o => 0x56000000 + c.toNat * 524288 + o.toNat
  | .aBltz c o => 0x58000000 + c.toNat * 524288 + o.toNat
  | .aBgez c o => 0x5A000000 + c.toNat * 524288 + o.toNat
  | .aBfol o => 0x5C000000 + o.toNat
  | .bpub c o => 0x5E000000 + c.toNat * 524288 + o.toNat
  | .aLoop c o => 0x60000000 + c.toNat * 524288 + o.toNat
  | .eng sel _ _ => 0x62000000 + sel.toNat * 4194304
  | .aQpush q a => 0x64000000 + q.toNat * 524288 + a.toNat * 8192
  | .aQpop d q => 0x66000000 + d.toNat * 524288 + q.toNat * 8192
  | .aEnd => 0x68000000
  | _ => 0

/-- First word of an instruction of cluster V without its sync bit; 0 for any other. -/
def Instr.codeV : Instr → Nat
  | .vsett t => 0x02000000 + t.toNat
  | .vfadd d a b p k => 0x04000000 + d.toNat * 524288 + a.toNat * 8192 + b.toNat * 128 + p.toNat * 8 + k.toNat
  | .vfaddVa d a b p k => 0x06000000 + d.toNat * 524288 + a.toNat * 8192 + b.toNat * 128 + p.toNat * 8 + k.toNat
  | .vfsub d a b p k => 0x08000000 + d.toNat * 524288 + a.toNat * 8192 + b.toNat * 128 + p.toNat * 8 + k.toNat
  | .vfsubVa d a b p k => 0x0A000000 + d.toNat * 524288 + a.toNat * 8192 + b.toNat * 128 + p.toNat * 8 + k.toNat
  | .vfmul d a b p k => 0x0C000000 + d.toNat * 524288 + a.toNat * 8192 + b.toNat * 128 + p.toNat * 8 + k.toNat
  | .vfmulVa d a b p k => 0x0E000000 + d.toNat * 524288 + a.toNat * 8192 + b.toNat * 128 + p.toNat * 8 + k.toNat
  | .vfma d a b p k => 0x10000000 + d.toNat * 524288 + a.toNat * 8192 + b.toNat * 128 + p.toNat * 8 + k.toNat
  | .vfmaVa d a b p k => 0x12000000 + d.toNat * 524288 + a.toNat * 8192 + b.toNat * 128 + p.toNat * 8 + k.toNat
  | .vfmin d a b p k => 0x14000000 + d.toNat * 524288 + a.toNat * 8192 + b.toNat * 128 + p.toNat * 8 + k.toNat
  | .vfminVa d a b p k => 0x16000000 + d.toNat * 524288 + a.toNat * 8192 + b.toNat * 128 + p.toNat * 8 + k.toNat
  | .vfmax d a b p k => 0x18000000 + d.toNat * 524288 + a.toNat * 8192 + b.toNat * 128 + p.toNat * 8 + k.toNat
  | .vfmaxVa d a b p k => 0x1A000000 + d.toNat * 524288 + a.toNat * 8192 + b.toNat * 128 + p.toNat * 8 + k.toNat
  | .vfcmp c m a b p k => 0x1C000000 + c.toNat * 8388608 + m.toNat * 524288 + a.toNat * 8192 + b.toNat * 128 + p.toNat * 8 + k.toNat
  | .vfcmpVa c m a b p k => 0x1E000000 + c.toNat * 8388608 + m.toNat * 524288 + a.toNat * 8192 + b.toNat * 128 + p.toNat * 8 + k.toNat
  | .vadd d a b p k => 0x20000000 + d.toNat * 524288 + a.toNat * 8192 + b.toNat * 128 + p.toNat * 8 + k.toNat
  | .vaddVa d a b p k => 0x22000000 + d.toNat * 524288 + a.toNat * 8192 + b.toNat * 128 + p.toNat * 8 + k.toNat
  | .vsub d a b p k => 0x24000000 + d.toNat * 524288 + a.toNat * 8192 + b.toNat * 128 + p.toNat * 8 + k.toNat
  | .vsubVa d a b p k => 0x26000000 + d.toNat * 524288 + a.toNat * 8192 + b.toNat * 128 + p.toNat * 8 + k.toNat
  | .vmul d a b p k => 0x28000000 + d.toNat * 524288 + a.toNat * 8192 + b.toNat * 128 + p.toNat * 8 + k.toNat
  | .vmulVa d a b p k => 0x2A000000 + d.toNat * 524288 + a.toNat * 8192 + b.toNat * 128 + p.toNat * 8 + k.toNat
  | .vmulh d a b p k => 0x2C000000 + d.toNat * 524288 + a.toNat * 8192 + b.toNat * 128 + p.toNat * 8 + k.toNat
  | .vmulhVa d a b p k => 0x2E000000 + d.toNat * 524288 + a.toNat * 8192 + b.toNat * 128 + p.toNat * 8 + k.toNat
  | .vmin d a b p k => 0x30000000 + d.toNat * 524288 + a.toNat * 8192 + b.toNat * 128 + p.toNat * 8 + k.toNat
  | .vminVa d a b p k => 0x32000000 + d.toNat * 524288 + a.toNat * 8192 + b.toNat * 128 + p.toNat * 8 + k.toNat
  | .vmax d a b p k => 0x34000000 + d.toNat * 524288 + a.toNat * 8192 + b.toNat * 128 + p.toNat * 8 + k.toNat
  | .vmaxVa d a b p k => 0x36000000 + d.toNat * 524288 + a.toNat * 8192 + b.toNat * 128 + p.toNat * 8 + k.toNat
  | .vadds d a b p k => 0x38000000 + d.toNat * 524288 + a.toNat * 8192 + b.toNat * 128 + p.toNat * 8 + k.toNat
  | .vaddsVa d a b p k => 0x3A000000 + d.toNat * 524288 + a.toNat * 8192 + b.toNat * 128 + p.toNat * 8 + k.toNat
  | .vsubs d a b p k => 0x3C000000 + d.toNat * 524288 + a.toNat * 8192 + b.toNat * 128 + p.toNat * 8 + k.toNat
  | .vsubsVa d a b p k => 0x3E000000 + d.toNat * 524288 + a.toNat * 8192 + b.toNat * 128 + p.toNat * 8 + k.toNat
  | .vand d a b p k => 0x40000000 + d.toNat * 524288 + a.toNat * 8192 + b.toNat * 128 + p.toNat * 8 + k.toNat
  | .vandVa d a b p k => 0x42000000 + d.toNat * 524288 + a.toNat * 8192 + b.toNat * 128 + p.toNat * 8 + k.toNat
  | .vor d a b p k => 0x44000000 + d.toNat * 524288 + a.toNat * 8192 + b.toNat * 128 + p.toNat * 8 + k.toNat
  | .vorVa d a b p k => 0x46000000 + d.toNat * 524288 + a.toNat * 8192 + b.toNat * 128 + p.toNat * 8 + k.toNat
  | .vxor d a b p k => 0x48000000 + d.toNat * 524288 + a.toNat * 8192 + b.toNat * 128 + p.toNat * 8 + k.toNat
  | .vxorVa d a b p k => 0x4A000000 + d.toNat * 524288 + a.toNat * 8192 + b.toNat * 128 + p.toNat * 8 + k.toNat
  | .vshl d a b p k => 0x4C000000 + d.toNat * 524288 + a.toNat * 8192 + b.toNat * 128 + p.toNat * 8 + k.toNat
  | .vshlVa d a b p k => 0x4E000000 + d.toNat * 524288 + a.toNat * 8192 + b.toNat * 128 + p.toNat * 8 + k.toNat
  | .vshr d a b p k => 0x50000000 + d.toNat * 524288 + a.toNat * 8192 + b.toNat * 128 + p.toNat * 8 + k.toNat
  | .vshrVa d a b p k => 0x52000000 + d.toNat * 524288 + a.toNat * 8192 + b.toNat * 128 + p.toNat * 8 + k.toNat
  | .vcmp c m a b p k => 0x54000000 + c.toNat * 8388608 + m.toNat * 524288 + a.toNat * 8192 + b.toNat * 128 + p.toNat * 8 + k.toNat
  | .vcmpVa c m a b p k => 0x56000000 + c.toNat * 8388608 + m.toNat * 524288 + a.toNat * 8192 + b.toNat * 128 + p.toNat * 8 + k.toNat
  | .vclmul d a b p => 0x58000000 + d.toNat * 524288 + a.toNat * 8192 + b.toNat * 128 + p.toNat * 8
  | .vclmulVa d a b p => 0x5A000000 + d.toNat * 524288 + a.toNat * 8192 + b.toNat * 128 + p.toNat * 8
  | .vclmulh d a b p => 0x58000001 + d.toNat * 524288 + a.toNat * 8192 + b.toNat * 128 + p.toNat * 8
  | .vclmulhVa d a b p => 0x5A000001 + d.toNat * 524288 + a.toNat * 8192 + b.toNat * 128 + p.toNat * 8
  | .vsel d a b p k => 0x5C000000 + d.toNat * 524288 + a.toNat * 8192 + b.toNat * 128 + p.toNat * 8 + k.toNat
  | .vselVa d a b p k => 0x5E000000 + d.toNat * 524288 + a.toNat * 8192 + b.toNat * 128 + p.toNat * 8 + k.toNat
  | .vcvtF2n d a r p h => 0x60000000 + d.toNat * 524288 + a.toNat * 8192 + r.toNat * 1024 + p.toNat * 8 + h.toNat
  | .vcvtF2ns d a r p h => 0x60000080 + d.toNat * 524288 + a.toNat * 8192 + r.toNat * 1024 + p.toNat * 8 + h.toNat
  | .vcvtN2f d a r p h => 0x60000100 + d.toNat * 524288 + a.toNat * 8192 + r.toNat * 1024 + p.toNat * 8 + h.toNat
  | .vcvtF2i d a r p h => 0x60000180 + d.toNat * 524288 + a.toNat * 8192 + r.toNat * 1024 + p.toNat * 8 + h.toNat
  | .vcvtI2f d a r p h => 0x60000200 + d.toNat * 524288 + a.toNat * 8192 + r.toNat * 1024 + p.toNat * 8 + h.toNat
  | .vcvtI32n d a p h => 0x60000280 + d.toNat * 524288 + a.toNat * 8192 + p.toNat * 8 + h.toNat
  | .vcvtI32ns d a p h => 0x60000300 + d.toNat * 524288 + a.toNat * 8192 + p.toNat * 8 + h.toNat
  | .vcvtIw32 d a p h => 0x60000380 + d.toNat * 524288 + a.toNat * 8192 + p.toNat * 8 + h.toNat
  | .vsfExp2 d a p k => 0x62000000 + d.toNat * 524288 + a.toNat * 8192 + p.toNat * 8 + k.toNat
  | .vsfLog2 d a p k => 0x62000080 + d.toNat * 524288 + a.toNat * 8192 + p.toNat * 8 + k.toNat
  | .vsfRcp d a p k => 0x62000100 + d.toNat * 524288 + a.toNat * 8192 + p.toNat * 8 + k.toNat
  | .vsfRsqrt d a p k => 0x62000180 + d.toNat * 524288 + a.toNat * 8192 + p.toNat * 8 + k.toNat
  | .vsfTanh d a p k => 0x62000200 + d.toNat * 524288 + a.toNat * 8192 + p.toNat * 8 + k.toNat
  | .vsfSigm d a p k => 0x62000280 + d.toNat * 524288 + a.toNat * 8192 + p.toNat * 8 + k.toNat
  | .vredFadd d a s p k => 0x64000000 + d.toNat * 524288 + a.toNat * 8192 + s.toNat * 128 + p.toNat * 8 + k.toNat
  | .vredFmin d a s p k => 0x64000200 + d.toNat * 524288 + a.toNat * 8192 + s.toNat * 128 + p.toNat * 8 + k.toNat
  | .vredFmax d a s p k => 0x64000400 + d.toNat * 524288 + a.toNat * 8192 + s.toNat * 128 + p.toNat * 8 + k.toNat
  | .vredAdd d a s p k => 0x64000600 + d.toNat * 524288 + a.toNat * 8192 + s.toNat * 128 + p.toNat * 8 + k.toNat
  | .vredMin d a s p k => 0x64000800 + d.toNat * 524288 + a.toNat * 8192 + s.toNat * 128 + p.toNat * 8 + k.toNat
  | .vredMax d a s p k => 0x64000A00 + d.toNat * 524288 + a.toNat * 8192 + s.toNat * 128 + p.toNat * 8 + k.toNat
  | .vredAnd d a s p k => 0x64000C00 + d.toNat * 524288 + a.toNat * 8192 + s.toNat * 128 + p.toNat * 8 + k.toNat
  | .vredOr d a s p k => 0x64000E00 + d.toNat * 524288 + a.toNat * 8192 + s.toNat * 128 + p.toNat * 8 + k.toNat
  | .vredXor d a s p k => 0x64001000 + d.toNat * 524288 + a.toNat * 8192 + s.toNat * 128 + p.toNat * 8 + k.toNat
  | .vrng d k => 0x66000000 + d.toNat * 524288 + k.toNat
  | .vmov d a p k => 0x68000000 + d.toNat * 524288 + a.toNat * 8192 + p.toNat * 8 + k.toNat
  | .vmand d a b => 0x6A000000 + d.toNat * 524288 + a.toNat * 8192 + b.toNat * 128
  | .vmor d a b => 0x6A000008 + d.toNat * 524288 + a.toNat * 8192 + b.toNat * 128
  | .vmxor d a b => 0x6A000010 + d.toNat * 524288 + a.toNat * 8192 + b.toNat * 128
  | .vmandn d a b => 0x6A000018 + d.toNat * 524288 + a.toNat * 8192 + b.toNat * 128
  | .vmnot d a => 0x6A000020 + d.toNat * 524288 + a.toNat * 8192
  | .vmmov d a => 0x6A000028 + d.toNat * 524288 + a.toNat * 8192
  | .vmfirst d n => 0x6A000030 + d.toNat * 524288 + n.toNat * 128
  | .vpop d q k => 0x6C000000 + d.toNat * 524288 + q.toNat * 8192 + k.toNat
  | .vpush q a p => 0x6E000000 + q.toNat * 524288 + a.toNat * 8192 + p.toNat * 8
  | .loopr s r g o => 0x70000000 + s.toNat * 8388608 + r.toNat * 4194304 + g.toNat * 524288 + o.toNat
  | .vBr o => 0x72000000 + o.toNat
  | .vBfol o => 0x74000000 + o.toNat
  | .vBqt o => 0x76000000 + o.toNat
  | .vBqf o => 0x78000000 + o.toNat
  | .vEnd => 0x7A000000
  | _ => 0

/-- First word of an instruction of cluster M without its sync bit; 0 for any other. -/
def Instr.codeM : Instr → Nat
  | .clamp a i => 0x02000000 + a.toNat * 524288 + i.toNat * 4096
  | .free a i => 0x04000000 + a.toNat * 524288 + i.toNat * 4096
  | .mma t a b i j z => 0x06000000 + t.toNat * 8388608 + a.toNat * 524288 + b.toNat * 32768 + i.toNat * 4096 + j.toNat * 512 + z.toNat
  | .mmas t a b i j z => 0x08000000 + t.toNat * 8388608 + a.toNat * 524288 + b.toNat * 32768 + i.toNat * 4096 + j.toNat * 512 + z.toNat
  | .rep b a n => 0x0A000000 + b.toNat * 8192 + a.toNat * 4096 + n.toNat
  | .shape i j k => 0x0C000000 + i.toNat * 4096 + j.toNat * 512 + k.toNat
  | .shapeOff => 0x0C000100
  | .xpose a b i j => 0x0E000000 + a.toNat * 524288 + b.toNat * 32768 + i.toNat * 4096 + j.toNat * 512
  | .epi t b j r e g => 0x10000000 + t.toNat * 8388608 + b.toNat * 32768 + j.toNat * 512 + r.toNat * 256 + e.toNat * 128 + g.toNat * 2
  | .epir t n r e g => 0x12000000 + t.toNat * 8388608 + n.toNat * 32768 + r.toNat * 256 + e.toNat * 128 + g.toNat * 2
  | .tzero t => 0x14000000 + t.toNat * 8388608
  | .tmov t s => 0x16000000 + t.toNat * 8388608 + s.toNat * 32768
  | .iset i v => 0x1A000000 + i.toNat * 4194304 + v.toNat
  | .mIadd i v => 0x1C000000 + i.toNat * 4194304 + v.toNat
  | .mBr o => 0x20000000 + o.toNat
  | .mBfol o => 0x22000000 + o.toNat
  | .mBqt o => 0x24000000 + o.toNat
  | .mBqf o => 0x26000000 + o.toNat
  | .mLoop k o => 0x28000000 + k.toNat * 524288 + o.toNat
  | .mEnd => 0x2A000000
  | _ => 0

/-- First word of an instruction without its sync bit; 0 for an event. -/
def Instr.code (i : Instr) : Nat :=
  match i.cl with
  | some .s => i.codeS
  | some .a => i.codeA
  | some .v => i.codeV
  | some .m => i.codeM
  | none => 0

/-- The payload word of ENG: ew0 in [15:0] and ew1 in [31:16] (R30). -/
def Instr.payload : Instr → Nat
  | .eng _ ew0 ew1 => ew0.toNat + ew1.toNat * 2 ^ 16
  | _ => 0

/-- The sync bit a word must have: BFOL of A, V and M and bar.f are bundle words, MMAS never is (R23, 03 R100, 07 R222). -/
def Instr.syncOk (y : Bool) : Instr → Bool
  | .aBfol _ | .vBfol _ | .mBfol _ | .barF .. => y
  | .mmas .. => !y
  | _ => true

/-- The words of an instruction. -/
def encode (w : SlotWord) : List (BitVec 32) :=
  match w.i.cl with
  | none => []
  | some _ =>
    BitVec.ofNat 32 (w.y.toNat * 2 ^ 31 + w.i.code) ::
      (if w.i.words = 2 then [BitVec.ofNat 32 w.i.payload] else [])

/-- Bytes of a 32-bit word, little-endian. -/
def bytesOfWord (n : Nat) : Bytes :=
  [BitVec.ofNat 8 n, BitVec.ofNat 8 (n / 2 ^ 8), BitVec.ofNat 8 (n / 2 ^ 16), BitVec.ofNat 8 (n / 2 ^ 24)]

/-! ## Commands of the command processor (13_die_scheduling.md R330, R331) -/

/-- A 32-byte command as the number of its 256 bits, read for stream `n`. OP is byte 0 and FL byte 1. Reserved bits are
ignored (R330). None: the undefined OP of R330. -/
noncomputable def decodeCommand (n : BitVec 6) (w : Nat) : Option Instr :=
  let fl (b : Nat) : Bool := fb (8 + b) w
  let lo : W64 := fd 64 64 w
  let hi : W64 := fd 64 128 w
  let g : BitVec 8 := fd 8 96 w
  let tau : W32 := fd 32 64 w
  match w % 256 with
  | 0x01 => some (.launch n lo)
  | 0x02 => some (.launchi n (fd 6 8 w) lo hi)
  | 0x03 => some (.cmdLoop n lo)
  | 0x04 => some (.endLoop n)
  | 0x05 => some (.cmdIf n (fl 0) tau g)
  | 0x06 => some (.cmdElse n)
  | 0x07 => some (.endIf n)
  | 0x08 => some (.cmdWaitg n tau g)
  | 0x09 => some (if fl 0 then .signalImmediate n (fl 1) tau g else .signalDeferred n (fl 1) tau g)
  | 0x0A => some (.stepopen n lo (fd 8 128 w) (fd 8 136 w) (fd 9 144 w))
  | 0x0B => some (.stepclose n)
  | 0x0C => some (.cmdFence n (fl 0))
  | 0x0D => some (if fl 0 then .writeGauge n lo (fd 8 128 w) else .write n lo hi)
  | 0x0E => some (.halt n (fl 1))
  | _ => none

/-- An OWNCMD write by master `m` (18_package_host_boot.md R422): operation in [7:0], target in [15:8]. -/
noncomputable def decodeOwnCmd (m : Nat) (v : W64) : Option Instr :=
  if 16 < v.toNat / 256 % 256 && v.toNat / 256 % 256 ≠ 255 then none
  else match v.toNat % 256 with
  | 1 => some (.claim m)
  | 2 => some (.give m (fd 8 8 v.toNat))
  | 3 => some (.accept m)
  | 4 => some (.release m)
  | _ => none

end Sys2Proof
end

