-- ==== Sys2Proof/Machine/Command.lean ====
section
/-! DEFINITION. The command processor reads the command at HEAD of a stream and runs it (13 R329, R330, R334). Like runM, the
reading is decodeCommand followed by exec, which Sys2Proof.Laws.runCommand_eq proves. -/
namespace Sys2Proof.Machine

/-- Address of the command at HEAD (R329). -/
def Stream.at_ (x : Stream) : Nat :=
  x.base.toNat + 32 * (if x.size = 0 then x.head.toNat else x.head.toNat % x.size.toNat)

/-- A command that stands in a part of a LOOP or IF that does not run may have any OP; elsewhere an undefined one is stream
fault 1 (R330, R332). -/
def undefinedOp (n : BitVec 6) (s : State) : Host.Outcome State Fault Refusal := commandUnless n s (fun _ => .fault 1)

/-- Run the command whose 256 bits are `w` (R330, R331). -/
def runCommandWord (n : BitVec 6) (w : Nat) (s : State) : Host.Outcome State Fault Refusal :=
  let fl (b : Nat) : Bool := fb (8 + b) w
  let lo : W64 := fd 64 64 w
  let hi : W64 := fd 64 128 w
  let g : BitVec 8 := fd 8 96 w
  let tau : W32 := fd 32 64 w
  match w % 256 with
  | 0x01 => execLaunch n lo s
  | 0x02 => execLaunchi n (fd 6 8 w) lo hi s
  | 0x03 => execCmdLoop n lo s
  | 0x04 => execEndLoop n s
  | 0x05 => execCmdIf n (fl 0) tau g s
  | 0x06 => execCmdElse n s
  | 0x07 => execEndIf n s
  | 0x08 => execCmdWaitg n tau g s
  | 0x09 => if fl 0 then execSignalImmediate n (fl 1) tau g s else execSignalDeferred n (fl 1) tau g s
  | 0x0A => execStepopen n lo (fd 8 128 w) (fd 8 136 w) (fd 9 144 w) s
  | 0x0B => execStepclose n s
  | 0x0C => execCmdFence n (fl 0) s
  | 0x0D => if fl 0 then execWriteGauge n lo (fd 8 128 w) s else execWrite n lo hi s
  | 0x0E => execHalt n (fl 1) s
  | _ => undefinedOp n s

/-- Stream `n` reads and runs its next command. One that cannot be read from its ring is stream fault 7 (R334); while its page is
in transit the stream waits (16 R388). -/
def runCommand (n : BitVec 6) (s : State) : Host.Outcome State Fault Refusal :=
  if !s.streamRuns n then .next s
  else
    let x := s.streamOf n
    match s.cpRead x.ctx x.at_ 32 (whoStream n.toNat) with
    | .ok (bs, _) => runCommandWord n (natLE bs) s
    | .error (.trap _) => command n s (fun _ => .fault 7)
    | .error (.ask who pa) => .next (s.askFar who pa x.ctx 1024 0)
    | .error _ => .next s

end Sys2Proof.Machine
end

