-- ==== Sys2Proof/Machine/Dispatch.lean ====
section
/-! DEFINITION. The meaning of every instruction: one arm for each constructor of Instr. -/
namespace Sys2Proof.Machine

/-- What an instruction, a command or an event does. -/
def exec (i : Instr) (s : State) : Host.Outcome State Fault Refusal :=
  match i with
  | .add x0 x1 x2 => Sys2Proof.Machine.execAdd x0 x1 x2 s
  | .sub x0 x1 x2 => Sys2Proof.Machine.execSub x0 x1 x2 s
  | .and x0 x1 x2 => Sys2Proof.Machine.execAnd x0 x1 x2 s
  | .or x0 x1 x2 => Sys2Proof.Machine.execOr x0 x1 x2 s
  | .xor x0 x1 x2 => Sys2Proof.Machine.execXor x0 x1 x2 s
  | .andn x0 x1 x2 => Sys2Proof.Machine.execAndn x0 x1 x2 s
  | .sll x0 x1 x2 => Sys2Proof.Machine.execSll x0 x1 x2 s
  | .srl x0 x1 x2 => Sys2Proof.Machine.execSrl x0 x1 x2 s
  | .sra x0 x1 x2 => Sys2Proof.Machine.execSra x0 x1 x2 s
  | .rotr x0 x1 x2 => Sys2Proof.Machine.execRotr x0 x1 x2 s
  | .slt x0 x1 x2 => Sys2Proof.Machine.execSlt x0 x1 x2 s
  | .sltz x0 x1 x2 => Sys2Proof.Machine.execSltz x0 x1 x2 s
  | .min x0 x1 x2 => Sys2Proof.Machine.execMin x0 x1 x2 s
  | .max x0 x1 x2 => Sys2Proof.Machine.execMax x0 x1 x2 s
  | .minz x0 x1 x2 => Sys2Proof.Machine.execMinz x0 x1 x2 s
  | .maxz x0 x1 x2 => Sys2Proof.Machine.execMaxz x0 x1 x2 s
  | .mul x0 x1 x2 => Sys2Proof.Machine.execMul x0 x1 x2 s
  | .mulh x0 x1 x2 => Sys2Proof.Machine.execMulh x0 x1 x2 s
  | .mulhz x0 x1 x2 => Sys2Proof.Machine.execMulhz x0 x1 x2 s
  | .mulhsz x0 x1 x2 => Sys2Proof.Machine.execMulhsz x0 x1 x2 s
  | .div x0 x1 x2 => Sys2Proof.Machine.execDiv x0 x1 x2 s
  | .divz x0 x1 x2 => Sys2Proof.Machine.execDivz x0 x1 x2 s
  | .rem x0 x1 x2 => Sys2Proof.Machine.execRem x0 x1 x2 s
  | .remz x0 x1 x2 => Sys2Proof.Machine.execRemz x0 x1 x2 s
  | .clmul x0 x1 x2 => Sys2Proof.Machine.execClmul x0 x1 x2 s
  | .clmulh x0 x1 x2 => Sys2Proof.Machine.execClmulh x0 x1 x2 s
  | .clz x0 x1 => Sys2Proof.Machine.execClz x0 x1 s
  | .ctz x0 x1 => Sys2Proof.Machine.execCtz x0 x1 s
  | .popc x0 x1 => Sys2Proof.Machine.execPopc x0 x1 s
  | .brev x0 x1 => Sys2Proof.Machine.execBrev x0 x1 s
  | .bswap x0 x1 => Sys2Proof.Machine.execBswap x0 x1 s
  | .addi x0 x1 x2 => Sys2Proof.Machine.execAddi x0 x1 x2 s
  | .andi x0 x1 x2 => Sys2Proof.Machine.execAndi x0 x1 x2 s
  | .ori x0 x1 x2 => Sys2Proof.Machine.execOri x0 x1 x2 s
  | .xori x0 x1 x2 => Sys2Proof.Machine.execXori x0 x1 x2 s
  | .slli x0 x1 x2 => Sys2Proof.Machine.execSlli x0 x1 x2 s
  | .srli x0 x1 x2 => Sys2Proof.Machine.execSrli x0 x1 x2 s
  | .srai x0 x1 x2 => Sys2Proof.Machine.execSrai x0 x1 x2 s
  | .rotri x0 x1 x2 => Sys2Proof.Machine.execRotri x0 x1 x2 s
  | .slti x0 x1 x2 => Sys2Proof.Machine.execSlti x0 x1 x2 s
  | .sltiz x0 x1 x2 => Sys2Proof.Machine.execSltiz x0 x1 x2 s
  | .lih x0 x1 => Sys2Proof.Machine.execLih x0 x1 s
  | .faddF32 x0 x1 x2 => Sys2Proof.Machine.execFaddF32 x0 x1 x2 s
  | .fsubF32 x0 x1 x2 => Sys2Proof.Machine.execFsubF32 x0 x1 x2 s
  | .fmulF32 x0 x1 x2 => Sys2Proof.Machine.execFmulF32 x0 x1 x2 s
  | .fmaF32 x0 x1 x2 => Sys2Proof.Machine.execFmaF32 x0 x1 x2 s
  | .fdivF32 x0 x1 x2 => Sys2Proof.Machine.execFdivF32 x0 x1 x2 s
  | .fsqrtF32 x0 x1 => Sys2Proof.Machine.execFsqrtF32 x0 x1 s
  | .fminF32 x0 x1 x2 => Sys2Proof.Machine.execFminF32 x0 x1 x2 s
  | .fmaxF32 x0 x1 x2 => Sys2Proof.Machine.execFmaxF32 x0 x1 x2 s
  | .feqF32 x0 x1 x2 => Sys2Proof.Machine.execFeqF32 x0 x1 x2 s
  | .fltF32 x0 x1 x2 => Sys2Proof.Machine.execFltF32 x0 x1 x2 s
  | .fleF32 x0 x1 x2 => Sys2Proof.Machine.execFleF32 x0 x1 x2 s
  | .fabsF32 x0 x1 => Sys2Proof.Machine.execFabsF32 x0 x1 s
  | .fnegF32 x0 x1 => Sys2Proof.Machine.execFnegF32 x0 x1 s
  | .fcvtS64F32 x0 x1 x2 => Sys2Proof.Machine.execFcvtS64F32 x0 x1 x2 s
  | .fcvtZ64F32 x0 x1 x2 => Sys2Proof.Machine.execFcvtZ64F32 x0 x1 x2 s
  | .fcvtF32S64 x0 x1 x2 => Sys2Proof.Machine.execFcvtF32S64 x0 x1 x2 s
  | .fcvtF32Z64 x0 x1 x2 => Sys2Proof.Machine.execFcvtF32Z64 x0 x1 x2 s
  | .fcvtF32Bf16 x0 x1 => Sys2Proof.Machine.execFcvtF32Bf16 x0 x1 s
  | .fcvtBf16F32 x0 x1 x2 => Sys2Proof.Machine.execFcvtBf16F32 x0 x1 x2 s
  | .fcvtF32F16 x0 x1 => Sys2Proof.Machine.execFcvtF32F16 x0 x1 s
  | .fcvtF16F32 x0 x1 x2 => Sys2Proof.Machine.execFcvtF16F32 x0 x1 x2 s
  | .losschk x0 x1 x2 => Sys2Proof.Machine.execLosschk x0 x1 x2 s
  | .sBr x0 => Sys2Proof.Machine.execSBr x0 s
  | .call x0 => Sys2Proof.Machine.execCall x0 s
  | .sBeqz x0 x1 => Sys2Proof.Machine.execSBeqz x0 x1 s
  | .sBnez x0 x1 => Sys2Proof.Machine.execSBnez x0 x1 s
  | .sBltz x0 x1 => Sys2Proof.Machine.execSBltz x0 x1 s
  | .sBgez x0 x1 => Sys2Proof.Machine.execSBgez x0 x1 s
  | .sBfol x0 => Sys2Proof.Machine.execSBfol x0 s
  | .sBqt x0 => Sys2Proof.Machine.execSBqt x0 s
  | .sBqf x0 => Sys2Proof.Machine.execSBqf x0 s
  | .jalr x0 x1 => Sys2Proof.Machine.execJalr x0 x1 s
  | .sLoop x0 x1 => Sys2Proof.Machine.execSLoop x0 x1 s
  | .trap x0 => Sys2Proof.Machine.execTrap x0 s
  | .csrr x0 x1 => Sys2Proof.Machine.execCsrr x0 x1 s
  | .csrw x0 x1 => Sys2Proof.Machine.execCsrw x0 x1 s
  | .csrs x0 x1 => Sys2Proof.Machine.execCsrs x0 x1 s
  | .csrc x0 x1 => Sys2Proof.Machine.execCsrc x0 x1 s
  | .sQpush x0 x1 => Sys2Proof.Machine.execSQpush x0 x1 s
  | .sQpop x0 x1 => Sys2Proof.Machine.execSQpop x0 x1 s
  | .fmtq x0 => Sys2Proof.Machine.execFmtq x0 s
  | .waitc x0 => Sys2Proof.Machine.execWaitc x0 s
  | .waitg x0 x1 x2 x3 => Sys2Proof.Machine.execWaitg x0 x1 x2 x3 s
  | .bar x0 x1 x2 => Sys2Proof.Machine.execBar x0 x1 x2 s
  | .barF x0 x1 x2 => Sys2Proof.Machine.execBarF x0 x1 x2 s
  | .stepbeg x0 => Sys2Proof.Machine.execStepbeg x0 s
  | .stepvote x0 x1 x2 => Sys2Proof.Machine.execStepvote x0 x1 x2 s
  | .stepend x0 => Sys2Proof.Machine.execStepend x0 s
  | .waitl x0 => Sys2Proof.Machine.execWaitl x0 s
  | .cadd x0 x1 x2 => Sys2Proof.Machine.execCadd x0 x1 x2 s
  | .csub x0 x1 x2 => Sys2Proof.Machine.execCsub x0 x1 x2 s
  | .cmov x0 x1 => Sys2Proof.Machine.execCmov x0 x1 s
  | .cclr x0 x1 => Sys2Proof.Machine.execCclr x0 x1 s
  | .aIadd x0 x1 x2 => Sys2Proof.Machine.execAIadd x0 x1 x2 s
  | .isub x0 x1 x2 => Sys2Proof.Machine.execIsub x0 x1 x2 s
  | .imul x0 x1 x2 => Sys2Proof.Machine.execImul x0 x1 x2 s
  | .iand x0 x1 x2 => Sys2Proof.Machine.execIand x0 x1 x2 s
  | .ior x0 x1 x2 => Sys2Proof.Machine.execIor x0 x1 x2 s
  | .ixor x0 x1 x2 => Sys2Proof.Machine.execIxor x0 x1 x2 s
  | .isll x0 x1 x2 => Sys2Proof.Machine.execIsll x0 x1 x2 s
  | .isrl x0 x1 x2 => Sys2Proof.Machine.execIsrl x0 x1 x2 s
  | .isra x0 x1 x2 => Sys2Proof.Machine.execIsra x0 x1 x2 s
  | .islt x0 x1 x2 => Sys2Proof.Machine.execIslt x0 x1 x2 s
  | .isltz x0 x1 x2 => Sys2Proof.Machine.execIsltz x0 x1 x2 s
  | .aaddi x0 x1 x2 => Sys2Proof.Machine.execAaddi x0 x1 x2 s
  | .alih x0 x1 => Sys2Proof.Machine.execAlih x0 x1 s
  | .csetb x0 x1 x2 => Sys2Proof.Machine.execCsetb x0 x1 x2 s
  | .csetbx x0 x1 x2 => Sys2Proof.Machine.execCsetbx x0 x1 x2 s
  | .csetbi x0 x1 x2 => Sys2Proof.Machine.execCsetbi x0 x1 x2 s
  | .candp x0 x1 x2 => Sys2Proof.Machine.execCandp x0 x1 x2 s
  | .cget x0 x1 x2 => Sys2Proof.Machine.execCget x0 x1 x2 s
  | .ctest x0 x1 x2 => Sys2Proof.Machine.execCtest x0 x1 x2 s
  | .cteq x0 x1 x2 => Sys2Proof.Machine.execCteq x0 x1 x2 s
  | .csets x0 x1 x2 => Sys2Proof.Machine.execCsets x0 x1 x2 s
  | .ldS8 x0 x1 x2 x3 => Sys2Proof.Machine.execLdS8 x0 x1 x2 x3 s
  | .ldZ8 x0 x1 x2 x3 => Sys2Proof.Machine.execLdZ8 x0 x1 x2 x3 s
  | .ldS16 x0 x1 x2 x3 => Sys2Proof.Machine.execLdS16 x0 x1 x2 x3 s
  | .ldZ16 x0 x1 x2 x3 => Sys2Proof.Machine.execLdZ16 x0 x1 x2 x3 s
  | .ldS32 x0 x1 x2 x3 => Sys2Proof.Machine.execLdS32 x0 x1 x2 x3 s
  | .ldZ32 x0 x1 x2 x3 => Sys2Proof.Machine.execLdZ32 x0 x1 x2 x3 s
  | .ld64 x0 x1 x2 x3 => Sys2Proof.Machine.execLd64 x0 x1 x2 x3 s
  | .ldrow x0 x1 x2 => Sys2Proof.Machine.execLdrow x0 x1 x2 s
  | .st8 x0 x1 x2 x3 => Sys2Proof.Machine.execSt8 x0 x1 x2 x3 s
  | .st16 x0 x1 x2 x3 => Sys2Proof.Machine.execSt16 x0 x1 x2 x3 s
  | .st32 x0 x1 x2 x3 => Sys2Proof.Machine.execSt32 x0 x1 x2 x3 s
  | .st64 x0 x1 x2 x3 => Sys2Proof.Machine.execSt64 x0 x1 x2 x3 s
  | .strow x0 x1 x2 => Sys2Proof.Machine.execStrow x0 x1 x2 s
  | .ldc x0 x1 x2 x3 => Sys2Proof.Machine.execLdc x0 x1 x2 x3 s
  | .stc x0 x1 x2 x3 => Sys2Proof.Machine.execStc x0 x1 x2 x3 s
  | .prefL1 x0 x1 x2 => Sys2Proof.Machine.execPrefL1 x0 x1 x2 s
  | .prefCc x0 x1 x2 => Sys2Proof.Machine.execPrefCc x0 x1 x2 s
  | .prefDc x0 x1 x2 => Sys2Proof.Machine.execPrefDc x0 x1 x2 s
  | .atom x0 x1 x2 x3 x4 x5 => Sys2Proof.Machine.execAtom x0 x1 x2 x3 x4 x5 s
  | .ratom x0 x1 x2 x3 x4 x5 => Sys2Proof.Machine.execRatom x0 x1 x2 x3 x4 x5 s
  | .ratomH x0 x1 x2 x3 x4 x5 => Sys2Proof.Machine.execRatomH x0 x1 x2 x3 x4 x5 s
  | .latom x0 x1 x2 x3 => Sys2Proof.Machine.execLatom x0 x1 x2 x3 s
  | .gath x0 x1 x2 => Sys2Proof.Machine.execGath x0 x1 x2 s
  | .scat x0 x1 x2 => Sys2Proof.Machine.execScat x0 x1 x2 s
  | .fenceC x0 x1 => Sys2Proof.Machine.execFenceC x0 x1 s
  | .bankset x0 x1 x2 => Sys2Proof.Machine.execBankset x0 x1 x2 s
  | .busy x0 x1 => Sys2Proof.Machine.execBusy x0 x1 s
  | .idle x0 x1 => Sys2Proof.Machine.execIdle x0 x1 s
  | .aBr x0 => Sys2Proof.Machine.execABr x0 s
  | .aBeqz x0 x1 => Sys2Proof.Machine.execABeqz x0 x1 s
  | .aBnez x0 x1 => Sys2Proof.Machine.execABnez x0 x1 s
  | .aBltz x0 x1 => Sys2Proof.Machine.execABltz x0 x1 s
  | .aBgez x0 x1 => Sys2Proof.Machine.execABgez x0 x1 s
  | .aBfol x0 => Sys2Proof.Machine.execABfol x0 s
  | .bpub x0 x1 => Sys2Proof.Machine.execBpub x0 x1 s
  | .aLoop x0 x1 => Sys2Proof.Machine.execALoop x0 x1 s
  | .eng x0 x1 x2 => Sys2Proof.Machine.execEng x0 x1 x2 s
  | .aQpush x0 x1 => Sys2Proof.Machine.execAQpush x0 x1 s
  | .aQpop x0 x1 => Sys2Proof.Machine.execAQpop x0 x1 s
  | .vsett x0 => Sys2Proof.Machine.execVsett x0 s
  | .vfadd x0 x1 x2 x3 x4 => Sys2Proof.Machine.execVfadd x0 x1 x2 x3 x4 s
  | .vfaddVa x0 x1 x2 x3 x4 => Sys2Proof.Machine.execVfaddVa x0 x1 x2 x3 x4 s
  | .vfsub x0 x1 x2 x3 x4 => Sys2Proof.Machine.execVfsub x0 x1 x2 x3 x4 s
  | .vfsubVa x0 x1 x2 x3 x4 => Sys2Proof.Machine.execVfsubVa x0 x1 x2 x3 x4 s
  | .vfmul x0 x1 x2 x3 x4 => Sys2Proof.Machine.execVfmul x0 x1 x2 x3 x4 s
  | .vfmulVa x0 x1 x2 x3 x4 => Sys2Proof.Machine.execVfmulVa x0 x1 x2 x3 x4 s
  | .vfma x0 x1 x2 x3 x4 => Sys2Proof.Machine.execVfma x0 x1 x2 x3 x4 s
  | .vfmaVa x0 x1 x2 x3 x4 => Sys2Proof.Machine.execVfmaVa x0 x1 x2 x3 x4 s
  | .vfmin x0 x1 x2 x3 x4 => Sys2Proof.Machine.execVfmin x0 x1 x2 x3 x4 s
  | .vfminVa x0 x1 x2 x3 x4 => Sys2Proof.Machine.execVfminVa x0 x1 x2 x3 x4 s
  | .vfmax x0 x1 x2 x3 x4 => Sys2Proof.Machine.execVfmax x0 x1 x2 x3 x4 s
  | .vfmaxVa x0 x1 x2 x3 x4 => Sys2Proof.Machine.execVfmaxVa x0 x1 x2 x3 x4 s
  | .vfcmp x0 x1 x2 x3 x4 x5 => Sys2Proof.Machine.execVfcmp x0 x1 x2 x3 x4 x5 s
  | .vfcmpVa x0 x1 x2 x3 x4 x5 => Sys2Proof.Machine.execVfcmpVa x0 x1 x2 x3 x4 x5 s
  | .vadd x0 x1 x2 x3 x4 => Sys2Proof.Machine.execVadd x0 x1 x2 x3 x4 s
  | .vaddVa x0 x1 x2 x3 x4 => Sys2Proof.Machine.execVaddVa x0 x1 x2 x3 x4 s
  | .vsub x0 x1 x2 x3 x4 => Sys2Proof.Machine.execVsub x0 x1 x2 x3 x4 s
  | .vsubVa x0 x1 x2 x3 x4 => Sys2Proof.Machine.execVsubVa x0 x1 x2 x3 x4 s
  | .vmul x0 x1 x2 x3 x4 => Sys2Proof.Machine.execVmul x0 x1 x2 x3 x4 s
  | .vmulVa x0 x1 x2 x3 x4 => Sys2Proof.Machine.execVmulVa x0 x1 x2 x3 x4 s
  | .vmulh x0 x1 x2 x3 x4 => Sys2Proof.Machine.execVmulh x0 x1 x2 x3 x4 s
  | .vmulhVa x0 x1 x2 x3 x4 => Sys2Proof.Machine.execVmulhVa x0 x1 x2 x3 x4 s
  | .vmin x0 x1 x2 x3 x4 => Sys2Proof.Machine.execVmin x0 x1 x2 x3 x4 s
  | .vminVa x0 x1 x2 x3 x4 => Sys2Proof.Machine.execVminVa x0 x1 x2 x3 x4 s
  | .vmax x0 x1 x2 x3 x4 => Sys2Proof.Machine.execVmax x0 x1 x2 x3 x4 s
  | .vmaxVa x0 x1 x2 x3 x4 => Sys2Proof.Machine.execVmaxVa x0 x1 x2 x3 x4 s
  | .vadds x0 x1 x2 x3 x4 => Sys2Proof.Machine.execVadds x0 x1 x2 x3 x4 s
  | .vaddsVa x0 x1 x2 x3 x4 => Sys2Proof.Machine.execVaddsVa x0 x1 x2 x3 x4 s
  | .vsubs x0 x1 x2 x3 x4 => Sys2Proof.Machine.execVsubs x0 x1 x2 x3 x4 s
  | .vsubsVa x0 x1 x2 x3 x4 => Sys2Proof.Machine.execVsubsVa x0 x1 x2 x3 x4 s
  | .vand x0 x1 x2 x3 x4 => Sys2Proof.Machine.execVand x0 x1 x2 x3 x4 s
  | .vandVa x0 x1 x2 x3 x4 => Sys2Proof.Machine.execVandVa x0 x1 x2 x3 x4 s
  | .vor x0 x1 x2 x3 x4 => Sys2Proof.Machine.execVor x0 x1 x2 x3 x4 s
  | .vorVa x0 x1 x2 x3 x4 => Sys2Proof.Machine.execVorVa x0 x1 x2 x3 x4 s
  | .vxor x0 x1 x2 x3 x4 => Sys2Proof.Machine.execVxor x0 x1 x2 x3 x4 s
  | .vxorVa x0 x1 x2 x3 x4 => Sys2Proof.Machine.execVxorVa x0 x1 x2 x3 x4 s
  | .vshl x0 x1 x2 x3 x4 => Sys2Proof.Machine.execVshl x0 x1 x2 x3 x4 s
  | .vshlVa x0 x1 x2 x3 x4 => Sys2Proof.Machine.execVshlVa x0 x1 x2 x3 x4 s
  | .vshr x0 x1 x2 x3 x4 => Sys2Proof.Machine.execVshr x0 x1 x2 x3 x4 s
  | .vshrVa x0 x1 x2 x3 x4 => Sys2Proof.Machine.execVshrVa x0 x1 x2 x3 x4 s
  | .vcmp x0 x1 x2 x3 x4 x5 => Sys2Proof.Machine.execVcmp x0 x1 x2 x3 x4 x5 s
  | .vcmpVa x0 x1 x2 x3 x4 x5 => Sys2Proof.Machine.execVcmpVa x0 x1 x2 x3 x4 x5 s
  | .vclmul x0 x1 x2 x3 => Sys2Proof.Machine.execVclmul x0 x1 x2 x3 s
  | .vclmulVa x0 x1 x2 x3 => Sys2Proof.Machine.execVclmulVa x0 x1 x2 x3 s
  | .vclmulh x0 x1 x2 x3 => Sys2Proof.Machine.execVclmulh x0 x1 x2 x3 s
  | .vclmulhVa x0 x1 x2 x3 => Sys2Proof.Machine.execVclmulhVa x0 x1 x2 x3 s
  | .vsel x0 x1 x2 x3 x4 => Sys2Proof.Machine.execVsel x0 x1 x2 x3 x4 s
  | .vselVa x0 x1 x2 x3 x4 => Sys2Proof.Machine.execVselVa x0 x1 x2 x3 x4 s
  | .vcvtF2n x0 x1 x2 x3 x4 => Sys2Proof.Machine.execVcvtF2n x0 x1 x2 x3 x4 s
  | .vcvtF2ns x0 x1 x2 x3 x4 => Sys2Proof.Machine.execVcvtF2ns x0 x1 x2 x3 x4 s
  | .vcvtN2f x0 x1 x2 x3 x4 => Sys2Proof.Machine.execVcvtN2f x0 x1 x2 x3 x4 s
  | .vcvtF2i x0 x1 x2 x3 x4 => Sys2Proof.Machine.execVcvtF2i x0 x1 x2 x3 x4 s
  | .vcvtI2f x0 x1 x2 x3 x4 => Sys2Proof.Machine.execVcvtI2f x0 x1 x2 x3 x4 s
  | .vcvtI32n x0 x1 x2 x3 => Sys2Proof.Machine.execVcvtI32n x0 x1 x2 x3 s
  | .vcvtI32ns x0 x1 x2 x3 => Sys2Proof.Machine.execVcvtI32ns x0 x1 x2 x3 s
  | .vcvtIw32 x0 x1 x2 x3 => Sys2Proof.Machine.execVcvtIw32 x0 x1 x2 x3 s
  | .vsfExp2 x0 x1 x2 x3 => Sys2Proof.Machine.execVsfExp2 x0 x1 x2 x3 s
  | .vsfLog2 x0 x1 x2 x3 => Sys2Proof.Machine.execVsfLog2 x0 x1 x2 x3 s
  | .vsfRcp x0 x1 x2 x3 => Sys2Proof.Machine.execVsfRcp x0 x1 x2 x3 s
  | .vsfRsqrt x0 x1 x2 x3 => Sys2Proof.Machine.execVsfRsqrt x0 x1 x2 x3 s
  | .vsfTanh x0 x1 x2 x3 => Sys2Proof.Machine.execVsfTanh x0 x1 x2 x3 s
  | .vsfSigm x0 x1 x2 x3 => Sys2Proof.Machine.execVsfSigm x0 x1 x2 x3 s
  | .vredFadd x0 x1 x2 x3 x4 => Sys2Proof.Machine.execVredFadd x0 x1 x2 x3 x4 s
  | .vredFmin x0 x1 x2 x3 x4 => Sys2Proof.Machine.execVredFmin x0 x1 x2 x3 x4 s
  | .vredFmax x0 x1 x2 x3 x4 => Sys2Proof.Machine.execVredFmax x0 x1 x2 x3 x4 s
  | .vredAdd x0 x1 x2 x3 x4 => Sys2Proof.Machine.execVredAdd x0 x1 x2 x3 x4 s
  | .vredMin x0 x1 x2 x3 x4 => Sys2Proof.Machine.execVredMin x0 x1 x2 x3 x4 s
  | .vredMax x0 x1 x2 x3 x4 => Sys2Proof.Machine.execVredMax x0 x1 x2 x3 x4 s
  | .vredAnd x0 x1 x2 x3 x4 => Sys2Proof.Machine.execVredAnd x0 x1 x2 x3 x4 s
  | .vredOr x0 x1 x2 x3 x4 => Sys2Proof.Machine.execVredOr x0 x1 x2 x3 x4 s
  | .vredXor x0 x1 x2 x3 x4 => Sys2Proof.Machine.execVredXor x0 x1 x2 x3 x4 s
  | .vrng x0 x1 => Sys2Proof.Machine.execVrng x0 x1 s
  | .vmov x0 x1 x2 x3 => Sys2Proof.Machine.execVmov x0 x1 x2 x3 s
  | .vmand x0 x1 x2 => Sys2Proof.Machine.execVmand x0 x1 x2 s
  | .vmor x0 x1 x2 => Sys2Proof.Machine.execVmor x0 x1 x2 s
  | .vmxor x0 x1 x2 => Sys2Proof.Machine.execVmxor x0 x1 x2 s
  | .vmandn x0 x1 x2 => Sys2Proof.Machine.execVmandn x0 x1 x2 s
  | .vmnot x0 x1 => Sys2Proof.Machine.execVmnot x0 x1 s
  | .vmmov x0 x1 => Sys2Proof.Machine.execVmmov x0 x1 s
  | .vmfirst x0 x1 => Sys2Proof.Machine.execVmfirst x0 x1 s
  | .vpop x0 x1 x2 => Sys2Proof.Machine.execVpop x0 x1 x2 s
  | .vpush x0 x1 x2 => Sys2Proof.Machine.execVpush x0 x1 x2 s
  | .loopr x0 x1 x2 x3 => Sys2Proof.Machine.execLoopr x0 x1 x2 x3 s
  | .vBr x0 => Sys2Proof.Machine.execVBr x0 s
  | .vBfol x0 => Sys2Proof.Machine.execVBfol x0 s
  | .vBqt x0 => Sys2Proof.Machine.execVBqt x0 s
  | .vBqf x0 => Sys2Proof.Machine.execVBqf x0 s
  | .clamp x0 x1 => Sys2Proof.Machine.execClamp x0 x1 s
  | .free x0 x1 => Sys2Proof.Machine.execFree x0 x1 s
  | .mma x0 x1 x2 x3 x4 x5 => Sys2Proof.Machine.execMma x0 x1 x2 x3 x4 x5 s
  | .mmas x0 x1 x2 x3 x4 x5 => Sys2Proof.Machine.execMmas x0 x1 x2 x3 x4 x5 s
  | .rep x0 x1 x2 => Sys2Proof.Machine.execRep x0 x1 x2 s
  | .shape x0 x1 x2 => Sys2Proof.Machine.execShape x0 x1 x2 s
  | .xpose x0 x1 x2 x3 => Sys2Proof.Machine.execXpose x0 x1 x2 x3 s
  | .epi x0 x1 x2 x3 x4 x5 => Sys2Proof.Machine.execEpi x0 x1 x2 x3 x4 x5 s
  | .epir x0 x1 x2 x3 x4 => Sys2Proof.Machine.execEpir x0 x1 x2 x3 x4 s
  | .tzero x0 => Sys2Proof.Machine.execTzero x0 s
  | .tmov x0 x1 => Sys2Proof.Machine.execTmov x0 x1 s
  | .iset x0 x1 => Sys2Proof.Machine.execIset x0 x1 s
  | .mIadd x0 x1 => Sys2Proof.Machine.execMIadd x0 x1 s
  | .mBr x0 => Sys2Proof.Machine.execMBr x0 s
  | .mBfol x0 => Sys2Proof.Machine.execMBfol x0 s
  | .mBqt x0 => Sys2Proof.Machine.execMBqt x0 s
  | .mBqf x0 => Sys2Proof.Machine.execMBqf x0 s
  | .mLoop x0 x1 => Sys2Proof.Machine.execMLoop x0 x1 s
  | .lcWrite x0 => Sys2Proof.Machine.execLcWrite x0 s
  | .gaugeWrite x0 x1 x2 => Sys2Proof.Machine.execGaugeWrite x0 x1 x2 s
  | .molagMoicurWrite x0 x1 => Sys2Proof.Machine.execMolagMoicurWrite x0 x1 s
  | .ethdbWrite x0 => Sys2Proof.Machine.execEthdbWrite x0 s
  | .dwloadWrite x0 => Sys2Proof.Machine.execDwloadWrite x0 s
  | .collgrpWrite x0 x1 => Sys2Proof.Machine.execCollgrpWrite x0 x1 s
  | .glucfgWrite x0 x1 => Sys2Proof.Machine.execGlucfgWrite x0 x1 s
  | .scrcfgWrite x0 x1 => Sys2Proof.Machine.execScrcfgWrite x0 x1 s
  | .scrhWrite x0 => Sys2Proof.Machine.execScrhWrite x0 s
  | .copyStart x0 => Sys2Proof.Machine.execCopyStart x0 s
  | .copyChunkSeen x0 => Sys2Proof.Machine.execCopyChunkSeen x0 s
  | .promiseSectorPerform x0 x1 => Sys2Proof.Machine.execPromiseSectorPerform x0 x1 s
  | .promiseMiss x0 => Sys2Proof.Machine.execPromiseMiss x0 s
  | .gatherRowLand x0 x1 => Sys2Proof.Machine.execGatherRowLand x0 x1 s
  | .gaddApply x0 => Sys2Proof.Machine.execGaddApply x0 s
  | .stopFire x0 x1 => Sys2Proof.Machine.execStopFire x0 x1 s
  | .mmaComplete x0 => Sys2Proof.Machine.execMmaComplete x0 s
  | .epirRowPerform x0 => Sys2Proof.Machine.execEpirRowPerform x0 s
  | .bankSwitchBegin x0 => Sys2Proof.Machine.execBankSwitchBegin x0 s
  | .bankSwitchEnd x0 => Sys2Proof.Machine.execBankSwitchEnd x0 s
  | .earlyReached x0 x1 => Sys2Proof.Machine.execEarlyReached x0 x1 s
  | .translationStallTimeout x0 => Sys2Proof.Machine.execTranslationStallTimeout x0 s
  | .remoteAccessTimeout x0 => Sys2Proof.Machine.execRemoteAccessTimeout x0 s
  | .launch x0 x1 => Sys2Proof.Machine.execLaunch x0 x1 s
  | .launchi x0 x1 x2 x3 => Sys2Proof.Machine.execLaunchi x0 x1 x2 x3 s
  | .cmdLoop x0 x1 => Sys2Proof.Machine.execCmdLoop x0 x1 s
  | .endLoop x0 => Sys2Proof.Machine.execEndLoop x0 s
  | .cmdIf x0 x1 x2 x3 => Sys2Proof.Machine.execCmdIf x0 x1 x2 x3 s
  | .cmdElse x0 => Sys2Proof.Machine.execCmdElse x0 s
  | .endIf x0 => Sys2Proof.Machine.execEndIf x0 s
  | .cmdWaitg x0 x1 x2 => Sys2Proof.Machine.execCmdWaitg x0 x1 x2 s
  | .signalImmediate x0 x1 x2 x3 => Sys2Proof.Machine.execSignalImmediate x0 x1 x2 x3 s
  | .signalDeferred x0 x1 x2 x3 => Sys2Proof.Machine.execSignalDeferred x0 x1 x2 x3 s
  | .signalDeferredApply x0 => Sys2Proof.Machine.execSignalDeferredApply x0 s
  | .stepopen x0 x1 x2 x3 x4 => Sys2Proof.Machine.execStepopen x0 x1 x2 x3 x4 s
  | .stepclose x0 => Sys2Proof.Machine.execStepclose x0 s
  | .cmdFence x0 x1 => Sys2Proof.Machine.execCmdFence x0 x1 s
  | .write x0 x1 x2 => Sys2Proof.Machine.execWrite x0 x1 x2 s
  | .writeGauge x0 x1 x2 => Sys2Proof.Machine.execWriteGauge x0 x1 x2 s
  | .halt x0 x1 => Sys2Proof.Machine.execHalt x0 x1 s
  | .launchReady x0 => Sys2Proof.Machine.execLaunchReady x0 s
  | .launchRetire x0 => Sys2Proof.Machine.execLaunchRetire x0 s
  | .launchFaulted x0 => Sys2Proof.Machine.execLaunchFaulted x0 s
  | .promotion x0 => Sys2Proof.Machine.execPromotion x0 s
  | .preemption x0 => Sys2Proof.Machine.execPreemption x0 s
  | .sramScrub x0 x1 => Sys2Proof.Machine.execSramScrub x0 x1 s
  | .pageRetirement x0 => Sys2Proof.Machine.execPageRetirement x0 s
  | .versionScrubVisit x0 => Sys2Proof.Machine.execVersionScrubVisit x0 s
  | .poisonRepair x0 x1 x2 x3 x4 => Sys2Proof.Machine.execPoisonRepair x0 x1 x2 x3 x4 s
  | .rewardArrival x0 x1 x2 x3 => Sys2Proof.Machine.execRewardArrival x0 x1 x2 x3 s
  | .episodeTimeout x0 => Sys2Proof.Machine.execEpisodeTimeout x0 s
  | .freeSlotsArrival x0 => Sys2Proof.Machine.execFreeSlotsArrival x0 s
  | .collectiveChunkRead x0 => Sys2Proof.Machine.execCollectiveChunkRead x0 s
  | .collectivePacketArrival x0 => Sys2Proof.Machine.execCollectivePacketArrival x0 s
  | .collectiveAckArrival x0 => Sys2Proof.Machine.execCollectiveAckArrival x0 s
  | .collectiveComplete x0 => Sys2Proof.Machine.execCollectiveComplete x0 s
  | .collectiveTimeout x0 => Sys2Proof.Machine.execCollectiveTimeout x0 s
  | .veneerPlaneSend x0 => Sys2Proof.Machine.execVeneerPlaneSend x0 s
  | .veneerPlaneArrival x0 => Sys2Proof.Machine.execVeneerPlaneArrival x0 s
  | .veneerCancelArrival x0 => Sys2Proof.Machine.execVeneerCancelArrival x0 s
  | .veneerAckArrival x0 => Sys2Proof.Machine.execVeneerAckArrival x0 s
  | .veneerFirstPlaneTimeout x0 => Sys2Proof.Machine.execVeneerFirstPlaneTimeout x0 s
  | .remoteLoadArrival x0 => Sys2Proof.Machine.execRemoteLoadArrival x0 s
  | .remoteStoreArrival x0 => Sys2Proof.Machine.execRemoteStoreArrival x0 s
  | .answerArrival x0 => Sys2Proof.Machine.execAnswerArrival x0 s
  | .dowelOperation x0 => Sys2Proof.Machine.execDowelOperation x0 s
  | .dowelHandler x0 => Sys2Proof.Machine.execDowelHandler x0 s
  | .handlerLoadComplete x0 => Sys2Proof.Machine.execHandlerLoadComplete x0 s
  | .flitReplay x0 x1 => Sys2Proof.Machine.execFlitReplay x0 x1 s
  | .laneSwap x0 x1 x2 => Sys2Proof.Machine.execLaneSwap x0 x1 x2 s
  | .linkDown x0 x1 => Sys2Proof.Machine.execLinkDown x0 x1 s
  | .voteSend x0 => Sys2Proof.Machine.execVoteSend x0 s
  | .vetoVote x0 => Sys2Proof.Machine.execVetoVote x0 s
  | .voteArrival x0 => Sys2Proof.Machine.execVoteArrival x0 s
  | .rootDecision x0 => Sys2Proof.Machine.execRootDecision x0 s
  | .applyDecision x0 => Sys2Proof.Machine.execApplyDecision x0 s
  | .decidedStateExit x0 => Sys2Proof.Machine.execDecidedStateExit x0 s
  | .voteWaitTimeout x0 => Sys2Proof.Machine.execVoteWaitTimeout x0 s
  | .keepAliveSend x0 => Sys2Proof.Machine.execKeepAliveSend x0 s
  | .declareLost x0 x1 => Sys2Proof.Machine.execDeclareLost x0 x1 s
  | .lostNoticeArrival x0 => Sys2Proof.Machine.execLostNoticeArrival x0 s
  | .ancestorSilenceHalt x0 => Sys2Proof.Machine.execAncestorSilenceHalt x0 s
  | .fillAssignmentArrival x0 => Sys2Proof.Machine.execFillAssignmentArrival x0 s
  | .fillComplete x0 => Sys2Proof.Machine.execFillComplete x0 s
  | .fillDoneArrival x0 => Sys2Proof.Machine.execFillDoneArrival x0 s
  | .checkpointPathHalt x0 => Sys2Proof.Machine.execCheckpointPathHalt x0 s
  | .fabricBarrierArrival x0 => Sys2Proof.Machine.execFabricBarrierArrival x0 s
  | .fabricBarrierRelease x0 => Sys2Proof.Machine.execFabricBarrierRelease x0 s
  | .scribeDivergence x0 x1 x2 => Sys2Proof.Machine.execScribeDivergence x0 x1 x2 s
  | .ethTxFrame x0 => Sys2Proof.Machine.execEthTxFrame x0 s
  | .ethTxComplete x0 => Sys2Proof.Machine.execEthTxComplete x0 s
  | .ethRxFrame x0 x1 x2 x3 => Sys2Proof.Machine.execEthRxFrame x0 x1 x2 x3 s
  | .powerCapThrottle x0 x1 => Sys2Proof.Machine.execPowerCapThrottle x0 x1 s
  | .thermalShutdown x0 => Sys2Proof.Machine.execThermalShutdown x0 s
  | .deviceReset x0 => Sys2Proof.Machine.execDeviceReset x0 s
  | .ownerLinkDown x0 => Sys2Proof.Machine.execOwnerLinkDown x0 s
  | .claim x0 => Sys2Proof.Machine.execClaim x0 s
  | .give x0 x1 => Sys2Proof.Machine.execGive x0 x1 s
  | .accept x0 => Sys2Proof.Machine.execAccept x0 s
  | .release x0 => Sys2Proof.Machine.execRelease x0 s
  | .installTensorHandle x0 x1 x2 x3 => Sys2Proof.Machine.execInstallTensorHandle x0 x1 x2 x3 s
  | .markVersioned x0 x1 x2 => Sys2Proof.Machine.execMarkVersioned x0 x1 x2 s
  | .unmarkVersioned x0 x1 x2 => Sys2Proof.Machine.execUnmarkVersioned x0 x1 x2 s
  | .setCoreSet x0 x1 x2 x3 x4 => Sys2Proof.Machine.execSetCoreSet x0 x1 x2 x3 x4 s
  | .assignUnit x0 x1 x2 x3 => Sys2Proof.Machine.execAssignUnit x0 x1 x2 x3 s
  | .restoreStepPosition x0 x1 x2 => Sys2Proof.Machine.execRestoreStepPosition x0 x1 x2 s
  | .debugHaltDrain x0 x1 => Sys2Proof.Machine.execDebugHaltDrain x0 x1 s
  | .debugHaltFreeze x0 x1 => Sys2Proof.Machine.execDebugHaltFreeze x0 x1 s
  | .debugResume x0 x1 => Sys2Proof.Machine.execDebugResume x0 x1 s
  | .debugWrite x0 x1 => Sys2Proof.Machine.execDebugWrite x0 x1 s
  | .repairMapUpdate x0 x1 => Sys2Proof.Machine.execRepairMapUpdate x0 x1 s
  | .quote x0 x1 => Sys2Proof.Machine.execQuote x0 x1 s
  | .setPowerCap x0 x1 => Sys2Proof.Machine.execSetPowerCap x0 x1 s
  | .assignEthernetRing x0 x1 x2 => Sys2Proof.Machine.execAssignEthernetRing x0 x1 x2 s
  | .accessPerformed x0 => Sys2Proof.Machine.execAccessPerformed x0 s
  | .engineTakesOperation x0 => Sys2Proof.Machine.execEngineTakesOperation x0 s
  | .streamDescriptorWrite x0 x1 x2 => Sys2Proof.Machine.execStreamDescriptorWrite x0 x1 x2 s
  | .ethLinkChange x0 x1 => Sys2Proof.Machine.execEthLinkChange x0 x1 s
  | .priorityFlowControlPause x0 x1 x2 => Sys2Proof.Machine.execPriorityFlowControlPause x0 x1 x2 s
  | .eret => Sys2Proof.Machine.execEret s
  | .sEnd => Sys2Proof.Machine.execSEnd s
  | .early => Sys2Proof.Machine.execEarly s
  | .aEnd => Sys2Proof.Machine.execAEnd s
  | .vEnd => Sys2Proof.Machine.execVEnd s
  | .shapeOff => Sys2Proof.Machine.execShapeOff s
  | .mEnd => Sys2Proof.Machine.execMEnd s
  | .epiOutputSeen => Sys2Proof.Machine.execEpiOutputSeen s
  | .xposeOutputSeen => Sys2Proof.Machine.execXposeOutputSeen s
  | .barrierComplete => Sys2Proof.Machine.execBarrierComplete s
  | .queueDeadlock => Sys2Proof.Machine.execQueueDeadlock s
  | .reportedTrapTaken => Sys2Proof.Machine.execReportedTrapTaken s
  | .watchdog => Sys2Proof.Machine.execWatchdog s
  | .translationWalkComplete => Sys2Proof.Machine.execTranslationWalkComplete s
  | .pieceStart => Sys2Proof.Machine.execPieceStart s
  | .drainConversion => Sys2Proof.Machine.execDrainConversion s
  | .scrubPassEnd => Sys2Proof.Machine.execScrubPassEnd s
  | .planeScan => Sys2Proof.Machine.execPlaneScan s
  | .dovetailEntryStart => Sys2Proof.Machine.execDovetailEntryStart s
  | .dovetailTableEnd => Sys2Proof.Machine.execDovetailTableEnd s
  | .collectiveStart => Sys2Proof.Machine.execCollectiveStart s
  | .veneerEntryWaitDrop => Sys2Proof.Machine.execVeneerEntryWaitDrop s
  | .coreFailure => Sys2Proof.Machine.execCoreFailure s
  | .coreScratchSwitchEnd => Sys2Proof.Machine.execCoreScratchSwitchEnd s

end Sys2Proof.Machine
end

