-- ==== Sys2Proof/Machine/RunM.lean ====
section
/-! DEFINITION. One word of M, decoded and run (01 R36, R31). It is decodeM followed by exec, which
Sys2Proof.Laws.runM_eq proves; it is written apart because compiled code cannot build a term of Instr from the
constructors past the 244th, and a step must run as well as reduce. -/
namespace Sys2Proof.Machine

/-- A word that M's decoder refuses; after REP the repetition is discarded (01 R32, 07 R224). -/
def illegalM (s : State) : Host.Outcome State Fault Refusal := issueM s (s.illegal .m)

/-- Run the word `n` of M. -/
def runM (n : Nat) (s : State) : Host.Outcome State Fault Refusal :=
  match n / 2 ^ 25 % 64 with
  | 0x01 =>
    if fx n 0 12 0x0 && fx n 15 4 0x0 && fx n 23 2 0x0 then execClamp (fd 4 19 n) (fd 3 12 n) s
    else illegalM s
  | 0x02 =>
    if fx n 0 12 0x0 && fx n 15 4 0x0 && fx n 23 2 0x0 then execFree (fd 4 19 n) (fd 3 12 n) s
    else illegalM s
  | 0x03 =>
    if fx n 1 8 0x0 then execMma (fd 2 23 n) (fd 4 19 n) (fd 4 15 n) (fd 3 12 n) (fd 3 9 n) (fb 0 n) s
    else illegalM s
  | 0x04 =>
    if fx n 1 8 0x0 && fx n 31 1 0 then execMmas (fd 2 23 n) (fd 4 19 n) (fd 4 15 n) (fd 3 12 n) (fd 3 9 n) (fb 0 n) s
    else illegalM s
  | 0x05 =>
    if fx n 14 11 0x0 then execRep (fb 13 n) (fb 12 n) (fd 12 0 n) s
    else illegalM s
  | 0x06 =>
    if fx n 0 25 0x100 then execShapeOff s
    else if fx n 3 6 0x0 && fx n 15 10 0x0 then execShape (fd 3 12 n) (fd 3 9 n) (fd 3 0 n) s
    else illegalM s
  | 0x07 =>
    if fx n 0 9 0x0 && fx n 23 2 0x0 then execXpose (fd 4 19 n) (fd 4 15 n) (fd 3 12 n) (fd 3 9 n) s
    else illegalM s
  | 0x08 =>
    if fx n 0 1 0x0 && fx n 12 3 0x0 && fx n 19 4 0x0 then execEpi (fd 2 23 n) (fd 4 15 n) (fd 3 9 n) (fb 8 n) (fb 7 n) (fd 6 1 n) s
    else illegalM s
  | 0x09 =>
    if fx n 0 1 0x0 && fx n 9 6 0x0 && fx n 17 6 0x0 then execEpir (fd 2 23 n) (fd 2 15 n) (fb 8 n) (fb 7 n) (fd 6 1 n) s
    else illegalM s
  | 0x0A =>
    if fx n 0 23 0x0 then execTzero (fd 2 23 n) s
    else illegalM s
  | 0x0B =>
    if fx n 0 15 0x0 && fx n 17 6 0x0 then execTmov (fd 2 23 n) (fd 2 15 n) s
    else illegalM s
  | 0x0D =>
    if fx n 16 6 0x0 then execIset (fd 3 22 n) (fd 16 0 n) s
    else illegalM s
  | 0x0E =>
    if fx n 16 6 0x0 then execMIadd (fd 3 22 n) (fd 16 0 n) s
    else illegalM s
  | 0x10 =>
    if fx n 19 6 0x0 then execMBr (fd 19 0 n) s
    else illegalM s
  | 0x11 =>
    if fx n 19 6 0x0 && fx n 31 1 1 then execMBfol (fd 19 0 n) s
    else illegalM s
  | 0x12 =>
    if fx n 19 6 0x0 then execMBqt (fd 19 0 n) s
    else illegalM s
  | 0x13 =>
    if fx n 19 6 0x0 then execMBqf (fd 19 0 n) s
    else illegalM s
  | 0x14 =>
    if fx n 22 3 0x0 && wfLoop (fd 19 0 n) then execMLoop (fd 3 19 n) (fd 19 0 n) s
    else illegalM s
  | 0x15 =>
    if fx n 0 25 0x0 then execMEnd s
    else illegalM s
  | _ => illegalM s

end Sys2Proof.Machine
end

