-- ==== Sys2Proof/Machine/Fetch.lean ====
section
/-! DEFINITION. Fetching a word and issuing it: the checks of a fetch (01 R12), words that issue alone and bundles (R19 to R23),
the precedence of traps (R22, 09 R276), and the count of queue stalls (06 R185). -/
namespace Sys2Proof.Machine

/-! ## Fetch -/

/-- A word of HBM at a fabric physical address. What another peer holds is asked of it; a sector that it does not give reads as a poisoned one,
since a fetch raises no other trap (R12, 19 R441; DEDUCED, log entry 31). -/
def State.fetchHbm (s : State) (k : Cl) (pa : Nat) (pc : W64) : Chk W32 :=
  if s.remote pa then
    match s.farBytes (whoCore s.k k) pa 4 with
    | .ok (bs, bad) => if bad then raise .fetchFault 7 pc else .ok (BitVec.ofNat 32 (natLE bs))
    | .error (.trap _) => raise .fetchFault 7 pc
    | .error e => .error e
  else if s.vpois (pa % 2 ^ 45) then raise .fetchFault 7 pc
  else .ok (BitVec.ofNat 32 (natLE (s.vload (pa % 2 ^ 45) 4)))

/-- A word of the cluster's SRAM or of core scratch. -/
def State.fetchKey (s : State) (k : Nat) (pc : W64) : Chk W32 :=
  if s.poisAt k then raise .fetchFault 7 pc else .ok (BitVec.ofNat 32 (natLE (s.load k 4)))

/-- The word at `pc` of cluster `k` under code capability `c` (R12). -/
def State.fetchAt (s : State) (k : Cl) (c : Cap) (pc : W64) : Chk W32 :=
  let a := pc.toNat
  if !c.has pX then raise .fetchFault 1 pc
  else if a < c.bounds.1 || c.bounds.2 < a + 4 then raise .fetchFault 2 pc
  else if a % 4 ≠ 0 then raise .fetchFault 3 pc
  else match c.spc with
    | 0 =>
      if 2 ^ 56 ≤ a + 3 then raise .fetchFault 4 pc
      else match s.page s.core.pc.ctx a with
        | none => raise .fetchFault 5 pc
        | some p =>
          if p.transit then .error .wait
          else if !p.walked then .error (.walk a)
          else if !p.x then raise .fetchFault 6 pc
          else s.fetchHbm k (p.pa + (a - p.va)) pc
    | 1 => if 24 * 2 ^ 20 ≤ a + 3 then raise .fetchFault 4 pc else s.fetchKey (sramKey s.clu a) pc
    | 2 =>
      if s.core.pc.l1pend.isSome then .error .wait
      else if s.core.pc.scratch < a + 4 then raise .fetchFault 4 pc
      else s.fetchKey (scrKey s.k a) pc
    | 3 => if 2 ^ 57 ≤ a + 3 then raise .fetchFault 4 pc else s.fetchHbm k a pc
    | _ => raise .fetchFault 4 pc

/-- The body of the loop of S, A or V that runs: its first word and its end. -/
def Core.body (c : Core) (k : Cl) : Option (W64 × W64) :=
  let p := c.pc
  match k with
  | .s => if p.lc ≠ 0 then some (p.lb, p.le) else none
  | .a => p.aloop.map (fun l => (l.b, l.e))
  | .v => p.loopr.map (fun l => (l.b, l.e))
  | .m => none

/-- Cluster `k` stands in the body of its loop. -/
def Core.inBody (c : Core) (k : Cl) : Bool :=
  let a := (c.strm k).pc.toNat
  match c.body k with
  | some (b, e) => decide (b.toNat ≤ a) && decide (a < e.toNat)
  | none => false

/-- The words that the loop buffer holds for the address at which cluster `k` stands (03 R86, 05 R178, 06 R206; log entry 67). -/
def Core.buffered (c : Core) (k : Cl) : Option (W32 × W32) :=
  let x := c.strm k
  if c.inBody k then (x.buf.find? (fun e => decide (e.1 = x.pc.toNat))).map Prod.snd else none

/-- The word of cluster `k`, with the payload that follows it where it is ENG (R19). A word of the loop buffer is not fetched, and a
repetition of M fetches nothing (07 R225): M keeps the word and the count that it has also when a handler returns with another TPC (log
entry 66). -/
def State.fetch (s : State) (k : Cl) : Chk (W32 × W32) :=
  let x := s.core.strm k
  let again := k == .m && (match s.core.pc.rep with
    | some r => !r.first
    | none => false)
  if again then .ok (x.iw, 0)
  else match s.core.buffered k with
    | some w => .ok w
    | none => do
      let w ← s.fetchAt k x.code x.pc
      if k == .a && w.toNat / 2 ^ 25 % 64 == 0x31 && w.toNat % 2 ^ 22 == 0 then
        let p ← s.fetchAt k x.code (x.pc + 4)
        .ok (w, p)
      else .ok (w, 0)

/-- The sync bit of the word a cluster is to issue; a repetition issues with Y = 0 (07 R225). -/
def State.syncBit (s : State) (k : Cl) (w : W32) : Bool :=
  w.getLsbD 31 && !(k == .m && (match s.core.pc.rep with
    | some r => !r.first
    | none => false))

/-! ## Running one word -/

/-- Decode and run the word `n` with payload `p` at cluster `k`. -/
def runWord (k : Cl) (n p : Nat) (s : State) : Host.Outcome State Fault Refusal :=
  match k with
  | .m => runM n s
  | .s => match decodeS n with
    | some i => exec i s
    | none => issue .s s (s.illegal .s)
  | .a => match decodeA n p with
    | some i => exec i s
    | none => issue .a s (s.illegal .a)
  | .v => match decodeV n with
    | some i => exec i s
    | none => issue .v s (s.illegal .v)

/-- Put the fetched words before the cluster, and into its loop buffer in the body of a loop, and say the bundle it issues in. -/
def State.present (s : State) (k : Cl) (w p : W32) (b : Bundle) : State :=
  let x := s.core.strm k
  let keep := s.core.inBody k && (s.core.buffered k).isNone
  let buf := if keep then (x.pc.toNat, w, p) :: x.buf else x.buf
  s.setCore { s.core.setStrm k { x with iw := w, iw2 := p, buf := buf } with bundle := b, res := .stalled false 0 }

/-- The state of an outcome that is a next state. -/
def nextOr (r : Host.Outcome State Fault Refusal) (s : State) : State :=
  match r with
  | .next t => t
  | _ => s

/-- A cluster issues at most one word in a cycle. -/
def Strm.issued (x : Strm) (now : Nat) : Strm := { x with start := max x.start (now + 1) }

/-- What an attempt of cluster `k` leaves for the deadlock rule (06 R185): a word that issues or traps restarts the count, and what has been read for its fetch is used up; a
word stalled on a queue counts from the cycle in which every active cluster is so stalled. -/
def State.settleWord (s : State) (k : Cl) : State :=
  let p := s.core.pc
  match s.core.res with
  | .issued =>
    let s := s.dropGot (whoCore s.k k)
    s.setCore { s.core.setStrm k ((s.core.strm k).issued s.cyc) with pc := { p with stallSet := 0, stallCode := [], stallFrom := s.cyc } }
  | .trapped _ => (s.dropGot (whoCore s.k k)).setPiece { p with stallSet := 0, stallCode := [], stallFrom := s.cyc }
  | .stalled q code =>
    let bit : BitVec 4 := BitVec.ofNat 4 (2 ^ clCode k)
    if q then
      let was := s.core.allStalled
      let s := s.setPiece { p with stallSet := p.stallSet ||| bit, stallCode := Map.set 0 p.stallCode (clCode k) code }
      if !was && s.core.allStalled then s.setPiece { s.core.pc with stallFrom := s.cyc } else s
    else s.setPiece { p with stallSet := p.stallSet &&& ~~~bit }

/-- No bundle. -/
def noBundle : Bundle := ⟨false, false, false, none⟩

/-- A word with Y = 0 issues alone (R20). -/
def issueAlone (k : Cl) (w p : W32) (s : State) : Host.Outcome State Fault Refusal :=
  match runWord k w.toNat p.toNat (s.present k w p noBundle) with
  | .next t => .next (t.settleWord k)
  | r => r

/-! ## Bundles (R20 to R23) -/

/-- Cluster `k` may try to issue: active, not stopped by a handler (09 R275), its first cycle has come (R277), no LDC of A waits for its
data (R38), and every store of a SCAT of A has an entry of the forwarding table (06 R195). -/
def State.canTry (s : State) (k : Cl) : Bool :=
  let x := s.core.strm k
  x.act && (k == .s || !s.core.pc.handler) && decide (x.start ≤ s.cyc) &&
  !(k == .a && (s.core.pend.any (fun a => a.op.isLoadCap) || decide (32 < (s.core.pend.filter Acc.inTable).length)))

/-- The words of a cluster that stands at a bundle word. -/
def State.atBundle (s : State) (k : Cl) : Option (W32 × W32) :=
  if !s.canTry k then none
  else match s.fetch k with
    | .ok (w, p) => if s.syncBit k w then some (w, p) else none
    | .error _ => none

/-- A branch word of S (R23). -/
def isBranchS (n : Nat) : Bool :=
  match decodeS n with
  | some i => (match i with
    | .sBr .. | .call .. | .sBeqz .. | .sBnez .. | .sBltz .. | .sBgez .. | .sBqt .. | .sBqf .. => true
    | _ => false)
  | none => false

/-- The four clusters in the order of R22. -/
def clusters : List Cl := [.s, .a, .v, .m]

/-- A member of a bundle: its cluster, its words. -/
abbrev Member := Cl × W32 × W32

/-- The bundle as far as its members stand at it. While S is active and not there yet, its word is not known: a BFOL waits. -/
def State.bundleOf (s : State) (ms : List Member) : Bundle :=
  let sw := ms.find? (fun m => m.1 == .s)
  ⟨true, s.core.ca.act, (match sw with
    | some m => isBranchS m.2.1.toNat
    | none => s.core.cs.act), none⟩

/-- Try one member on its own, with the outcome of S's branch if it is known. -/
def State.tryMember (s : State) (b : Bundle) (m : Member) : State :=
  let s0 := { s with nonce := s.nonce + clCode m.1 }
  nextOr (runWord m.1 m.2.1.toNat m.2.2.toNat (s0.present m.1 m.2.1 m.2.2 b)) s0

def Core.hasTrapped (c : Core) : Bool :=
  match c.res with
  | .trapped _ => true
  | _ => false

def Core.hasIssued (c : Core) : Bool :=
  match c.res with
  | .issued => true
  | _ => false

/-- The members tried each on its own; S's branch outcome goes to the others. -/
def State.tryAll (s : State) (ms : List Member) : List (Member × State) :=
  let b := s.bundleOf ms
  let st := (ms.filter (fun m => m.1 == .s)).map (fun m => (m, s.tryMember b m))
  let b' := match st with
    | (_, t) :: _ => if t.core.hasIssued then { b with sBranch := t.core.bundle.sBranch } else b
    | [] => b
  st ++ (ms.filter (fun m => m.1 != .s)).map (fun m => (m, s.tryMember b' m))

/-- All members issue in one cycle (R20). Should one of them not issue behind the others, none does. -/
def State.issueAll (s : State) (ms : List Member) : State :=
  let go (a : Option State) (m : Member) : Option State :=
    match a with
    | none => none
    | some t =>
      let b := t.core.bundle
      let t0 := { t with nonce := t.nonce + 1 }
      let u := nextOr (runWord m.1 m.2.1.toNat m.2.2.toNat (t0.present m.1 m.2.1 m.2.2 b)) t0
      if u.core.hasIssued then some (u.settleWord m.1) else none
  match ms.foldl go (some (s.setCore { s.core with bundle := s.bundleOf ms })) with
  | some t => t.setCore { t.core with bundle := noBundle }
  | none => s

/-- A member that waits at its bundle word counts as stalled on a queue (R21); the code is 63 (09 R272). -/
def State.bundleWait (s : State) (m : Member) : State := (s.stalled true 63).settleWord m.1

/-- A word whose own wait is no queue stall even at a bundle (06 R185, 09 R280): WAITC, WAITG, barriers and LANDW in S, and what A waits for
beside its queues. A BFOL waits for the branch of S, which is a wait for the bundle. -/
def waitsAlone (m : Member) : Bool :=
  match m.1 with
  | .s => (match decodeS m.2.1.toNat with
    | some i => (match i with
      | .waitc .. | .waitg .. | .bar .. | .barF .. => true
      | .csrr _ r => r == 0x016
      | _ => false)
    | none => false)
  | .a => (match decodeA m.2.1.toNat m.2.2.toNat with
    | some (.aBfol _) => false
    | _ => true)
  | _ => false

/-- What a stalled member leaves: an arrival at a barrier (R101), a page walk (R115), the wait of WAITL. It counts as stalled on a queue
(R21) unless its own wait is one that R185 excepts. -/
def State.keepStalls (s : State) (ts : List (Member × State)) : State :=
  ts.foldl (fun s e =>
    if e.2.core.hasIssued then s.bundleWait e.1
    else
      let b := s.bundleOf (ts.map Prod.fst)
      let u := nextOr (runWord e.1.1 e.1.2.1.toNat e.1.2.2.toNat (s.present e.1.1 e.1.2.1 e.1.2.2 b)) s
      (match u.core.res with
        | .stalled true _ => u
        | .stalled false _ => if waitsAlone e.1 then u else u.stalled true 63
        | _ => s.stalled true 63).settleWord e.1.1) s

/-- The members that stand at a bundle word. -/
def State.members (s : State) : List Member := clusters.filterMap (fun j => (s.atBundle j).map (fun w => (j, w.1, w.2)))

/-- Cluster `k` stands at a bundle word (R20 to R22): a member that would trap traps at once; when every active cluster is there
and ready, all issue; otherwise the members wait. -/
def State.bundle (s : State) (k : Cl) : State :=
  let ms := s.members
  let ts := s.tryAll ms
  match ts.find? (fun e => e.2.core.hasTrapped) with
  | some e => ({ e.2 with nonce := s.nonce } : State).settleWord e.1.1
  | none =>
    if clusters.all (fun j => !(s.core.strm j).act || ms.any (fun m => m.1 == j)) then
      if ts.all (fun e => e.2.core.hasIssued) then s.issueAll ms else s.keepStalls ts
    else match ms.find? (fun m => m.1 == k) with
      | some m => s.bundleWait m
      | none => s

/-! ## One attempt of one cluster -/

/-- The piece of the core in focus may issue words: it runs, and nothing holds it (09 R284, R288, R290, R291). -/
def State.mayIssue (s : State) : Bool := s.core.pc.run && s.core.halt == .none && !s.pkg.off

/-- The trap that cluster `k` would take now, if any. -/
def State.wouldTrap (s : State) (k : Cl) : Option State :=
  if !s.canTry k then none
  else match s.fetch k with
    | .error (.trap t) => some ((s.takeTrap k t).settleWord k)
    | .error _ => none
    | .ok (w, p) =>
      if s.syncBit k w then
        (match (s.tryAll s.members).find? (fun e => e.1.1 == k && e.2.core.hasTrapped) with
          | some e => some (({ e.2 with nonce := s.nonce } : State).settleWord k)
          | none => none)
      else
        let t := nextOr (issueAlone k w p s) s
        if t.core.hasTrapped then some t else none

/-- The trap that is taken now, of those that the clusters raise: at the first in the order S, A, V, M (09 R276). -/
def State.firstTrap (s : State) : Option State := clusters.findSome? s.wouldTrap

/-- A pending report that S would take now (09 R276). -/
def State.reportDue (s : State) : Bool :=
  s.core.pc.reports.any (fun r => !s.core.pc.handler || !r.trap.cause.recoverable)

/-- Reports are taken before any word issues; a precise trap of this cycle goes first (R276), but not ahead of Context Terminated, nor
of what ends a piece in its handler. -/
def State.reportFirst (s : State) : State :=
  match s.firstTrap with
  | some t => if s.core.pc.handler || s.endsNow then s.takeReport else t
  | none => s.takeReport

/-- An event may happen at the core in focus: a report is not taken where a precise trap goes first (R276). -/
def State.eventMay (s : State) (i : Instr) : Bool :=
  match i with
  | .reportedTrapTaken => s.core.pc.handler || s.endsNow || !s.mayIssue || s.firstTrap.isNone
  | _ => true

/-- An attempt of cluster `k` of the core in focus to issue its next word, by itself. -/
def tryWord (k : Cl) (s : State) : Host.Outcome State Fault Refusal :=
  match s.fetch k with
  | .error (.trap t) => .next ((s.takeTrap k t).settleWord k)
  | .error (.walk va) => .next (((s.walkFor va).stalled false 0).settleWord k)
  | .error (.ask who pa) => .next (((s.askFar who pa s.core.pc.ctx s.core.pc.li s.k).stalled false 0).settleWord k)
  | .error _ => .next ((s.stalled false 0).settleWord k)
  | .ok (w, p) => if s.syncBit k w then .next (s.bundle k) else issueAlone k w p s

/-- Cluster `k` of the core in focus tries to issue its next word. Where it would trap, the trap of this cycle at the first cluster is
taken (R276). -/
def tryIssue (k : Cl) (s : State) : Host.Outcome State Fault Refusal :=
  if !s.mayIssue then .next s
  else if s.reportDue then .next s.reportFirst
  else if !s.canTry k then .next s
  else match tryWord k s with
    | .next t => .next (if t.core.hasTrapped then s.firstTrap.getD t else t)
    | r => r

end Sys2Proof.Machine
end

