-- ==== Sys2Proof/Machine/Rounds.lean ====
section
/-! DEFINITION. Who moves when the agenda names nobody: a fixed rotation in which every running core issues once in a cycle, then
everything that may happen does, and then a cycle passes. It is one of the orders the spec allows; an agenda gives any other
(log entry 5). -/
namespace Sys2Proof.Machine

/-- An event happens now, if it is enabled. -/
def State.now (s : State) (f : State → Host.Outcome State Fault Refusal) : State := (nextOr (f s) s).bump

/-- The same for each argument in a list. -/
def State.nowEach {α : Type} (s : State) (l : List α) (f : α → State → Host.Outcome State Fault Refusal) : State :=
  l.foldl (fun s x => s.now (f x)) s

/-- The first row of a gather of which something has yet to perform or to leave. -/
def GaRun.nextRow (x : GaRun) : Option Nat :=
  (List.range x.op.gaGeo.rows).find? (fun j => !x.rows.contains j &&
    (x.idx == [] || (x.unitsOfRow j).any (fun u => !x.done.contains u && !x.acks.contains u && (x.plan u).isSome)))

def engines : List Eng := [.ml, .ms, .ga, .vc, .mo, .dv, .gl]

/-- What may happen at the core in focus: accesses, engines, copies, rows, and the events of its piece. -/
def State.coreRound (s : State) : State :=
  let s := s.nowEach (s.core.pend.map Acc.id) execAccessPerformed
  let s := s.nowEach engines execEngineTakesOperation
  let s := s.nowEach engines execGaddApply
  let todo (x : Copy) : List (Nat × Nat) :=
    if x.incl then []
    else (((List.range x.numUnits).filter (fun u => !x.done.contains u && x.real u)).take 8).map (fun u => (x.op.id, u))
  let s := s.nowEach (s.core.copies.flatMap todo) (fun p => execPromiseSectorPerform p.1 p.2)
  let s := s.nowEach (s.core.ga.filterMap (fun x => x.nextRow.map (fun r => (x.op.id, r)))) (fun p => execGatherRowLand p.1 p.2)
  let s := s.nowEach (s.core.epir.map Epir.id) execEpirRowPerform
  let s := s.nowEach engines execTranslationStallTimeout
  let s := s.nowEach [execCollectiveStart, execVeneerEntryWaitDrop, execCoreScratchSwitchEnd, execBarrierComplete,
    execQueueDeadlock, execWatchdog, execDrainConversion] (fun f => f)
  s

/-- What may happen on the die: streams, launches, pieces. -/
def State.dieRound (s : State) : State :=
  let s := s.now execTranslationWalkComplete
  let s := s.shr.stops.foldl (fun s e => (s.fireStop e.1).bump) s
  let ns := s.die.streams.map (fun e => BitVec.ofNat 6 e.1)
  let s := s.nowEach ns runCommand
  let s := s.nowEach ns execSignalDeferredApply
  let early := s.die.launches.flatMap (fun e => match e.2 with
    | some l => l.earlyWait.map (fun w => (e.1, w.1))
    | none => [])
  let s := s.nowEach early (fun p => execEarlyReached p.1 p.2)
  let ls := s.die.launches.map Prod.fst
  let s := s.nowEach ls execLaunchReady
  let s := s.nowEach ls execLaunchRetire
  let s := s.nowEach ls execLaunchFaulted
  let s := s.nowEach ls execPromotion
  let s := s.nowEach ls execPreemption
  let free := s.die.launches.flatMap (fun e => match e.2 with
    | some l => if (l.state == .ready || l.state == .running) && l.waits then (s.launchCores l.lr).filter s.coreFree else []
    | none => [])
  free.eraseDups.foldl (fun s x => (s.at x (fun s => s.now execPieceStart)).bump) s

/-- What may happen in the package and towards the fabric. -/
def State.fabricRound (s : State) : State :=
  let s := s.nowEach (s.fab.req.map Prod.fst) execRemoteAccessTimeout
  let whichHbm := s.fab.dowel.map (fun e => BitVec.ofNat 4 e.1)
  let s := s.nowEach whichHbm execDowelOperation
  let s := s.nowEach whichHbm execDowelHandler
  let ctxs := s.fab.gctx.map (fun e => BitVec.ofNat 4 e.1)
  let s := s.nowEach ctxs execHandlerLoadComplete
  let colls := s.fab.colls.map Coll.id
  let s := s.nowEach colls execCollectiveChunkRead
  let s := s.nowEach colls execCollectiveComplete
  let s := s.nowEach colls execCollectiveTimeout
  let s := s.nowEach (s.fab.sends.map VnSend.id) execVeneerPlaneSend
  let s := s.nowEach ctxs execVoteSend
  let s := s.nowEach ctxs execRootDecision
  let s := s.nowEach ctxs execDecidedStateExit
  let s := s.nowEach ctxs execVoteWaitTimeout
  let s := s.nowEach ctxs execAncestorSilenceHalt
  let s := s.nowEach ctxs execFillComplete
  let s := s.nowEach [execPlaneScan, execDovetailEntryStart, execDovetailTableEnd] (fun f => f)
  let s := s.nowEach ((List.range 16).map (BitVec.ofNat 4)) execEthTxFrame
  s.nowEach (s.pkg.ethTx.map (fun e => BitVec.ofNat 7 e.1)) execEthTxComplete

/-- The running core of lowest index above `k`, or of all. -/
def State.nextCore (s : State) (k : Option Nat) : Option Nat :=
  let run := (s.allCores.filter (fun e => e.2.pc.run && k.all (fun j => decide (j < e.1)))).map Prod.fst
  run.foldl (fun b x => match b with
    | some y => some (min x y)
    | none => some x) none

/-- The turn after the last running core: the events, a cycle, and the first running core again. -/
def State.roundEnds (s : State) : State :=
  let s := ((s.eachCore State.coreRound).dieRound).fabricRound.tick
  let s := match s.nextCore none with
    | some k => s.focus k
    | none => s
  { s with rota := 0 }

/-- One turn of the rotation: the four clusters of the core in focus, one after the other, then the next running core. -/
def rotation (s : State) : Host.Outcome State Fault Refusal :=
  let next : State := { s with rota := s.rota + 1 }
  match s.rota with
  | 0 => tryIssue .s next
  | 1 => tryIssue .a next
  | 2 => tryIssue .v next
  | 3 => tryIssue .m next
  | _ => .next (match s.nextCore (some s.k) with
    | some k => { s.focus k with rota := 0 }
    | none => s.roundEnds)

/-! ## A turn of the agenda -/

/-- Do `f` with core `k` in focus. -/
def atCore (k : Nat) (f : State → Host.Outcome State Fault Refusal) (s : State) : Host.Outcome State Fault Refusal :=
  match f (s.focus k) with
  | .next t => .next (t.focus s.k)
  | r => r

/-- The turn `t` (State.agenda). -/
def runTurn (t : Turn) (s : State) : Host.Outcome State Fault Refusal :=
  match t with
  | .issue k c => if k < 384 then atCore k (tryIssue c) s else .fault .noSuchCore
  | .event k i => if k < 384 then atCore k (fun s => if s.eventMay i then exec i s else .next s) s else .fault .noSuchCore
  | .command n => runCommand n s
  | .host w off bs => .next (s.windowWrite w off bs (fun s v => s.doorbell v none))
  | .tick => .next s.tick

/-- Who moves next moves. -/
def advance (s : State) : Host.Outcome State Fault Refusal :=
  match s.agenda with
  | [] => rotation s
  | t :: r => runTurn t { s with agenda := r }

end Sys2Proof.Machine
end

