-- ==== Sys2Proof/Machine/Loader.lean ====
section
/-! DEFINITION. Placing one instruction where the next step fetches: what stands for a launch of one word (log entry 6). -/
namespace Sys2Proof.Machine

/-- Where the words are placed: a local address of this device's HBM. -/
def placeKey : Nat := 0x10000

/-- A code capability for the eight bytes there: space 3, permission x, base and cursor at the word (04 R108). -/
def codeCapAt (peer : BitVec 12) : Cap :=
  ⟨true, BitVec.ofNat 128 (peer.toNat * 2 ^ 45 + placeKey + 8 * 2 ^ 64 + placeKey * 2 ^ 85 + 2 ^ pX * 2 ^ 112 + 3 * 2 ^ 124)⟩

/-- The words in memory, where a fetch of that address reads. -/
def State.placeWords (s : State) (n p : Nat) : State :=
  let k := s.readKey placeKey
  { s with mem := writeBytes s.mem k (bytesOfWord n ++ bytesOfWord p), pois := Map.set false s.pois (k / 32) false }

/-- A piece runs on the core in focus with only cluster `c` active, standing at the placed words, and it is that cluster's
turn. -/
def State.pointAt (s : State) (c : Cl) : State :=
  let x := s.core
  let off (t : Strm) : Strm := { t with act := false }
  let code := codeCapAt s.peer
  let y := { x with
    cs := off x.cs, ca := off x.ca, cv := off x.cv, cm := off x.cm, halt := .none,
    pend := x.pend.filter (fun a => !a.op.isLoadCap),
    pc := { x.pc with run := true, handler := false, reports := [], rep := none } }
  let s : State := { s with agenda := [], rota := clCode c, pkg := { s.pkg with off := false } }
  s.setCore (y.setStrm c ⟨true, code, curOf code, 0, 0, 0, []⟩)

end Sys2Proof.Machine
end

