-- ==== Sys2Proof/Machine/Step.lean ====
section
/-! DEFINITION. One step of the machine: whoever moves next moves, and the free values of the next step are others. -/
namespace Sys2Proof.Machine

/-- One step. -/
def step (s : State) : Host.Outcome State Fault Refusal :=
  match advance s with
  | .next t => .next t.bump
  | r => r

/-- `s` with an instruction of the table placed where the next step fetches (log entry 6). -/
def State.withFetchWord (s : State) (nbits w : Nat) : State :=
  (s.placeWords (tableWords nbits w).1 (tableWords nbits w).2).pointAt (tableCluster nbits w)

end Sys2Proof.Machine
end

