-- ==== Sys2Proof/Safety.lean ====
section
/-! DEFINITION. What counts as a well-formed state and as a safe run: the canonical form of memory and of the tables beside it,
and runs in which every step answers a next state. -/
namespace Sys2Proof.Safety
open Sys2Proof.Machine

/-- Memory, tags and poison are in canonical form, so that equal contents are equal data. -/
def Inv (s : State) : Prop :=
  Memory.wf s.mem = true ∧ Map.wf false s.tags = true ∧ Map.wf false s.pois = true

/-- `n` steps from `s` all answer a next state. -/
def Safe (n : Nat) (s : State) : Prop := ∃ t, Host.Core.run core n s = .next t

end Sys2Proof.Safety
end

