-- ==== Sys2Proof/Certificates/Slice0/Obligations.lean ====
section
/-! DEFINITION. What is claimed of the model: one definition for each statement. Tables in Sys2Proof.Claims name the instructions of
one shape with their functions and latencies. A register is read as the meanings read it, by gVal, aVal, iVal, mVal and vRead,
whose second argument tells apart the free values of early reads (01 R6, R38); what those answer is claimed by
ScalarRegisterRead. A statement `exec i s = .next (s'.retire k)` says that the word issues with the effects in s' and then ends:
retire moves the cursor (CountedLoopOfS). -/
namespace Sys2Proof.Claims
open Sys2Proof.Machine

/-- Result of an attempt to run an instruction. -/
abbrev Out := Host.Outcome State Fault Refusal

/-! ## Words of S -/

/-- Words with two g operands (03 R74 to R76): word, function, latency (01 R38). -/
def alu2Words : List ((BitVec 5 → BitVec 5 → BitVec 5 → Instr) × (W64 → W64 → W64) × Nat) :=
  [(Instr.add, fun x y => x + y, 1), (Instr.sub, fun x y => x - y, 1), (Instr.and, fun x y => x &&& y, 1),
   (Instr.or, fun x y => x ||| y, 1), (Instr.xor, fun x y => x ^^^ y, 1), (Instr.andn, fun x y => x &&& ~~~y, 1),
   (Instr.sll, fun x y => x <<< (y.toNat % 64), 1), (Instr.srl, fun x y => x >>> (y.toNat % 64), 1),
   (Instr.sra, fun x y => x.sshiftRight (y.toNat % 64), 1), (Instr.rotr, fun x y => rotr64 x y.toNat, 1),
   (Instr.slt, fun x y => if x.toInt < y.toInt then 1 else 0, 1), (Instr.sltz, fun x y => if x.toNat < y.toNat then 1 else 0, 1),
   (Instr.min, fun x y => if x.toInt ≤ y.toInt then x else y, 1), (Instr.max, fun x y => if x.toInt ≤ y.toInt then y else x, 1),
   (Instr.minz, fun x y => if x.toNat ≤ y.toNat then x else y, 1), (Instr.maxz, fun x y => if x.toNat ≤ y.toNat then y else x, 1),
   (Instr.mul, fun x y => x * y, 4), (Instr.mulh, fun x y => BitVec.ofInt 64 (x.toInt * y.toInt / 2 ^ 64), 4),
   (Instr.mulhz, fun x y => BitVec.ofNat 64 (x.toNat * y.toNat / 2 ^ 64), 4),
   (Instr.mulhsz, fun x y => BitVec.ofInt 64 (x.toInt * (y.toNat : Int) / 2 ^ 64), 4),
   (Instr.div, fDiv, 36), (Instr.divz, fDivz, 36), (Instr.rem, fRem, 36), (Instr.remz, fRemz, 36),
   (Instr.clmul, fun x y => BitVec.ofNat 64 (clmulNat x.toNat y.toNat), 4),
   (Instr.clmulh, fun x y => BitVec.ofNat 64 (clmulNat x.toNat y.toNat / 2 ^ 64), 4)]

/-- Words with one g operand (R74). -/
def alu1Words : List ((BitVec 5 → BitVec 5 → Instr) × (W64 → W64)) :=
  [(Instr.clz, fun x => BitVec.ofNat 64 (clz64 x.toNat)), (Instr.ctz, fun x => BitVec.ofNat 64 (ctz64 x.toNat)),
   (Instr.popc, fun x => BitVec.ofNat 64 (popNat x.toNat 64)), (Instr.brev, fun x => BitVec.ofNat 64 (brev64 x.toNat)),
   (Instr.bswap, fun x => BitVec.ofNat 64 (bswap64 x.toNat))]

/-- Words with a 13-bit immediate, extended with its sign (R77). -/
def immWords : List ((BitVec 5 → BitVec 5 → BitVec 13 → Instr) × (W64 → W64 → W64)) :=
  [(Instr.addi, fun x y => x + y), (Instr.andi, fun x y => x &&& y), (Instr.ori, fun x y => x ||| y),
   (Instr.xori, fun x y => x ^^^ y), (Instr.slti, fun x y => if x.toInt < y.toInt then 1 else 0),
   (Instr.sltiz, fun x y => if x.toNat < y.toNat then 1 else 0)]

/-- Shifts by a constant (R77). -/
def shiftWords : List ((BitVec 5 → BitVec 5 → BitVec 6 → Instr) × (W64 → Nat → W64)) :=
  [(Instr.slli, fun x n => x <<< n), (Instr.srli, fun x n => x >>> n), (Instr.srai, fun x n => x.sshiftRight n),
   (Instr.rotri, fun x n => rotr64 x n)]

/-- FP32 words with two operands (R78): result with its flags, latency. -/
def fpu2Words : List ((BitVec 5 → BitVec 5 → BitVec 5 → Instr) × (W64 → W64 → W64 × Fl) × Nat) :=
  [(Instr.faddF32, fAdd, 5), (Instr.fsubF32, fSub, 5), (Instr.fmulF32, fMul, 5), (Instr.fdivF32, fDivF, 24),
   (Instr.fminF32, fMinF, 5), (Instr.fmaxF32, fMaxF, 5), (Instr.feqF32, fEq, 5), (Instr.fltF32, fLt, 5), (Instr.fleF32, fLe, 5)]

/-- FP32 words with one operand (R78, R60, R61). -/
def fpu1Words : List ((BitVec 5 → BitVec 5 → Instr) × (W64 → W64 × Fl) × Nat) :=
  [(Instr.fsqrtF32, fSqrt, 24), (Instr.fabsF32, fAbs, 5), (Instr.fnegF32, fNeg, 5), (Instr.fcvtF32Bf16, fWiden bf16, 5),
   (Instr.fcvtF32F16, fWiden f16, 5)]

/-- Conversions of S with a rounding mode (R60, R61, R78). -/
def cvtSWords : List ((BitVec 5 → BitVec 5 → BitVec 3 → Instr) × (BitVec 3 → W64 → W64 × Fl)) :=
  [(Instr.fcvtS64F32, fToInt true), (Instr.fcvtZ64F32, fToInt false), (Instr.fcvtF32S64, fOfInt true),
   (Instr.fcvtF32Z64, fOfInt false), (Instr.fcvtBf16F32, fNarrow bf16), (Instr.fcvtF16F32, fNarrow f16)]

/-- Everything that a register word of S leaves alone: all but one g register, the cursor of S, the loop count and the record
of the attempt. -/
def onlyG (s t : State) (d : BitVec 5) : Prop :=
  t = { s with core := { s.core with g := t.core.g, cs := { s.core.cs with pc := t.core.cs.pc }, res := t.core.res,
                                     pc := { s.core.pc with lc := t.core.pc.lc, fpst := t.core.pc.fpst, fpEv := t.core.pc.fpEv, fpAt := t.core.pc.fpAt } } } ∧
  (∀ r : BitVec 5, r ≠ d ∨ r = 0 → t.core.g[r.toNat]'(r.isLt) = s.core.g[r.toNat]'(r.isLt)) ∧
  (∀ a, readByte t.mem a = readByte s.mem a)

/-- Conditional branches of S on g[c] (R82). -/
def condSWords : List ((BitVec 5 → BitVec 19 → Instr) × (W64 → Bool)) :=
  [(Instr.sBeqz, fun v => v == 0), (Instr.sBnez, fun v => v != 0), (Instr.sBltz, fun v => decide (v.toInt < 0)),
   (Instr.sBgez, fun v => decide (0 ≤ v.toInt))]

/-- The core after a branch of S has noted its outcome for its bundle (01 R23). -/
def noted (s : State) (b : Bool) : State := s.setCore { s.core with bundle := { s.core.bundle with sBranch := some b } }

/-- A branch word of S goes to `t` or falls through. -/
def goesS (s : State) (b : Bool) (t : W64) : State := if b then (noted s true).jump .s t else (noted s false).retire .s

end Sys2Proof.Claims

open Sys2Proof Sys2Proof.Machine

/-- R13, R38, R40, R73: g0 reads as zero; a register whose bound has passed reads as it stands, and traps Poison Consumed when it
is poisoned; before that the read is a free value, poisoned only where what is on its way is (R6), or Early Read where ERCHK asks
for the check. -/
def Sys2Proof.Claims.ScalarRegisterRead : Prop :=
  ∀ (s : State) (k : Nat), s.gVal 0 k = .ok 0 ∧
    ∀ r : BitVec 5, r ≠ 0 → s.gVal r k =
      (if s.cyc < (s.core.g[r.toNat]'(r.isLt)).rdy then
        (if s.checks .s then .error (.trap ⟨.earlyRead, BitVec.ofNat 16 r.toNat, 0⟩)
         else if (s.core.g[r.toNat]'(r.isLt)).p && s.choice k then .error (.trap ⟨.poisonConsumed, 0, 0⟩) else .ok (s.free 64 k))
      else if (s.core.g[r.toNat]'(r.isLt)).p then .error (.trap ⟨.poisonConsumed, 0, 0⟩)
      else .ok (s.core.g[r.toNat]'(r.isLt)).v)

/-- R13: a write of g0 changes nothing; a write of another register reads back, clean, from `lat` cycles on, and changes no
other register. -/
def Sys2Proof.Claims.ScalarRegisterWrite : Prop :=
  ∀ (s : State) (d : BitVec 5) (v : W64) (lat : Nat),
    s.putG 0 v lat = s ∧
    (d ≠ 0 → (s.putG d v lat).core.g[d.toNat]'(d.isLt) = ⟨v, false, s.cyc + lat⟩ ∧
      ∀ r : BitVec 5, r ≠ d → (s.putG d v lat).core.g[r.toNat]'(r.isLt) = s.core.g[r.toNat]'(r.isLt))

/-- R74 to R76: every two-operand word of the ALU issues and writes its function of g[a] and g[b] to g[d]. -/
def Obligations.ScalarTwoOperandWords : Prop :=
  ∀ e ∈ Claims.alu2Words, ∀ (d a b : BitVec 5) (s : State) (x y : W64), s.gVal a 1 = .ok x → s.gVal b 2 = .ok y →
    exec (e.1 d a b) s = .next ((s.putG d (e.2.1 x y) e.2.2).retire .s)

/-- R75: division never traps. Signed quotients truncate toward zero and a signed remainder takes the sign of the dividend; division by zero
gives a quotient with every bit set and the dividend as remainder, signed or not; -2^63 by -1 gives -2^63 and remainder 0. -/
def Obligations.DivisionWords : Prop :=
  ∀ (d a b : BitVec 5) (s : State) (x y : W64), s.gVal a 1 = .ok x → s.gVal b 2 = .ok y →
    let done (v : W64) : Claims.Out := .next ((s.putG d v 36).retire .s)
    (y = 0 → exec (.div d a b) s = done (BitVec.allOnes 64) ∧ exec (.divz d a b) s = done (BitVec.allOnes 64) ∧
      exec (.rem d a b) s = done x ∧ exec (.remz d a b) s = done x) ∧
    (y ≠ 0 → exec (.divz d a b) s = done (BitVec.ofNat 64 (x.toNat / y.toNat)) ∧
      exec (.remz d a b) s = done (BitVec.ofNat 64 (x.toNat % y.toNat)) ∧
      exec (.div d a b) s = done (BitVec.ofInt 64 (x.toInt.tdiv y.toInt)) ∧
      exec (.rem d a b) s = done (BitVec.ofInt 64 (x.toInt.tmod y.toInt))) ∧
    (y = BitVec.allOnes 64 → x = BitVec.intMin 64 →
      exec (.div d a b) s = done (BitVec.intMin 64) ∧ exec (.rem d a b) s = done 0)

/-- R74, R77: the words with one operand, with an immediate, the shifts by a constant, and LIH. -/
def Obligations.ScalarImmediateWords : Prop :=
  ∀ (d a : BitVec 5) (s : State),
    (∀ i : BitVec 19, exec (.lih d i) s = .next ((s.putG d (i.signExtend 64 <<< 13)).retire .s)) ∧
    ∀ x, s.gVal a 1 = .ok x →
      (∀ e ∈ Claims.alu1Words, exec (e.1 d a) s = .next ((s.putG d (e.2 x)).retire .s)) ∧
      (∀ e ∈ Claims.immWords, ∀ i : BitVec 13, exec (e.1 d a i) s = .next ((s.putG d (e.2 x (i.signExtend 64))).retire .s)) ∧
      (∀ e ∈ Claims.shiftWords, ∀ n : BitVec 6, exec (e.1 d a n) s = .next ((s.putG d (e.2 x n.toNat)).retire .s))

/-- R54, R55, R60, R61, R78: the FP32 words write their result to g[d] and OR their flags into FPST; fma.f32 adds the old g[d]. -/
def Obligations.ScalarFloatWords : Prop :=
  ∀ (d a b : BitVec 5) (s : State) (x : W64), s.gVal a 1 = .ok x →
    (∀ e ∈ Claims.fpu1Words, exec (e.1 d a) s = .next (((s.flagS (e.2.1 x).2).putG d (e.2.1 x).1 e.2.2).retire .s)) ∧
    (∀ e ∈ Claims.cvtSWords, ∀ m : BitVec 3,
      exec (e.1 d a m) s = .next (((s.flagS (e.2 m x).2).putG d (e.2 m x).1 5).retire .s)) ∧
    ∀ y, s.gVal b 2 = .ok y →
      (∀ e ∈ Claims.fpu2Words,
        exec (e.1 d a b) s = .next (((s.flagS (e.2.1 x y).2).putG d (e.2.1 x y).1 e.2.2).retire .s)) ∧
      ∀ z, s.gVal d 3 = .ok z →
        exec (.fmaF32 d a b) s = .next (((s.flagS (fFma x y z).2).putG d (fFma x y z).1 5).retire .s)

/-- The words of ScalarTwoOperandWords, ScalarImmediateWords and ScalarFloatWords change one g register at most, besides the
cursor and loop count of S and the flags of FPST; no byte of memory. -/
def Sys2Proof.Claims.ScalarFrame : Prop :=
  ∀ (d a b : BitVec 5) (s t : State), t.core.res = .issued →
    ((∃ e ∈ Claims.alu2Words, exec (e.1 d a b) s = .next t) ∨ (∃ e ∈ Claims.alu1Words, exec (e.1 d a) s = .next t) ∨
     (∃ e ∈ Claims.immWords, ∃ i, exec (e.1 d a i) s = .next t) ∨ (∃ e ∈ Claims.shiftWords, ∃ n, exec (e.1 d a n) s = .next t) ∨
     (∃ e ∈ Claims.fpu2Words, exec (e.1 d a b) s = .next t) ∨ (∃ e ∈ Claims.fpu1Words, exec (e.1 d a) s = .next t) ∨
     (∃ e ∈ Claims.cvtSWords, ∃ m, exec (e.1 d a m) s = .next t) ∨ exec (.fmaF32 d a b) s = .next t ∨
     (∃ i, exec (.lih d i) s = .next t)) →
    Claims.onlyG s t d ∧ t.core.pc.fpst &&& s.core.pc.fpst = s.core.pc.fpst

/-- R22, R73: an operand that cannot be read stops the word: it traps, and the trap is all that happens. -/
def Sys2Proof.Claims.ScalarOperandTraps : Prop :=
  ∀ (d a b : BitVec 5) (s : State) (x : Trap),
    (s.gVal a 1 = .error (.trap x) →
      (∀ e ∈ Claims.alu2Words, exec (e.1 d a b) s = .next (s.takeTrap .s x)) ∧
      (∀ e ∈ Claims.alu1Words, exec (e.1 d a) s = .next (s.takeTrap .s x)) ∧
      (∀ e ∈ Claims.immWords, ∀ i, exec (e.1 d a i) s = .next (s.takeTrap .s x)) ∧
      (∀ e ∈ Claims.fpu2Words, exec (e.1 d a b) s = .next (s.takeTrap .s x))) ∧
    (∀ v, s.gVal a 1 = .ok v → s.gVal b 2 = .error (.trap x) →
      (∀ e ∈ Claims.alu2Words, exec (e.1 d a b) s = .next (s.takeTrap .s x)) ∧
      (∀ e ∈ Claims.fpu2Words, exec (e.1 d a b) s = .next (s.takeTrap .s x)))

/-- R82 to R85: the branches of S. CALL and JALR write the link; JALR reads its target first and is no branch word of a bundle;
BQT and BQF pop one outcome. -/
def Sys2Proof.Claims.ScalarBranches : Prop :=
  ∀ (s : State) (o : BitVec 19) (a d : BitVec 5),
    exec (.sBr o) s = .next ((Claims.noted s true).jump .s (s.target .s o)) ∧
    exec (.call o) s = .next ((Claims.noted (s.putG 30 (s.core.cs.pc + 4)) true).jump .s (s.target .s o) true) ∧
    (∀ x, s.gVal a 1 = .ok x →
      exec (.jalr d a) s = .next ((s.putG d (s.core.cs.pc + 4)).jump .s x true) ∧
      ∀ e ∈ Claims.condSWords, exec (e.1 a o) s = .next (Claims.goesS s (e.2 x) (s.target .s o))) ∧
    (∀ e : PV, s.peek 10 1 = .ok [e] →
      exec (.sBqt o) s = .next (Claims.goesS (s.popN 10 1) (e.v != 0) (s.target .s o)) ∧
      exec (.sBqf o) s = .next (Claims.goesS (s.popN 10 1) (e.v == 0) (s.target .s o)))

/-- R26, R82: a branch target is the word's address and four times the offset, extended with its sign; a taken branch puts the
cursor there, and the word after it is never issued. -/
def Sys2Proof.Claims.BranchTargets : Prop :=
  ∀ (s : State) (k : Cl) (o : BitVec 19) (t : W64) (call : Bool),
    s.target k o = (s.core.strm k).pc + BitVec.ofInt 64 (4 * o.toInt) ∧ ((s.jump k t call).core.strm k).pc = t

/-- R86: a word of S at LE - 4 that is no taken branch ends an iteration of the loop; any other goes on to the next word. -/
def Sys2Proof.Claims.CountedLoopOfS : Prop :=
  ∀ s : State,
    (s.core.pc.lc ≠ 0 ∧ s.core.cs.pc = s.core.pc.le - 4 →
      (s.retire .s).core.pc.lc = s.core.pc.lc - 1 ∧
      (s.retire .s).core.cs.pc = (if s.core.pc.lc - 1 ≠ 0 then s.core.pc.lb else s.core.pc.le)) ∧
    (s.core.pc.lc = 0 ∨ s.core.cs.pc ≠ s.core.pc.le - 4 →
      (s.retire .s).core.pc.lc = s.core.pc.lc ∧ (s.retire .s).core.cs.pc = s.core.cs.pc + 4)

/-- R86, R143, R238: LOOP of S, A and M: Loop Fault while a loop is active; a count of zero leaves the body out; any other count
sets the loop up, with nothing yet in the loop buffers of S and A (R206). LC is read as S reads it (R38). -/
def Sys2Proof.Claims.LoopWords : Prop :=
  ∀ (s : State) (o : BitVec 19) (c : BitVec 5) (i : BitVec 3),
    (s.csrSeen 0x001 s.core.pc.lc ≠ 0 → exec (.sLoop c o) s = .next (s.takeTrap .s ⟨.loopFault, 0, 0⟩)) ∧
    (∀ n, s.csrSeen 0x001 s.core.pc.lc = 0 → s.gVal c 1 = .ok n → ∃ t, exec (.sLoop c o) s = .next t ∧ t.core.res = .issued ∧
      t.core.cs.buf = [] ∧
      (n = 0 → t.core.pc = s.core.pc ∧ t.core.cs.pc = s.target .s o) ∧
      (n ≠ 0 → t.core.pc = { s.core.pc with lc := n, lb := s.core.cs.pc + 4, le := s.target .s o } ∧
        t.core.cs.pc = s.core.cs.pc + 4)) ∧
    (s.core.pc.aloop.isSome → exec (.aLoop c o) s = .next (s.takeTrap .a ⟨.loopFault, 0, 0⟩)) ∧
    (∀ n, s.core.pc.aloop = none → s.aCur c 1 = .ok n → ∃ t, exec (.aLoop c o) s = .next t ∧ t.core.res = .issued ∧
      t.core.ca.buf = [] ∧
      (n = 0 → t.core.pc = s.core.pc ∧ t.core.ca.pc = s.target .a o) ∧
      (n ≠ 0 → t.core.pc = { s.core.pc with aloop := some ⟨n, s.core.ca.pc + 4, s.target .a o⟩ } ∧
        t.core.ca.pc = s.core.ca.pc + 4)) ∧
    (s.core.pc.rep = none → s.core.pc.mloop.isSome → exec (.mLoop i o) s = .next (s.takeTrap .m ⟨.loopFault, 0, 0⟩)) ∧
    (∀ n, s.core.pc.rep = none → s.core.pc.mloop = none → s.iVal i 1 = .ok n →
      ∃ t, exec (.mLoop i o) s = .next t ∧ t.core.res = .issued ∧
      (n = 0 → t.core.pc = s.core.pc ∧ t.core.cm.pc = s.target .m o) ∧
      (n ≠ 0 → t.core.pc = { s.core.pc with mloop := some ⟨n.zeroExtend 64, s.core.cm.pc + 4, s.target .m o⟩ } ∧
        t.core.cm.pc = s.core.cm.pc + 4))

/-- R84: a BFOL of S never has an effect: Bundle Mismatch in a bundle, Illegal Word outside one. -/
def Sys2Proof.Claims.BfolOfSTraps : Prop :=
  ∀ (s : State) (o : BitVec 19),
    (s.core.bundle.on = true → exec (.sBfol o) s = .next (s.takeTrap .s ⟨.bundleMismatch, 0, 0⟩)) ∧
    (s.core.bundle.on = false → exec (.sBfol o) s = .next (s.takeTrap .s ⟨.illegalWord, 0, s.core.cs.iw.zeroExtend 64⟩)) ∧
    ∀ (n : Nat) (d a : BitVec 5), decodeS n = some (.jalr d a) → isBranchS n = false

/-- R23: a BFOL of A, V or M follows the branch of S in its bundle; outside a bundle it is an Illegal Word, and with a word of S that
is no branch it raises Bundle Mismatch. -/
def Sys2Proof.Claims.BfolFollowsS : Prop :=
  ∀ (s : State) (o : BitVec 19), s.core.pc.rep = none →
    ∀ e ∈ [(Instr.aBfol o, Cl.a), (Instr.vBfol o, Cl.v), (Instr.mBfol o, Cl.m)],
      (s.core.bundle.on = false →
        exec e.1 s = .next (s.takeTrap e.2 ⟨.illegalWord, 0, (s.core.strm e.2).iw.zeroExtend 64⟩)) ∧
      (s.core.bundle.on = true ∧ s.core.bundle.sIsBranch = false →
        exec e.1 s = .next (s.takeTrap e.2 ⟨.bundleMismatch, 0, 0⟩)) ∧
      (∀ b, s.core.bundle.on = true ∧ s.core.bundle.sIsBranch = true ∧ s.core.bundle.sBranch = some b →
        exec e.1 s = .next (if b then s.jump e.2 (s.target e.2 o) else s.retire e.2))

/-- R88, R274, R277: a recoverable trap with TVEC ≠ 0, taken while S is active and no handler runs: TCAUSE and TADDR are written, EPC
is the address of S's word (or the word after a TRAP), TPC that of the trapped word or 0 for S, S stands at TVEC and issues no earlier than
4 cycles later; the other clusters keep their cursors. TVEC is read as S reads it (R38). Memory and the g registers are unchanged. -/
def Sys2Proof.Claims.TrapEntersHandler : Prop :=
  ∀ (s : State) (k : Cl) (x : Trap),
    s.core.pc.handler = false → x.cause.recoverable = true → s.csrSeen 0x010 s.core.pc.tvec ≠ 0 → s.core.cs.act = true →
    let t := s.takeTrap k x
    t.core.pc.handler = true ∧ t.core.res = .trapped x ∧ t.core.pc.taddr = x.addr ∧
    t.core.pc.tcause = BitVec.ofNat 64 (x.sub.toNat * 65536 + s.core.pc.stepIn.toNat * 2048 + clCode k * 256 + x.cause.code) ∧
    t.core.pc.epc = (if x.cause = .softwareTrap then s.core.cs.pc + 4 else s.core.cs.pc) ∧
    t.core.pc.tpc = (if k = .s then 0 else (s.core.strm k).pc) ∧
    t.core.pc.waitl = none ∧ t.core.cs.pc = s.csrSeen 0x010 s.core.pc.tvec ∧ s.cyc + 4 ≤ t.core.cs.start ∧
    t.core.ca = s.core.ca ∧ t.core.cv = s.core.cv ∧ t.core.cm = s.core.cm ∧ t.core.g = s.core.g ∧ t.mem = s.mem

/-- R88, R272, R278: a trap that no handler may take ends the piece as faulted: with TVEC = 0, in a handler (Double Trap, whose detail is
the code of the second cause), after S has ended, or when it is not recoverable. -/
def Sys2Proof.Claims.TrapEndsPiece : Prop :=
  ∀ (s : State) (k : Cl) (x : Trap), s.core.debugger = false →
    s.core.pc.handler = true ∨ s.csrSeen 0x010 s.core.pc.tvec = 0 ∨ s.core.cs.act = false ∨ x.cause.recoverable = false →
    let t := s.takeTrap k x
    t.core.pc.run = false ∧ t.core.cs.act = false ∧ t.core.ca.act = false ∧ t.core.cv.act = false ∧ t.core.cm.act = false ∧
    t.mem = s.mem ∧
    (∀ l, s.launch s.core.pc.li = some l → ∃ l', t.launch s.core.pc.li = some l' ∧ l'.state = .frozen ∧ l'.ended = l.ended + 1) ∧
    Map.get none t.die.named s.core.pc.li =
      some (if s.core.pc.handler then ⟨.doubleTrap, BitVec.ofNat 16 x.cause.code, 0⟩ else x)

/-- R89, R277: ERET in a handler resumes S at EPC and the trapped cluster at TPC; no word issues within 4 cycles. Elsewhere it is
an Illegal Word. EPC and TPC are read as S reads them (R38). -/
def Sys2Proof.Claims.EretResumes : Prop :=
  ∀ s : State,
    (s.core.pc.handler = false → exec .eret s = .next (s.takeTrap .s ⟨.illegalWord, 0, s.core.cs.iw.zeroExtend 64⟩)) ∧
    (s.core.pc.handler = true → ∃ t, exec .eret s = .next t ∧ t.core.res = .issued ∧ t.core.pc.handler = false ∧
      t.core.cs.pc = s.csrSeen 0x011 s.core.pc.epc ∧
      (∀ k : Cl, s.cyc + 4 ≤ (t.core.strm k).start) ∧
      (∀ k : Cl, k ≠ .s → (t.core.strm k).pc = if k = s.core.pc.hcl then s.csrSeen 0x014 s.core.pc.tpc else (s.core.strm k).pc) ∧
      t.core.g = s.core.g ∧ t.mem = s.mem)

/-- R87: TRAP raises Software Trap with its code as detail. -/
def Sys2Proof.Claims.TrapWord : Prop :=
  ∀ (s : State) (i : BitVec 13), exec (.trap i) s = .next (s.takeTrap .s ⟨.softwareTrap, i.zeroExtend 16, 0⟩) ∧
    (s.core.pc.handler = false → s.csrSeen 0x010 s.core.pc.tvec ≠ 0 → s.core.cs.act = true →
      let t := s.takeTrap .s ⟨.softwareTrap, i.zeroExtend 16, 0⟩
      t.core.pc.epc = s.core.cs.pc + 4 ∧ t.core.pc.tcause =
        BitVec.ofNat 64 (i.toNat * 65536 + s.core.pc.stepIn.toNat * 2048 + Cause.softwareTrap.code))

/-- R11, R90, R186: END makes its cluster inactive and drops the queues that it consumes; that of S waits inside a step until the piece
is quiescent (R106); with the last cluster the piece ends. -/
def Sys2Proof.Claims.EndWords : Prop :=
  ∀ s : State,
    (s.core.pc.stepIn = true ∧ s.quiescent = false → exec .sEnd s = .next (s.stalled false 0)) ∧
    (∀ e ∈ [(Instr.sEnd, Cl.s), (Instr.aEnd, Cl.a), (Instr.vEnd, Cl.v), (Instr.mEnd, Cl.m)],
      (e.2 = .s → s.core.pc.stepIn = false ∨ s.quiescent = true) → (e.2 = .m → s.core.pc.rep = none) →
      ∃ t, exec e.1 s = .next t ∧ t.core.res = .issued ∧ (t.core.strm e.2).act = false ∧
        (∀ k, k ≠ e.2 → (s.core.strm k).act = true →
          t.core.strm k = s.core.strm k ∧ t.core.pc.run = s.core.pc.run ∧ t.die = s.die) ∧
        (∀ n, qConsumer n = e.2 → (t.core.q n).ents = [] ∧ (t.core.rq n).ents = []) ∧
        ((∀ k, k ≠ e.2 → (s.core.strm k).act = false) → t.core.pc.run = false) ∧ t.mem = s.mem)

/-- R91: EARLY issues at once; its launch now waits for the writes issued before it, and a second one has no effect. -/
def Sys2Proof.Claims.EarlyWord : Prop :=
  ∀ s : State,
    (s.core.pc.isEarly = true → exec .early s = .next (s.retire .s)) ∧
    (s.core.pc.isEarly = false → s.launch s.core.pc.li = none →
      exec .early s = .next ((s.setPiece { s.core.pc with isEarly := true, early := some s.nextId }).retire .s)) ∧
    (∀ l, s.core.pc.isEarly = false → s.launch s.core.pc.li = some l →
      ∃ t : State, exec .early s = .next (t.retire .s) ∧ t.core.pc.isEarly = true ∧
        t.launch s.core.pc.li = some { l with earlyWait := l.earlyWait ++ [(s.core.pc.q, s.k, s.nextId)] } ∧ t.mem = s.mem)

/-- R92: CSRR writes the register to g[d] with the csr latency; a register whose last write is still within that bound reads as a free
value (R38), and so do the other words of S that read it (csrSeen). An access that is not allowed is an Illegal Word. -/
def Sys2Proof.Claims.CsrReads : Prop :=
  ∀ (s : State) (d : BitVec 5) (r : BitVec 12), r ≠ 0x016 →
    (s.csrMay r.toNat false = false → exec (.csrr d r) s = .next (s.takeTrap .s ⟨.illegalWord, 0, s.core.cs.iw.zeroExtend 64⟩)) ∧
    (s.csrMay r.toNat false = true →
      (Map.get 0 s.core.pc.csrRdy r.toNat ≤ s.cyc → exec (.csrr d r) s = .next ((s.putG d (s.csrValue r.toNat) 3).retire .s)) ∧
      (s.cyc < Map.get 0 s.core.pc.csrRdy r.toNat → exec (.csrr d r) s = .next ((s.putG d (s.free 64 314) 3).retire .s))) ∧
    (∀ v, s.csrSeen r.toNat v =
      if s.cyc < Map.get 0 s.core.pc.csrRdy r.toNat then s.free 64 (2 ^ 20 + 4096 + r.toNat) else v)

/-- R92: CSRW, CSRS and CSRC are one read-modify-write each: the value written, its bits set, its bits cleared, with the reserved bits
left out (the old value as S reads it, R38); a register that may not be written is an Illegal Word. -/
def Sys2Proof.Claims.CsrWrites : Prop :=
  ∀ (s : State) (a : BitVec 5) (r : BitVec 12),
    ∀ e ∈ [(Instr.csrw a r, CsrOp.w), (Instr.csrs a r, CsrOp.s), (Instr.csrc a r, CsrOp.c)],
    (s.csrMay r.toNat true = false → exec e.1 s = .next (s.takeTrap .s ⟨.illegalWord, 0, s.core.cs.iw.zeroExtend 64⟩)) ∧
    (∀ x t, s.csrMay r.toNat true = true → s.gVal a 1 = .ok x → s.csrGauge r.toNat = none →
      s.csrPut r.toNat ((match e.2 with
        | .w => x
        | .s => s.csrSeen r.toNat (s.csrNow r.toNat) ||| x
        | .c => s.csrSeen r.toNat (s.csrNow r.toNat) &&& ~~~x) &&& csrMask r.toNat) = .ok t →
      exec e.1 s = .next ((t.setPiece { t.core.pc with
        csrRdy := Map.set 0 t.core.pc.csrRdy r.toNat (s.cyc + 3) }).retire .s))

/-- R86, R88, R16, R40, R63: what a write of a control register of the piece, without reserved bits, leaves: exactly that register
changed, and FPST with the bits that events set in the same cycle (R64). A loop that LC, LB or LE makes anew starts with an empty loop
buffer: the model's choice, log entry 67. -/
def Sys2Proof.Claims.PieceRegistersWritten : Prop :=
  ∀ (s : State) (v : W64),
    (∃ t, s.csrPut 0x001 v = .ok t ∧ t.core.pc = { s.core.pc with lc := v } ∧
      t.core.cs = (if s.core.pc.lc = 0 then { s.core.cs with buf := [] } else s.core.cs)) ∧
    (∃ t, s.csrPut 0x002 v = .ok t ∧ t.core.pc = { s.core.pc with lb := v } ∧ t.core.cs = { s.core.cs with buf := [] }) ∧
    (∃ t, s.csrPut 0x003 v = .ok t ∧ t.core.pc = { s.core.pc with le := v } ∧ t.core.cs = { s.core.cs with buf := [] }) ∧
    s.csrPut 0x010 v = .ok (s.setPiece { s.core.pc with tvec := v }) ∧
    s.csrPut 0x011 v = .ok (s.setPiece { s.core.pc with epc := v }) ∧
    s.csrPut 0x014 v = .ok (s.setPiece { s.core.pc with tpc := v }) ∧
    s.csrPut 0x081 v = .ok (s.setPiece { s.core.pc with erchk := v }) ∧
    s.csrPut 0x082 v = .ok (s.setPiece { s.core.pc with fpst := v.truncate 6 ||| s.fpEvents }) ∧
    csrMask 0x010 = 0xFFFFFFFFFFFFFFFC ∧ csrMask 0x080 = 0xF03 ∧ csrMask 0x081 = 0xF ∧ csrMask 0x082 = 0x3F

/-- R22, R94, R95, R145: the queue words of S and A. A push waits while the queue is full, before it reads its operand; a pop takes the oldest
entry with its poison bit. -/
def Sys2Proof.Claims.QueueWords : Prop :=
  ∀ (s : State) (q : BitVec 6) (a d : BitVec 5),
    (∀ v p, s.gRaw a 1 = .ok (v, p) → s.room q.toNat = .ok () →
      exec (.sQpush q a) s = .next ((s.pushQ q.toNat ⟨v, p⟩).retire .s)) ∧
    (∀ c p, s.aRaw a 1 = .ok (c, p) → s.room q.toNat = .ok () →
      exec (.aQpush q a) s = .next ((s.pushQ q.toNat ⟨c.bits.truncate 64, p⟩).retire .a)) ∧
    (∀ v, s.gVal a 1 = .ok v → s.room 8 = .ok () →
      exec (.fmtq a) s = .next ((s.pushQ 8 ⟨v &&& 0xFFFFFFFF, false⟩).retire .s)) ∧
    (∀ e : PV, s.peek q.toNat 1 = .ok [e] →
      exec (.sQpop d q) s = .next (((s.popN q.toNat 1).putGP d e.v e.p 1).retire .s) ∧
      exec (.aQpop d q) s = .next (((s.popN q.toNat 1).putAP d (plainCap e.v) e.p 1).retire .a)) ∧
    (∀ c, s.room q.toNat = .error (.queue c) → exec (.sQpush q a) s = .next (s.stalled true c) ∧
      exec (.aQpush q a) s = .next (s.stalled true c)) ∧
    (∀ c, s.room 8 = .error (.queue c) → exec (.fmtq a) s = .next (s.stalled true c)) ∧
    (∀ c, s.peek q.toNat 1 = .error (.queue c) → exec (.sQpop d q) s = .next (s.stalled true c))

/-- R184 to R186: a queue with an active consumer takes a push while fewer than its depth are occupied at the start of the cycle, and the
entry can be popped from the next cycle on; what an inactive consumer would receive is discarded. -/
def Sys2Proof.Claims.QueueRules : Prop :=
  ∀ (s : State) (n : Nat) (v : PV),
    ((s.core.strm (qConsumer n)).act = false → s.room n = .ok () ∧ s.pushQ n v = s) ∧
    ((s.core.strm (qConsumer n)).act = true →
      (s.room n = .ok () ↔ (s.core.q n).occ s.cyc < qDepth n) ∧
      ((s.pushQ n v).core.q n).ents = (s.core.q n).ents ++ [⟨v, true, s.cyc, s.cyc + 1, 0⟩])

/-- R96, R97, R280: WAITC, WAITG and WAITL: each waits until its condition holds, then proceeds; WAITG writes the gauge as it observed
it; WAITL waits for the promise copies whose ENG issued before it, those of an ENG that A issues while it stalls left out. -/
def Sys2Proof.Claims.WaitWords : Prop :=
  ∀ (s : State) (a d : BitVec 5) (e : Bool) (g : BitVec 8),
    (∀ v, s.gVal a 1 = .ok v →
      exec (.waitc a) s = .next (if v.toNat ≤ s.cyc then s.retire .s else s.stalled false 0) ∧
      exec (.waitg d a e g) s =
        .next (if (s.gauge ⟨e, g⟩ - v.truncate 32).toNat < 2 ^ 31
          then (s.putG d ((s.gauge ⟨e, g⟩).zeroExtend 64)).retire .s else s.stalled false 0)) ∧
    let n := s.core.pc.waitl.getD s.nextId
    (s.core.promisesOpen n = true → ∃ t, exec (.waitl d) s = .next t ∧ t.core.res = .stalled false 0 ∧ t.core.g = s.core.g ∧
      t.core.pc.waitl = some n) ∧
    (s.core.promisesOpen n = false → exec (.waitl d) s = .next (((s.setPiece { s.core.pc with waitl := none }).putG d
      (BitVec.ofNat 64 (if s.core.pc.waitl.isSome then s.core.pc.lastLand + 1 else s.cyc)) 3).retire .s))

/-- R99, R101, R316: BAR. An arrival that is refused raises Barrier Fault; one that counts makes the piece wait; the same word, issued
again, goes on once its round has completed, and raises Barrier Fault once its round has failed (21 R508). Arrivals of one cycle count in
ascending order of their cores. That a further arrival at a fabric barrier whose count has arrived is refused is the model's choice: log entry
74. -/
def Sys2Proof.Claims.BarrierWords : Prop :=
  ∀ (s : State) (a : BitVec 5) (sc : BitVec 2) (n : BitVec 6),
    let key := s.barKey sc n
    (∀ w, s.arrived sc n = some w → w.fail = true → exec (.bar a sc n) s =
      .next ((s.setPiece (s.core.pc.setWait none)).takeTrap .s ⟨.barrierFault, n.zeroExtend 16, 0⟩)) ∧
    (∀ w, s.arrived sc n = some w → w.fail = false → w.done = true →
      exec (.bar a sc n) s = .next ((s.setPiece (s.core.pc.setWait none)).retire .s) ∧
      (s.core.bundle.on = true → s.core.bundle.hasA = true →
        exec (.barF a sc n) s = .next ((s.setPiece (s.core.pc.setWait none)).retire .s))) ∧
    (∀ w, s.arrived sc n = some w → w.fail = false → w.done = false → exec (.bar a sc n) s = .next (s.stalled false 0)) ∧
    (∀ v, s.arrived sc n = none → s.gVal a 1 = .ok v →
      let cnt := v.toNat % 2 ^ 16
      let b := s.barrier key
      (s.mayGo (resBar key) s.k = false → exec (.bar a sc n) s = .next (s.stalled false 0)) ∧
      (s.mayGo (resBar key) s.k = true → b.refuses sc s.core.pc.ctx cnt = true →
        exec (.bar a sc n) s = .next (s.takeTrap .s ⟨.barrierFault, n.zeroExtend 16, 0⟩)) ∧
      (s.mayGo (resBar key) s.k = true → b.refuses sc s.core.pc.ctx cnt = false →
        ∃ t, exec (.bar a sc n) s = .next t ∧ t.core.res = .stalled false 0 ∧
        t.core.pc.wait = some ⟨s.core.cs.pc, sc, n, b.round, false, false⟩ ∧ t.mayGo (resBar key) s.k = true ∧
        (∀ k < s.k, t.mayGo (resBar key) k = false) ∧
        t.barrier key = b.arrive (sc == 2) s.core.pc.ctx (BitVec.ofNat 9 cnt))) ∧
    (s.core.bundle.on = false → exec (.barF a sc n) s = .next (s.takeTrap .s ⟨.illegalWord, 0, s.core.cs.iw.zeroExtend 64⟩)) ∧
    (s.core.bundle.on = true → s.core.bundle.hasA = false → exec (.barF a sc n) s = .next (s.takeTrap .s ⟨.bundleMismatch, 0, 0⟩)) ∧
    (s.core.bundle.on = true → s.core.bundle.hasA = true → s.core.performedAt sc = true ∧ s.enginesOpen = false →
      exec (.barF a sc n) s = exec (.bar a sc n) s)

/-- R103, R104, R106: STEPBEG, STEPVOTE and STEPEND, each with Step State where the rule asks for it; STEPEND waits for the piece's
quiescence. STEPVOTE reads FPST as S reads it (R38). -/
def Sys2Proof.Claims.StepWords : Prop :=
  ∀ (s : State) (a d : BitVec 5) (u : Bool) (f : BitVec 5),
    let p := s.core.pc
    let st := (s.ctx p.ctx).step
    ((st.open_ = false ∨ st.closed = true ∨ p.stepIn = true) → exec (.stepbeg d) s = .next (s.takeTrap .s ⟨.stepState, 0, 0⟩)) ∧
    (st.open_ = true → st.closed = false → p.stepIn = false →
      exec (.stepbeg d) s = .next (((s.setPiece { p with stepIn := true }).putG d
        (BitVec.ofNat 64 (st.k.toNat % 2 ^ 48 * 2 ^ 16 + st.t.toNat))).retire .s)) ∧
    (∀ v, s.gVal a 1 = .ok v →
      (p.stepIn = false → exec (.stepvote a u f) s = .next (s.takeTrap .s ⟨.stepState, 0, 0⟩)) ∧
      (p.stepIn = true → exec (.stepvote a u f) s =
        .next ((s.veto p.ctx (f ||| v.truncate 5 ||| (if u && (s.csrSeen 0x082 (p.fpst.zeroExtend 64)).toNat % 64 != 0 then 2 else 0))).retire .s))) ∧
    (p.stepIn = false → exec (.stepend d) s = .next (s.takeTrap .s ⟨.stepState, 0, 0⟩)) ∧
    (p.stepIn = true → s.quiescent = false → exec (.stepend d) s = .next (s.stalled false 0)) ∧
    (p.stepIn = true → s.quiescent = true →
      exec (.stepend d) s = .next (((s.setPiece { p with stepIn := false }).putG d (st.t.zeroExtend 64)).retire .s))

/-- R79 to R81: LOSSCHK inside a step counts once for an attempt; its result is 1 exactly for a spike. It reads LOSSLIM and LOSSRUN as S reads
them (R38). -/
def Sys2Proof.Claims.LossCheck : Prop :=
  ∀ (s : State) (d a : BitVec 5) (w : BitVec 7) (v : W64), s.gVal a 1 = .ok v →
    let p := s.core.pc
    let c := s.ctx p.ctx
    let x := v.toNat % 2 ^ 32
    let lim := (s.csrSeen 0x0A0 c.losslim).toNat
    let run := (s.csrSeen 0x0A1 c.lossrun).toNat
    let spike := lossSpike x (lim % 2 ^ 32) (lim / 2 ^ 32) (run % 2 ^ 32)
    let m := lossMean x (run % 2 ^ 32) w.toNat
    (p.stepIn = true ∧ w ≠ 0 ∧ c.step.lossCnt = true →
      exec (.losschk d a w) s = .next (s.takeTrap .s ⟨.stepState, 0, 0⟩)) ∧
    (p.stepIn = false ∨ w = 0 ∨ c.step.lossCnt = false →
      ∃ t : State, exec (.losschk d a w) s = .next (t.retire .s) ∧ t.core.g = (s.putG d (if spike then 1 else 0) 5).core.g ∧
        t.mem = s.mem ∧ (t.ctx p.ctx).losslim = c.losslim ∧
        (p.stepIn = true → (t.ctx p.ctx).lossrun = c.lossrun ∧
          (t.ctx p.ctx).step.vf = (if spike then c.step.vf ||| 1 else c.step.vf) ∧
          (w ≠ 0 → spike = false → (t.ctx p.ctx).step.lossPend = some (BitVec.ofNat 32 m))) ∧
        (p.stepIn = false → (t.ctx p.ctx).step = c.step ∧
          (t.ctx p.ctx).lossrun = (if w ≠ 0 ∧ spike = false then BitVec.ofNat 64 m else c.lossrun)))

namespace Sys2Proof.Claims

/-! ## Words of A -/

/-- Integer forms on two cursors (04 R119). -/
def cursorWords : List ((BitVec 5 → BitVec 5 → BitVec 5 → Instr) × (W64 → W64 → W64)) :=
  [(Instr.aIadd, fun x y => x + y), (Instr.isub, fun x y => x - y), (Instr.imul, fun x y => x * y),
   (Instr.iand, fun x y => x &&& y), (Instr.ior, fun x y => x ||| y), (Instr.ixor, fun x y => x ^^^ y),
   (Instr.isll, fun x y => x <<< (y.toNat % 64)), (Instr.isrl, fun x y => x >>> (y.toNat % 64)),
   (Instr.isra, fun x y => x.sshiftRight (y.toNat % 64)), (Instr.islt, fun x y => if x.toInt < y.toInt then 1 else 0),
   (Instr.isltz, fun x y => if x.toNat < y.toNat then 1 else 0)]

/-- Scalar loads (R124): word, bytes, whether the sign is extended. -/
def loadWords : List ((BitVec 5 → BitVec 3 → BitVec 4 → BitVec 13 → Instr) × Nat × Bool) :=
  [(Instr.ldS8, 1, true), (Instr.ldZ8, 1, false), (Instr.ldS16, 2, true), (Instr.ldZ16, 2, false), (Instr.ldS32, 4, true),
   (Instr.ldZ32, 4, false), (Instr.ld64, 8, false)]

/-- Scalar stores (R124): word, bytes. -/
def storeWords : List ((BitVec 5 → BitVec 3 → BitVec 4 → BitVec 13 → Instr) × Nat) :=
  [(Instr.st8, 1), (Instr.st16, 2), (Instr.st32, 4), (Instr.st64, 8)]

/-- What a load asks of the checks of R115 (R116). -/
def wantLoad (align : Nat) : Want := { spaces := [0, 1, 2, 3], prm := [pL], align := align, fifo := true, ld := true }
/-- What a store asks (R116). -/
def wantStore (align : Nat) : Want := { spaces := [0, 1, 2, 3], prm := [pS], align := align, fifo := true, st := true }
/-- What an atomic asks (R116). -/
def wantAtom (spaces : List Nat) (align : Nat) : Want := { spaces := spaces, prm := [pAt], align := align, ld := true, st := true }

/-- The access lies in no FIFO bank. -/
def plainPlace (p : Place) : Bool :=
  match p.loc with
  | .fifo _ => false
  | _ => true

/-- Conditional branches of A on the cursor of a[c] (R142). -/
def condAWords : List ((BitVec 5 → BitVec 19 → Instr) × (W64 → Bool)) :=
  [(Instr.aBeqz, fun v => v == 0), (Instr.aBnez, fun v => v != 0), (Instr.aBltz, fun v => decide (v.toInt < 0)),
   (Instr.aBgez, fun v => decide (0 ≤ v.toInt))]

/-- A branch of A, V or M goes to `t` or falls through. -/
def goes (s : State) (k : Cl) (b : Bool) (t : W64) : State := if b then s.jump k t else s.retire k

/-- Everything that a register word of A leaves alone. -/
def onlyA (s t : State) (d : BitVec 5) : Prop :=
  t = { s with core := { s.core with a := t.core.a, ca := { s.core.ca with pc := t.core.ca.pc }, res := t.core.res,
                                     pc := { s.core.pc with aloop := t.core.pc.aloop } } } ∧
  (∀ r : BitVec 5, r ≠ d ∨ r = 0 → t.core.a[r.toNat]'(r.isLt) = s.core.a[r.toNat]'(r.isLt)) ∧
  (∀ a, readByte t.mem a = readByte s.mem a)

end Sys2Proof.Claims

/-- R13, R38, R40, R117: a0 reads as the null capability; a poisoned register traps; a value read too early is free and never carries a
tag, nor poison unless what is on its way does (R6), or traps Early Read. -/
def Sys2Proof.Claims.CapabilityRegisterRead : Prop :=
  ∀ (s : State) (k : Nat), s.aVal 0 k = .ok nullCap ∧
    ∀ r : BitVec 5, r ≠ 0 →
      (s.cyc < (s.core.a[r.toNat]'(r.isLt)).rdy →
        (s.checks .a = true → s.aVal r k = .error (.trap ⟨.earlyRead, BitVec.ofNat 16 r.toNat, 0⟩)) ∧
        (s.checks .a = false → (∃ v, s.aVal r k = .ok ⟨false, v⟩) ∨
          ((s.core.a[r.toNat]'(r.isLt)).p = true ∧ s.aVal r k = .error (.trap ⟨.poisonConsumed, 0, 0⟩)))) ∧
      ((s.core.a[r.toNat]'(r.isLt)).rdy ≤ s.cyc →
        s.aVal r k = if (s.core.a[r.toNat]'(r.isLt)).p then .error (.trap ⟨.poisonConsumed, 0, 0⟩)
          else .ok (s.core.a[r.toNat]'(r.isLt)).c)

/-- R111, R117, R119, R120, R122, R123: the words that move or narrow a capability. A moved cursor keeps the tag only inside the
representable window; cmov, cclr and cget carry the poison bit on. -/
def Sys2Proof.Claims.CapabilityWords : Prop :=
  ∀ (s : State) (d a b : BitVec 5),
    (∀ x p, s.aRaw a 1 = .ok (x, p) →
      exec (.cmov d a) s = .next ((s.putAP d x p 1).retire .a) ∧
      exec (.cclr d a) s = .next ((s.putAP d ⟨false, x.bits⟩ p 1).retire .a) ∧
      ∀ f : BitVec 7, exec (.cget d a f) s = .next ((s.putAP d (plainCap (capField x f.toNat)) p 1).retire .a)) ∧
    (∀ i : BitVec 19, exec (.alih d i) s = .next ((s.putA d (plainCap (i.signExtend 64 <<< 13))).retire .a)) ∧
    (∀ x, s.aVal a 1 = .ok x →
      (∀ i : BitVec 13, exec (.aaddi d a i) s = .next ((s.putA d (x.move (curOf x + i.signExtend 64))).retire .a)) ∧
      (∀ p : BitVec 12, exec (.candp d a p) s =
        .next ((s.putA d ⟨x.tag, x.bits &&& ~~~((~~~p).zeroExtend 128 <<< 112)⟩).retire .a)) ∧
      (∀ n : BitVec 4, exec (.csets d a n) s = .next ((s.putA d
        ⟨x.tag && x.has pSp, (x.bits &&& (BitVec.allOnes 128 >>> 4)) ||| (n.zeroExtend 128 <<< 124)⟩).retire .a)) ∧
      ∀ y, s.aVal b 2 = .ok y →
        exec (.cadd d a b) s = .next ((s.putA d (x.move (curOf x + curOf y))).retire .a) ∧
        exec (.csub d a b) s = .next ((s.putA d (x.move (curOf x - curOf y))).retire .a) ∧
        ∀ e ∈ Claims.cursorWords,
          exec (e.1 d a b) s = .next ((s.putA d (plainCap (e.2 (curOf x) (curOf y)))).retire .a)) ∧
    (∀ x y p q, s.aRaw a 1 = .ok (x, p) → s.aRaw b 2 = .ok (y, q) →
      exec (.ctest d a b) s = .next ((s.putA d (plainCap (if capSubset x y then 1 else 0))).retire .a) ∧
      exec (.cteq d a b) s = .next ((s.putA d (plainCap (if x = y then 1 else 0))).retire .a))

/-- R111: changing the cursor of a capability keeps its tag exactly when the new cursor lies in [base, base + 2^(E+21)); the bits above
the cursor are kept, and no tag appears. -/
def Sys2Proof.Claims.CursorChange : Prop :=
  ∀ (c : Cap) (v : W64),
    ((c.move v).tag = true ↔ c.tag = true ∧ c.bounds.1 ≤ v.toNat ∧ v.toNat < c.bounds.1 + 2 ^ (c.e + 21)) ∧
    (c.move v).bits.truncate 64 = v ∧ (c.move v).bits >>> 64 = c.bits >>> 64 ∧
    (c.tag = true → c.e ≤ 43 → c.bounds.2 < 2 ^ 64 → (c.move (BitVec.ofNat 64 c.bounds.2)).tag = true)

/-- R112, R121: CSETB, CSETBX and CSETBI. An untagged source, a request that cannot be granted or that leaves the source's region, and an
inexact grant of CSETBX are Capability Faults, with the cursor of a[a] as TADDR (the model's choice: log entry 72); otherwise the granted
capability is written. -/
def Sys2Proof.Claims.BoundsWords : Prop :=
  ∀ (s : State) (d a b : BitVec 5) (i : BitVec 13) (x y : Cap), s.aVal a 1 = .ok x → s.aVal b 2 = .ok y →
    (∀ e ∈ [(Instr.csetb d a b, y.cur, false), (Instr.csetbx d a b, y.cur, true), (Instr.csetbi d a i, i.toNat, false)],
      (x.tag = false → exec e.1 s = .next (s.takeTrap .a ⟨.capabilityFault, 1, curOf x⟩)) ∧
      (x.tag = true → x.request x.cur e.2.1 = none → exec e.1 s = .next (s.takeTrap .a ⟨.capabilityFault, 4, curOf x⟩)) ∧
      (∀ c lo hi, x.tag = true → x.request x.cur e.2.1 = some (c, lo, hi) →
        (lo < x.bounds.1 ∨ x.bounds.2 < hi ∨ (e.2.2 = true ∧ (lo ≠ x.cur ∨ hi ≠ x.cur + e.2.1)) →
          exec e.1 s = .next (s.takeTrap .a ⟨.capabilityFault, 4, curOf x⟩)) ∧
        (x.bounds.1 ≤ lo → hi ≤ x.bounds.2 → (e.2.2 = true → lo = x.cur ∧ hi = x.cur + e.2.1) →
          exec e.1 s = .next ((s.putA d c).retire .a))))

/-- R112: a granted region holds the one asked for, unless its length is zero, and keeps the capability's space and permissions. -/
def Sys2Proof.Claims.BoundsGrant : Prop :=
  ∀ (c x : Cap) (rb rl lo hi : Nat), c.request rb rl = some (x, lo, hi) → rb < 2 ^ 64 →
    lo ≤ rb ∧ (0 < rl → rb + rl ≤ hi) ∧ x.tag = c.tag

/-- The words of CapabilityWords and BoundsWords change one a register at most, besides the cursor and loop of A; no byte of memory. -/
def Sys2Proof.Claims.CapabilityFrame : Prop :=
  ∀ (s t : State) (d a b : BitVec 5) (i : BitVec 13) (j : BitVec 19) (p : BitVec 12) (n : BitVec 4) (f : BitVec 7),
    t.core.res = .issued →
    ((∃ e ∈ Claims.cursorWords, exec (e.1 d a b) s = .next t) ∨
     ∃ w ∈ [Instr.cadd d a b, .csub d a b, .cmov d a, .cclr d a, .aaddi d a i, .alih d j, .candp d a p, .csets d a n, .cget d a f,
       .ctest d a b, .cteq d a b, .csetb d a b, .csetbx d a b, .csetbi d a i], exec w s = .next t) →
    Claims.onlyA s t d

/-- R115: the first of checks 2 to 6 that fails names the trap. -/
def Obligations.CapabilityChecks : Prop :=
  ∀ (c : Cap) (ea : Int) (n : Nat) (w : Want),
    capCheck c ea n w =
      (if c.tag = false then .error (.trap ⟨.capabilityFault, 1, BitVec.ofInt 64 ea⟩)
      else if w.spaces.contains c.spc = false then .error (.trap ⟨.capabilityFault, 2, BitVec.ofInt 64 ea⟩)
      else if ¬ (∀ b ∈ w.prm, c.has b = true) then .error (.trap ⟨.capabilityFault, 3, BitVec.ofInt 64 ea⟩)
      else if ea < c.bounds.1 ∨ (c.bounds.2 : Int) < ea + n then .error (.trap ⟨.capabilityFault, 4, BitVec.ofInt 64 ea⟩)
      else if ea.toNat % w.align ≠ 0 then .error (.trap ⟨.misaligned, 0, BitVec.ofInt 64 ea⟩)
      else .ok ())

/-- R124, R125, R129, R358: a load that passes its checks reserves an entry of its queue and waits to perform; from a FIFO bank it takes the
oldest bytes at once. Its effective address is the cursor and the offset times the access size. A row that lies in two places loads each
part from its own (log 51). -/
def Sys2Proof.Claims.LoadWordsIssue : Prop :=
  ∀ (s : State) (b : BitVec 5) (q : BitVec 3) (cl : BitVec 4) (i : BitVec 13),
    (∀ e ∈ Claims.loadWords, ∀ c p, s.baseReg b (i.toInt * e.2.1) = .ok c → s.room q.toNat = .ok () →
      s.access c (eaOf c (i.toInt * e.2.1)) e.2.1 (Claims.wantLoad e.2.1) = .ok p →
      let a := s.newAcc cl p e.2.1 (.load (q.zeroExtend 6) s.nextId e.2.2) c
      (Claims.plainPlace p = true →
        exec (e.1 b q cl i) s = .next (((s.reserveQ q.toNat s.nextId).addAcc a).retire .a)) ∧
      (∀ k t bs, p.loc = .fifo k → s.fifoPop k e.2.1 a q.toNat = .ok (t, bs) →
        exec (e.1 b q cl i) s =
          .next ((t.pushQ q.toNat ⟨extend e.2.1 e.2.2 (natLE (bs.map Prod.fst)), bs.any Prod.snd⟩).retire .a))) ∧
    (∀ c ps, s.baseReg b (i.toInt * 256) = .ok c → s.roomRow 6 = .ok () →
      s.rowPlaces c (eaOf c (i.toInt * 256)) (Claims.wantLoad 32) = .ok ps →
      (∀ o m p, ps = [(o, m, p)] → Claims.plainPlace p = true →
        exec (.ldrow b cl i) s =
          .next (((s.reserveRow 6 s.nextId).addAcc (s.newAcc cl p 256 (.loadRow s.nextId 0) c)).retire .a)) ∧
      (∀ o m p k t bs, ps = [(o, m, p)] → p.loc = .fifo k →
        s.fifoPop k 256 (s.newAcc cl p 256 (.loadRow s.nextId 0) c) 6 = .ok (t, bs) →
        exec (.ldrow b cl i) s =
          .next ((t.pushRow 6 ⟨BitVec.ofNat 2048 (natLE (bs.map Prod.fst)), lanePois (bs.map Prod.snd)⟩).retire .a)) ∧
      (∀ x y t, ps = [x, y] → (s.reserveRow 6 s.nextId).fresh.loadParts cl c s.nextId [x, y] = .ok t →
        exec (.ldrow b cl i) s = .next (t.retire .a)))

/-- R124, R129, R195, R358: a store that passes its checks takes its value from its queue and waits to perform; to a FIFO bank it appends at
once. A store waits while the forwarding table is full. A row that lies in two places stores each part to its own (log 51). -/
def Sys2Proof.Claims.StoreWordsIssue : Prop :=
  ∀ (s : State) (b : BitVec 5) (q : BitVec 3) (cl : BitVec 4) (i : BitVec 13),
    (∀ e ∈ Claims.storeWords, ∀ c v, s.baseReg b (i.toInt * e.2) = .ok c → s.peek q.toNat 1 = .ok [v] →
      (s.tableFull = true → exec (e.1 b q cl i) s = .next (s.stalled false 0)) ∧
      (∀ p, s.tableFull = false → s.access c (eaOf c (i.toInt * e.2)) e.2 (Claims.wantStore e.2) = .ok p →
        let bs := bytesLE e.2 v.v.toNat
        let a := s.newAcc cl p e.2 (.store bs v.p) c
        (Claims.plainPlace p = true → exec (e.1 b q cl i) s = .next (((s.popN q.toNat 1).addAcc a).retire .a)) ∧
        (∀ k t, p.loc = .fifo k → s.fifoPush k (bs.map (fun x => (x, v.p))) a q.toNat = .ok t →
          exec (e.1 b q cl i) s = .next ((t.popN q.toNat 1).retire .a)))) ∧
    (∀ c r, s.baseReg b (i.toInt * 256) = .ok c → s.peekRows 7 1 = .ok [r] →
      (s.tableFull = true → exec (.strow b cl i) s = .next (s.stalled false 0)) ∧
      (∀ ps, s.tableFull = false → s.rowPlaces c (eaOf c (i.toInt * 256)) (Claims.wantStore 32) = .ok ps →
        (∀ o m p, ps = [(o, m, p)] → Claims.plainPlace p = true →
          exec (.strow b cl i) s = .next (((s.popRows 7 1).addAcc (s.newAcc cl p 256 (.storeRow s.nextId r) c)).retire .a)) ∧
        (∀ o m p k t, ps = [(o, m, p)] → p.loc = .fifo k →
          s.fifoPush k (r.fifoBytes 256) (s.newAcc cl p 256 (.storeRow s.nextId r) c) 7 = .ok t →
          exec (.strow b cl i) s = .next ((t.popRows 7 1).retire .a)) ∧
        (∀ x y t, ps = [x, y] → (s.popRows 7 1).storeParts cl c s.nextId r [x, y] = .ok t →
          exec (.strow b cl i) s = .next (t.retire .a))))

/-- R127, R128, R195: LDC and STC. From core scratch LDC writes its register with latency 12, with the data of a store that has yet to perform
where it covers them; elsewhere it waits to perform. A tagged value may be
stored only with `sc`, into space 0 only if it holds `gb`. -/
def Sys2Proof.Claims.CapabilityTransfers : Prop :=
  ∀ (s : State) (d b : BitVec 5) (cl : BitVec 4) (i : BitVec 11) (c : Cap), s.baseReg b (i.toInt * 16) = .ok c →
    (∀ p, s.access c (eaOf c (i.toInt * 16)) 16 { spaces := [0, 1, 2, 3], prm := [pL], align := 16, ld := true } = .ok p →
      let a := s.newAcc cl p 16 (.loadCap d (c.has pLc && (c.spc == 0 || c.spc == 1))) c
      ((∀ o, p.loc ≠ .scr o) → exec (.ldc d b cl i) s = .next ((s.addAcc a).retire .a)) ∧
      (∀ o, p.loc = .scr o → s.mayPerform a = true →
        exec (.ldc d b cl i) s =
          .next ((s.putAP d (s.readCap (scrKey s.k o) false).1 (s.readCap (scrKey s.k o) false).2 12).retire .a)) ∧
      (∀ o bs bad, p.loc = .scr o → s.mayPerform a = false → s.forwarded a 0 16 = some (bs, bad) →
        exec (.ldc d b cl i) s = .next ((s.putAP d ⟨false, BitVec.ofNat 128 (natLE bs)⟩ bad 12).retire .a))) ∧
    (∀ v bad p, s.aRaw d 2 = .ok (v, bad) → s.tableFull = false →
      capCheck c (eaOf c (i.toInt * 16)) 16 { spaces := if v.tag then [0, 1] else [0, 1, 2, 3], prm := [pS], align := 16 } = .ok () →
      s.placeOf c s.core.pc.ctx (eaOf c (i.toInt * 16)) 16 { spaces := [], prm := [], align := 16, st := true } = .ok p →
      (v.tag = true ∧ (c.has pSc = false ∨ (c.spc = 0 ∧ v.has pGb = false)) →
        exec (.stc d b cl i) s = .next (s.takeTrap .a ⟨.capabilityFault, 3, BitVec.ofInt 64 (eaOf c (i.toInt * 16))⟩)) ∧
      (v.tag = false ∨ (c.has pSc = true ∧ (c.spc ≠ 0 ∨ v.has pGb = true) ∧ ∀ pa, p.loc = .hbm pa → s.remote pa = false) →
        exec (.stc d b cl i) s = .next ((s.addAcc (s.newAcc cl p 16 (.storeCap v bad) c)).retire .a)))

/-- R132, R133: GATH and SCAT queue one access for each active lane once every lane has passed its checks, the poison of the base being
each lane's first; a gather without an active lane delivers a row of zeros at once. -/
def Sys2Proof.Claims.GatherAndScatter : Prop :=
  ∀ (s : State) (b : BitVec 5) (cl : BitVec 4) (i : BitVec 13) (c : Cap) (pb : Bool), s.aRaw b 1 = .ok (c, pb) →
    (∀ idx ls, s.peekRows 7 1 = .ok [idx] → s.roomRow 6 = .ok () →
      s.lanePlaces c pb i idx { spaces := [0, 1, 2, 3], prm := [pL], align := 4, ld := true } (List.range 64) = .ok ls →
      exec (.gath b cl i) s = .next ((if ls = [] then ((((s.popRows 7 1).reserveRow 6 s.nextId).fillRow 6 s.nextId ⟨0, 0⟩).fresh)
        else (((s.popRows 7 1).reserveRow 6 s.nextId).fresh.addLanes cl c (fun j => .gathLane s.nextId j) ls)).retire .a)) ∧
    (∀ idx dat ls, s.peekRows 7 2 = .ok [idx, dat] → s.tableFull = false →
      s.lanePlaces c pb i idx { spaces := [0, 1, 2, 3], prm := [pS], align := 4, st := true } (List.range 64) = .ok ls →
      exec (.scat b cl i) s = .next (((s.popRows 7 2).addLanes cl c
        (fun j => .scatLane (bytesLE 4 (lane 32 dat.bits j)) (dat.p.toNat.testBit j)) ls).retire .a))

/-- R134 to R136: ATOM, RATOM and the handler RATOM take their operands from q1 or q3, reserve their result's entry when they return one, and
wait to perform. A poisoned operand traps. -/
def Sys2Proof.Claims.AtomicWordsIssue : Prop :=
  ∀ (s : State) (b : BitVec 5) (q : BitVec 3) (cl : BitVec 4) (o : BitVec 5) (z : BitVec 2) (src : Bool) (c : Cap),
    s.baseReg b 0 = .ok c → s.tableFull = false →
    (∀ e ∈ [(Instr.atom b q cl o z src, [1, 2]), (Instr.ratom b q cl o z src, [0, 3])], ∀ es p,
      let n := if o.truncate 4 = (6 : BitVec 4) then 2 else 1
      s.peek (if src then 3 else 1) n = .ok es → (o.toNat < 16 → s.room q.toNat = .ok ()) →
      s.access c c.cur (if z = 2 then 4 else 8) (Claims.wantAtom e.2 (if z = 2 then 4 else 8)) = .ok p →
      (es.any PV.p = true → exec e.1 s = .next (s.takeTrap .a ⟨.poisonConsumed, 0, curOf c⟩)) ∧
      (es.any PV.p = false →
        let a := s.newAcc cl p (if z = 2 then 4 else 8) (.atom (o.truncate 4)
          (if o.toNat < 16 then some (q.zeroExtend 6, s.nextId) else none) (es.headD ⟨0, false⟩).v ((es.drop 1).headD ⟨0, false⟩).v) c
        let t := s.popN (if src then 3 else 1) n
        exec e.1 s = .next (((if o.toNat < 16 then t.reserveQ q.toNat s.nextId else t).addAcc a).retire .a))) ∧
    (∀ (r : Bool) h es p, s.peek (if src then 3 else 1) 1 = .ok [h] →
      s.peek (if src then 3 else 1) (1 + h.v.toNat % 8) = .ok es → (r = true → s.room q.toNat = .ok ()) →
      s.access c c.cur 8 (Claims.wantAtom [0, 3] 8) = .ok p → es.any PV.p = false →
      let a := s.newAcc cl p 8 (.handler o (if r then some (q.zeroExtend 6, s.nextId) else none) ((es.drop 1).map PV.v)) c
      let t := s.popN (if src then 3 else 1) (1 + h.v.toNat % 8)
      exec (.ratomH b q cl o r src) s = .next (((if r then t.reserveQ q.toNat s.nextId else t).addAcc a).retire .a))

/-- R137: LATOM queues one atomic addition for each line of its row; FP32 lanes with sz = 2, BF16 lanes otherwise. -/
def Sys2Proof.Claims.LineAtomicIssues : Prop :=
  ∀ (s : State) (b : BitVec 5) (cl : BitVec 4) (z : BitVec 2) (one : Bool) (c : Cap) (r : RowV) (p : Place) (pa : Nat),
    s.baseReg b 0 = .ok c → s.tableFull = false → s.peekRows 7 1 = .ok [r] →
    s.access c c.cur (if one then 128 else 256) (Claims.wantAtom [0, 3] (if one then 128 else 256)) = .ok p → p.loc = .hbm pa →
    nb r.p.toNat 0 (if one then 32 else 64) = 0 →
    ∃ t : State, exec (.latom b cl z one) s = .next (t.retire .a) ∧
      t.core.pend.map (fun a => (a.loc, a.n, a.op)) = s.core.pend.map (fun a => (a.loc, a.n, a.op)) ++
        (List.range (if one then 1 else 2)).map (fun j =>
          (.hbm (pa + 128 * j), 128, .line (z == 2) (((bytesLE (if one then 128 else 256) r.bits.toNat).drop (128 * j)).take 128))) ∧
      t.core.rq 7 = (s.popRows 7 1).core.rq 7 ∧ t.mem = s.mem

/-- R131, R139: a prefetch has no effect and never traps; FENCE.C enters A's order and leaves it when the accesses it names have
performed. -/
def Sys2Proof.Claims.FenceAndPrefetch : Prop :=
  ∀ (s : State) (b : BitVec 5) (cl : BitVec 4) (i : BitVec 13) (sc : BitVec 2) (m : BitVec 16),
    exec (.prefL1 b cl i) s = .next (s.retire .a) ∧ exec (.prefCc b cl i) s = .next (s.retire .a) ∧
    exec (.prefDc b cl i) s = .next (s.retire .a) ∧
    exec (.fenceC sc m) s =
      .next (((s.addAcc (s.newAcc 0 ⟨.scr 0, false⟩ 0 (.fence sc m) nullCap)).settleFences).retire .a)

/-- R140, R141: BANKSET asks its bank for a mode, behind the switches asked for before, and within a cycle in the order of the cores; a set
that meets its own mode when its turn comes is dropped, and one of a retired bank has no effect (R321). TADDR of its Capability Faults is the
cursor of a[a] (the model's choice: log entry 72). BUSY and IDLE change the in-use bits of their blocks at the end of cycle c + 2, for the
piece's core and launch. -/
def Sys2Proof.Claims.BankAndBlockWords : Prop :=
  ∀ (s : State) (a : BitVec 5),
    (∀ (m : BitVec 2) (n : BitVec 6) c, s.aVal a 1 = .ok c →
      (c.tag = false → exec (.bankset a m n) s = .next (s.takeTrap .a ⟨.capabilityFault, 1, curOf c⟩)) ∧
      (c.tag = true → c.spc ≠ 1 → exec (.bankset a m n) s = .next (s.takeTrap .a ⟨.capabilityFault, 2, curOf c⟩)) ∧
      (c.tag = true → c.spc = 1 → c.has pBk = false → exec (.bankset a m n) s = .next (s.takeTrap .a ⟨.capabilityFault, 3, curOf c⟩)) ∧
      (c.tag = true → c.spc = 1 → c.has pBk = true →
        let b := s.bank s.clu n.toNat
        (b.mode = 3 → exec (.bankset a m n) s = .next (s.retire .a)) ∧
        (∀ r w, dropIdle m ((m, w) :: r) = dropIdle m r) ∧
        (∀ pre post, b.mode ≠ 3 → b.wait = pre ++ post →
          (∀ w ∈ pre, w.2.1 < s.cyc ∨ w.2.2 ≤ s.k) → (∀ w ∈ post, s.cyc ≤ w.2.1 ∧ s.k < w.2.2) →
          exec (.bankset a m n) s =
            .next ((s.setBank s.clu n.toNat { b with wait := pre ++ (m, s.cyc, s.k) :: post }).retire .a)))) ∧
    (∀ (n : BitVec 13) c, s.baseReg a 0 = .ok c →
      capCheck c c.cur (4096 * (n.toNat + 1)) { spaces := [1], prm := [pS], align := 4096 } = .ok () →
      c.cur + 4096 * (n.toNat + 1) ≤ 24 * 2 ^ 20 →
      s.banksCheck (curOf c) (unitsOf (2 ^ 19) c.cur (4096 * (n.toNat + 1))) = .ok () →
      ∀ e ∈ [(Instr.busy a n, true), (Instr.idle a n, false)],
        ∃ t : State, exec e.1 s = .next (t.retire .a) ∧ t.mem = s.mem ∧ t.core = s.core ∧
          ∀ j, j ≤ n.toNat → t.block s.clu (c.cur / 4096 + j) =
            { s.block s.clu (c.cur / 4096 + j) with
              pend := (s.block s.clu (c.cur / 4096 + j)).pend ++ [(s.cyc + 3, e.2, s.k, s.core.pc.pid, s.core.pc.li)] })

/-- R142, R144: the branches of A, and BPUB, which publishes its outcome to S, V and M as soon as all three queues have room. -/
def Sys2Proof.Claims.AccessBranches : Prop :=
  ∀ (s : State) (c : BitVec 5) (o : BitVec 19),
    exec (.aBr o) s = .next (s.jump .a (s.target .a o)) ∧
    (∀ v, s.aCur c 1 = .ok v →
      (∀ e ∈ Claims.condAWords, exec (e.1 c o) s = .next (Claims.goes s .a (e.2 v) (s.target .a o))) ∧
      (s.room 10 = .ok () → s.room 11 = .ok () → s.room 12 = .ok () →
        let e : PV := ⟨if v ≠ 0 then 1 else 0, false⟩
        exec (.bpub c o) s =
          .next (Claims.goes (((s.pushQ 10 e).pushQ 11 e).pushQ 12 e) .a (v != 0) (s.target .a o))) ∧
      (∀ x, s.room 10 = .error (.queue x) → exec (.bpub c o) s = .next (s.stalled true x)))

namespace Sys2Proof.Claims
open Sys2Proof.Machine

/-! ## Words of V -/

/-- The stage predicate lets the word work (05 R179): no LOOPR body is being run and `pm` is all ones, or `pm` is the predicate of the word's
stage and not all zeros. -/
def stageOn (s : State) (pm : BitVec 256) : Prop :=
  (s.stagePred = .ok none ∧ pm = BitVec.allOnes 256) ∨ (s.stagePred = .ok (some pm) ∧ pm ≠ 0)

/-- Shape of most words of V: destination, two sources, pattern, mask. -/
abbrev VWord := BitVec 6 → BitVec 6 → BitVec 6 → BitVec 4 → BitVec 3 → Instr

/-- Floating lane words (R152): with the pattern on vb, with the pattern on va, function. -/
def vfWords : List (VWord × VWord × (Fmt → Nat → Nat → Nat × Fl)) :=
  [(Instr.vfadd, Instr.vfaddVa, flAdd), (Instr.vfsub, Instr.vfsubVa, flSub), (Instr.vfmul, Instr.vfmulVa, flMul),
   (Instr.vfmin, Instr.vfminVa, flMin), (Instr.vfmax, Instr.vfmaxVa, flMax)]

/-- Integer lane words (R154) on width, signedness and two lanes. -/
def viWords : List (VWord × VWord × (Nat → Bool → Nat → Nat → Nat × Fl)) :=
  [(Instr.vadd, Instr.vaddVa, fun w _ x y => ((x + y) % 2 ^ w, {})),
   (Instr.vsub, Instr.vsubVa, fun w _ x y => ((x + 2 ^ w - y) % 2 ^ w, {})),
   (Instr.vmul, Instr.vmulVa, fun w _ x y => (x * y % 2 ^ w, {})),
   (Instr.vmulh, Instr.vmulhVa, iMulh),
   (Instr.vmin, Instr.vminVa, fun w sg x y => (if bitsInt w sg x ≤ bitsInt w sg y then x else y, {})),
   (Instr.vmax, Instr.vmaxVa, fun w sg x y => (if bitsInt w sg x ≤ bitsInt w sg y then y else x, {})),
   (Instr.vadds, Instr.vaddsVa, fun w sg x y => satTo w sg (bitsInt w sg x + bitsInt w sg y)),
   (Instr.vsubs, Instr.vsubsVa, fun w sg x y => satTo w sg (bitsInt w sg x - bitsInt w sg y)),
   (Instr.vand, Instr.vandVa, fun _ _ x y => (x &&& y, {})), (Instr.vor, Instr.vorVa, fun _ _ x y => (x ||| y, {})),
   (Instr.vxor, Instr.vxorVa, fun _ _ x y => (x ^^^ y, {})),
   (Instr.vshl, Instr.vshlVa, fun w _ x y => (if w ≤ y then 0 else x * 2 ^ y % 2 ^ w, {})),
   (Instr.vshr, Instr.vshrVa, iShr)]

/-- The lanes that a word reads: a mask register and the stage predicate (R148, R179). -/
def active (m pm : BitVec 256) (j : Nat) : Bool := mbit m j && mbit pm j

/-- A lane word that issues: the active lanes of vd take the function's results, clean; the others and their poison stay; the flags of
the active lanes are set (R148). -/
def laneResult (s : State) (w lat : Nat) (va : Bool) (d : BitVec 6) (p : BitVec 4) (m pm : BitVec 256) (x y z : RowV)
    (f : Nat → Nat → Nat → Nat × Fl) : State :=
  let n := rowCount w
  let r (j : Nat) := f (lane w x.bits (patOf p va j)) (lane w y.bits (patOf p (!va) j)) (lane w z.bits j)
  ((s.vWrite d (mergeRow w n (s.vOld d) (active m pm) (fun j => (r j).1) (fun _ => false)) lat).flagV
    (flagsOf n (active m pm) (fun j => (r j).2))).retire .v

/-- No active lane of the two operands is poisoned. -/
def clean (w : Nat) (va : Bool) (p : BitVec 4) (m pm : BitVec 256) (x y : RowV) : Prop :=
  ∀ j, j < rowCount w → active m pm j = true →
    lanePoison w x (patOf p va j) = false ∧ lanePoison w y (patOf p (!va) j) = false

/-- A word's operand rows and mask. -/
structure VOps (s : State) (a b : BitVec 6) (k : BitVec 3) (vt : BitVec 16) (x y : RowV) (m : BitVec 256) : Prop where
  vt : s.vtNow = .ok vt
  x : s.vRead a 0 = .ok x
  y : s.vRead b 1 = .ok y
  m : s.mVal (k.zeroExtend 4) 0 = .ok m

/-- Conversions with a rounding mode (R165): source and destination width, and the conversion of the element at a position. -/
def cvtVWords : List ((BitVec 6 → BitVec 6 → BitVec 3 → BitVec 4 → BitVec 3 → Instr) × (BitVec 16 → Nat) × (BitVec 16 → Nat) ×
    (State → BitVec 16 → BitVec 3 → Nat → Nat → Nat × Fl)) :=
  [(Instr.vcvtF2n, fun vt => (ftOf vt).1, fun vt => (ntOf vt).1,
     fun s vt r j x => narrow (ntOf vt).2 (s.rmAt r j) false (decodeF (ftOf vt).2 x)),
   (Instr.vcvtF2ns, fun vt => (ftOf vt).1, fun vt => (ntOf vt).1,
     fun s vt r j x => narrow (ntOf vt).2 (s.rmAt r j) true (decodeF (ftOf vt).2 x)),
   (Instr.vcvtN2f, fun vt => (ntOf vt).1, fun vt => (ftOf vt).1,
     fun s vt r j x => narrow (ftOf vt).2 (s.rmAt r j) false (decodeF (ntOf vt).2 x)),
   (Instr.vcvtF2i, fun vt => (ftOf vt).1, fun vt => (itOf vt).1, fun s vt r j x =>
     let q := toIntClamp (s.rmAt r j) (intLo (itOf vt).1 (itOf vt).2) (intHi (itOf vt).1 (itOf vt).2) (decodeF (ftOf vt).2 x)
     (intBits (itOf vt).1 q.1, q.2)),
   (Instr.vcvtI2f, fun vt => (itOf vt).1, fun vt => (ftOf vt).1,
     fun s vt r j x => narrow (ftOf vt).2 (s.rmAt r j) false (Fv.ofInt (bitsInt (itOf vt).1 (itOf vt).2 x)))]

/-- Conversions between integers (R62, R165). -/
def cvtIWords : List ((BitVec 6 → BitVec 6 → BitVec 4 → BitVec 3 → Instr) × (BitVec 16 → Nat) × (BitVec 16 → Nat) ×
    (BitVec 16 → Nat → Nat × Fl)) :=
  [(Instr.vcvtI32n, fun _ => 32, fun vt => (itOf vt).1, fun vt x => (x % 2 ^ (itOf vt).1, {})),
   (Instr.vcvtI32ns, fun _ => 32, fun vt => (itOf vt).1, fun vt x => satTo (itOf vt).1 (itOf vt).2 (bitsInt 32 (itOf vt).2 x)),
   (Instr.vcvtIw32, fun vt => (itOf vt).1, fun _ => 32, fun vt x => (intBits 32 (bitsInt (itOf vt).1 (itOf vt).2 x), {}))]

/-- Into how many parts the wider row of a conversion falls (R164). -/
def parts (ws wd : Nat) : Nat := max (rowCount ws) (rowCount wd) / min (rowCount ws) (rowCount wd)

/-- Position in the source row that feeds destination element `j`, for part `h` (R164). -/
def cvtPos (ws wd : Nat) (h : BitVec 3) (j : Nat) : Nat :=
  if rowCount wd < rowCount ws then h.toNat * rowCount wd + j
  else if rowCount ws < rowCount wd then j - h.toNat * rowCount ws else j

/-- The destination elements that a conversion writes: those of part `h` that the stage predicate selects. -/
def cvtOn (ws wd : Nat) (h : BitVec 3) (pm : BitVec 256) (j : Nat) : Bool :=
  let lo := if rowCount ws < rowCount wd then h.toNat * rowCount ws else 0
  decide (lo ≤ j) && decide (j < lo + min (rowCount ws) (rowCount wd)) && (pm == BitVec.allOnes 256 || mbit pm j)

/-- No source element of a conversion is poisoned. -/
def cvtClean (ws wd : Nat) (p : BitVec 4) (h : BitVec 3) (pm : BitVec 256) (x : RowV) : Prop :=
  ∀ j, j < rowCount wd → cvtOn ws wd h pm j = true → lanePoison ws x (patLane p (cvtPos ws wd h j)) = false

/-- What a conversion leaves: its elements with their flags, and the generator moved on where it draws. -/
def cvtResult (s : State) (ws wd : Nat) (f : Nat → Nat → Nat × Fl) (draws : Bool) (d : BitVec 6) (p : BitVec 4) (h : BitVec 3)
    (pm : BitVec 256) (x : RowV) : State :=
  let g (j : Nat) : Nat × Fl := f (cvtPos ws wd h j) (lane ws x.bits (patLane p (cvtPos ws wd h j)))
  let t := (s.vWrite d (mergeRow wd (rowCount wd) (s.vOld d) (cvtOn ws wd h pm) (fun j => (g j).1) (fun _ => false)) 4).flagV
    (flagsOf (rowCount wd) (cvtOn ws wd h pm) (fun j => (g j).2))
  if draws then t.advance else t

/-- Special functions (R171 to R176). -/
def sfWords : List ((BitVec 6 → BitVec 6 → BitVec 4 → BitVec 3 → Instr) × (Fv → Fv × Fl)) :=
  [(Instr.vsfExp2, sfExp2), (Instr.vsfLog2, sfLog2), (Instr.vsfRcp, sfRcp), (Instr.vsfRsqrt, sfRsqrt), (Instr.vsfTanh, sfTanh),
   (Instr.vsfSigm, sfSigm)]

/-- Reductions (R162): word, operation, identity. -/
def redWords : List ((BitVec 6 → BitVec 6 → BitVec 2 → BitVec 4 → BitVec 3 → Instr) × RedOp) :=
  [(Instr.vredFadd, redFadd), (Instr.vredFmin, redFmin), (Instr.vredFmax, redFmax), (Instr.vredAdd, redAdd), (Instr.vredMin, redMin),
   (Instr.vredMax, redMax), (Instr.vredAnd, redAnd), (Instr.vredOr, redOr), (Instr.vredXor, redXor)]

/-- Everything that a word of V which only writes rows, masks, VT and flags leaves alone. -/
def onlyV (s t : State) : Prop :=
  t = { s with core := { s.core with tiles := t.core.tiles, m := t.core.m, land := t.core.land, epir := t.core.epir, qs := t.core.qs,
                                     qr := t.core.qr, cv := { s.core.cv with pc := t.core.cv.pc, buf := t.core.cv.buf }, res := t.core.res, pc := t.core.pc } } ∧
  t.core.pc = { s.core.pc with loopr := t.core.pc.loopr, vwin := t.core.pc.vwin, vwinOld := t.core.pc.vwinOld, vt := t.core.pc.vt,
                               vtOld := t.core.pc.vtOld, vtAt := t.core.pc.vtAt, fpst := t.core.pc.fpst, fpEv := t.core.pc.fpEv,
                               fpAt := t.core.pc.fpAt, rngcrd := t.core.pc.rngcrd, crdHist := t.core.pc.crdHist,
                               rngOld := t.core.pc.rngOld } ∧
  (∀ a, readByte t.mem a = readByte s.mem a)

end Sys2Proof.Claims

/-- R147, R148, R152, R154: the lane-by-lane words on floating and integer lanes, in both forms of the pattern; vfma and vfma_va add the old
destination lane. -/
def Obligations.VectorLaneWords : Prop :=
  ∀ (s : State) (d a b : BitVec 6) (p : BitVec 4) (k : BitVec 3) (vt : BitVec 16) (x y : RowV) (m pm : BitVec 256),
    Claims.stageOn s pm → Claims.VOps s a b k vt x y m →
    (∀ e ∈ Claims.vfWords, ∀ q ∈ [(e.1, false), (e.2.1, true)], Claims.clean (ftOf vt).1 q.2 p m pm x y →
      exec (q.1 d a b p k) s =
        .next (Claims.laneResult s (ftOf vt).1 4 q.2 d p m pm x y ⟨0, 0⟩ (fun u v _ => e.2.2 (ftOf vt).2 u v))) ∧
    (∀ e ∈ Claims.viWords, ∀ q ∈ [(e.1, false), (e.2.1, true)], Claims.clean (itOf vt).1 q.2 p m pm x y →
      exec (q.1 d a b p k) s =
        .next (Claims.laneResult s (itOf vt).1 2 q.2 d p m pm x y ⟨0, 0⟩ (fun u v _ => e.2.2 (itOf vt).1 (itOf vt).2 u v))) ∧
    (∀ z, s.vRead d 2 = .ok z → ∀ q ∈ [(Instr.vfma, false), (Instr.vfmaVa, true)], Claims.clean (ftOf vt).1 q.2 p m pm x y →
      (∀ j, j < rowCount (ftOf vt).1 → Claims.active m pm j = true → lanePoison (ftOf vt).1 z j = false) →
      exec (q.1 d a b p k) s =
        .next (Claims.laneResult s (ftOf vt).1 4 q.2 d p m pm x y z (flFma (ftOf vt).2)))

/-- R73, R148: an active lane that reads poison stops a floating or integer lane word with Poison Consumed and nothing else. -/
def Sys2Proof.Claims.VectorPoison : Prop :=
  ∀ (s : State) (d a b : BitVec 6) (p : BitVec 4) (k : BitVec 3) (vt : BitVec 16) (x y : RowV) (m pm : BitVec 256) (j : Nat),
    Claims.stageOn s pm → Claims.VOps s a b k vt x y m → Claims.active m pm j = true →
    (∀ e ∈ Claims.vfWords, ∀ q ∈ [(e.1, false), (e.2.1, true)], j < rowCount (ftOf vt).1 →
      lanePoison (ftOf vt).1 x (patOf p q.2 j) = true ∨ lanePoison (ftOf vt).1 y (patOf p (!q.2) j) = true →
      exec (q.1 d a b p k) s = .next (s.takeTrap .v ⟨.poisonConsumed, 0, 0⟩)) ∧
    (∀ e ∈ Claims.viWords, ∀ q ∈ [(e.1, false), (e.2.1, true)], j < rowCount (itOf vt).1 →
      lanePoison (itOf vt).1 x (patOf p q.2 j) = true ∨ lanePoison (itOf vt).1 y (patOf p (!q.2) j) = true →
      exec (q.1 d a b p k) s = .next (s.takeTrap .v ⟨.poisonConsumed, 0, 0⟩))

/-- R15, R153, R155: compares write the result of every active lane into the mask and keep its other bits. -/
def Obligations.VectorCompares : Prop :=
  ∀ (s : State) (c : BitVec 2) (md : BitVec 4) (a b : BitVec 6) (p : BitVec 4) (k : BitVec 3) (vt : BitVec 16) (x y : RowV)
    (m pm : BitVec 256), Claims.stageOn s pm → Claims.VOps s a b k vt x y m →
    let mask (w : Nat) (va : Bool) (f : Nat → Nat → Bool × Fl) : BitVec 256 := maskOf ((List.range 256).map (fun j =>
      if j < rowCount w && Claims.active m pm j then (f (lane w x.bits (patOf p va j)) (lane w y.bits (patOf p (!va) j))).1
      else mbit (s.core.m[md.toNat]'(md.isLt)).v j))
    let fl (w : Nat) (va : Bool) (f : Nat → Nat → Bool × Fl) : Fl := flagsOf (rowCount w) (Claims.active m pm)
      (fun j => (f (lane w x.bits (patOf p va j)) (lane w y.bits (patOf p (!va) j))).2)
    (∀ q ∈ [(Instr.vfcmp, false), (Instr.vfcmpVa, true)], Claims.clean (ftOf vt).1 q.2 p m pm x y →
      exec (q.1 c md a b p k) s = .next (((s.putM md (mask (ftOf vt).1 q.2 (flCond (ftOf vt).2 c)) 4).flagV
        (fl (ftOf vt).1 q.2 (flCond (ftOf vt).2 c))).retire .v)) ∧
    (∀ q ∈ [(Instr.vcmp, false), (Instr.vcmpVa, true)], Claims.clean (itOf vt).1 q.2 p m pm x y →
      exec (q.1 c md a b p k) s = .next (((s.putM md (mask (itOf vt).1 q.2 (iCond (itOf vt).1 (itOf vt).2 c)) 2).flagV
        (fl (itOf vt).1 q.2 (iCond (itOf vt).1 (itOf vt).2 c))).retire .v))

/-- R156 to R158: VSEL takes every lane from va where the mask is set and from vb elsewhere, with its poison; VMOV copies the active lanes with
their poison; VCLMUL and VCLMULH multiply pairs of 32-bit lanes without carries. -/
def Obligations.VectorMovesAndProducts : Prop :=
  ∀ (s : State) (d a b : BitVec 6) (p : BitVec 4) (k : BitVec 3) (vt : BitVec 16) (x y : RowV) (m pm : BitVec 256),
    Claims.stageOn s pm → Claims.VOps s a b k vt x y m →
    (∀ q ∈ [(Instr.vsel, false), (Instr.vselVa, true)],
      exec (q.1 d a b p k) s = .next ((s.vWrite d (mergeRow (itOf vt).1 (rowCount (itOf vt).1) (s.vOld d) (mbit pm)
        (fun j => if mbit m j then lane (itOf vt).1 x.bits (patOf p q.2 j) else lane (itOf vt).1 y.bits (patOf p (!q.2) j))
        (fun j => if mbit m j then lanePoison (itOf vt).1 x (patOf p q.2 j) else lanePoison (itOf vt).1 y (patOf p (!q.2) j)))
        2).retire .v)) ∧
    (exec (.vmov d a p k) s = .next ((s.vWrite d (mergeRow (itOf vt).1 (rowCount (itOf vt).1) (s.vOld d) (Claims.active m pm)
        (fun j => lane (itOf vt).1 x.bits (patLane p j)) (fun j => lanePoison (itOf vt).1 x (patLane p j))) 2).retire .v)) ∧
    (∀ q ∈ [(Instr.vclmul, false, false), (Instr.vclmulVa, false, true), (Instr.vclmulh, true, false), (Instr.vclmulhVa, true, true)],
      (∀ j, j < 64 → lanePoison 32 x j = false ∧ lanePoison 32 y j = false) → (∀ j, j < 64 → patLane p j < 64) →
      exec (q.1 d a b p) s = .next ((s.vWrite d (mergeRow 32 64 (s.vOld d) (mbit pm) (fun j =>
        let pair (r : BitVec 2048) (on : Bool) := lane 32 r (patOf p on (2 * (j / 2))) + 2 ^ 32 * lane 32 r (patOf p on (2 * (j / 2) + 1))
        let z := clmulNat (pair x.bits q.2.2) (pair y.bits (!q.2.2))
        (if q.2.1 then z / 2 ^ 64 else z) / 2 ^ (32 * (j % 2)) % 2 ^ 32) (fun _ => false)) 2).retire .v))

/-- R18, R151, R159: the mask words and VSETT; a write of m0 changes nothing. -/
def Sys2Proof.Claims.MaskWords : Prop :=
  ∀ (s : State) (pm : BitVec 256) (d a b : BitVec 4), Claims.stageOn s pm →
    (∀ x y, s.mVal a 0 = .ok x → s.mVal b 1 = .ok y →
      ∀ e ∈ [(Instr.vmand d a b, x &&& y), (Instr.vmor d a b, x ||| y), (Instr.vmxor d a b, x ^^^ y), (Instr.vmandn d a b, x &&& ~~~y)],
        exec e.1 s = .next ((s.putM d e.2 2).retire .v)) ∧
    (∀ x y, s.mVal a 0 = .ok x → s.mVal a 1 = .ok y →
      exec (.vmnot d a) s = .next ((s.putM d (~~~x) 2).retire .v) ∧ exec (.vmmov d a) s = .next ((s.putM d x 2).retire .v)) ∧
    (∀ n : BitVec 12, exec (.vmfirst d n) s = .next ((s.putM d (BitVec.ofNat 256 (2 ^ n.toNat - 1)) 2).retire .v)) ∧
    (∀ t : BitVec 16, exec (.vsett t) s =
      .next ((s.setPiece { s.core.pc with vt := t, vtOld := s.core.pc.vt, vtAt := s.cyc + 1 }).retire .v)) ∧
    (∀ v, s.putM 0 v 2 = s)

/-- R160, R161: VPOP takes a row from q6 or an entry from q2 or q4, repeated across the row; VPUSH sends a row to q7 or its first eight bytes
to q3 or q5. -/
def Sys2Proof.Claims.VectorQueueWords : Prop :=
  ∀ (s : State) (pm : BitVec 256) (d a : BitVec 6) (p : BitVec 4) (k : BitVec 3) (vt : BitVec 16) (m : BitVec 256),
    Claims.stageOn s pm → s.vtNow = .ok vt → s.mVal (k.zeroExtend 4) 0 = .ok m →
    let w := (itOf vt).1
    (∀ r, s.peekRows 6 1 = .ok [r] →
      exec (.vpop d 6 k) s = .next (((s.popRows 6 1).vWrite d (mergeRow w (rowCount w) (s.vOld d) (Claims.active m pm)
        (fun j => lane w r.bits j) (lanePoison w r)) 2).retire .v)) ∧
    (∀ (q : BitVec 6) (e : PV), q ≠ 6 → s.peek q.toNat 1 = .ok [e] →
      exec (.vpop d q k) s = .next (((s.popN q.toNat 1).vWrite d (mergeRow w (rowCount w) (s.vOld d) (Claims.active m pm)
        (fun j => e.v.toNat / 2 ^ (w * j % 64) % 2 ^ w) (fun _ => e.p)) 2).retire .v)) ∧
    (∀ x, s.vRead a 0 = .ok x →
      let r := mergeRow w (rowCount w) ⟨0, 0⟩ (fun _ => true) (fun j => lane w x.bits (patLane p j)) (fun j => lanePoison w x (patLane p j))
      (s.roomRow 7 = .ok () → exec (.vpush 7 a p) s = .next ((s.pushRow 7 r).retire .v)) ∧
      (∀ q : BitVec 6, q ≠ 7 → s.room q.toNat = .ok () → exec (.vpush q a p) s =
        .next ((s.pushQ q.toNat ⟨BitVec.ofNat 64 (r.bits.toNat % 2 ^ 64), r.p.toNat % 4 != 0⟩).retire .v)))

/-- R162, R163: a reduction of the whole row goes to lane 0; of each 32 elements to the first lane of its group; the running forms write every
active lane. An inactive lane counts as the identity. -/
def Obligations.VectorReductions : Prop :=
  ∀ (s : State) (pm : BitVec 256) (d a : BitVec 6) (p : BitVec 4) (k : BitVec 3) (vt : BitVec 16) (x : RowV) (m : BitVec 256),
    Claims.stageOn s pm → s.vtNow = .ok vt → s.vRead a 0 = .ok x → s.mVal (k.zeroExtend 4) 0 = .ok m →
    ∀ e ∈ Claims.redWords,
      let w := if e.2.fl then (ftOf vt).1 else (itOf vt).1
      let n := rowCount w
      let xs := (List.range n).map (fun j => if Claims.active m pm j then lane w x.bits (patLane p j) else e.2.ident vt)
      let f := e.2.op vt
      (∀ j, j < n → Claims.active m pm j = true → lanePoison w x (patLane p j) = false) →
      exec (e.1 d a 0 p k) s = .next (((s.vWrite d (mergeRow w n (s.vOld d) (fun j => j == 0)
        (fun _ => (tree f (Nat.log2 n) xs).1) (fun _ => false)) 8).flagV (tree f (Nat.log2 n) xs).2).retire .v) ∧
      exec (e.1 d a 1 p k) s = .next (((s.vWrite d (mergeRow w n (s.vOld d) (fun j => j % 32 == 0)
        (fun j => (((List.range (n / 32)).map (fun b => tree f 5 ((xs.drop (32 * b)).take 32))).getD (j / 32) (0, {})).1)
        (fun _ => false)) 8).flagV
        (((List.range (n / 32)).map (fun b => tree f 5 ((xs.drop (32 * b)).take 32))).foldl (fun acc z => acc.or z.2) {})).retire .v) ∧
      exec (e.1 d a 2 p k) s = .next (((s.vWrite d (mergeRow w n (s.vOld d) (Claims.active m pm)
        (fun j => (xs.headD 0 :: (scanL f false (xs.headD 0) (xs.drop 1)).1).getD j 0) (fun _ => false)) 8).flagV
        (scanL f false (xs.headD 0) (xs.drop 1)).2).retire .v) ∧
      exec (e.1 d a 3 p k) s = .next (((s.vWrite d (mergeRow w n (s.vOld d) (Claims.active m pm)
        (fun j => (scanL f true (e.2.ident vt) xs).1.getD j 0) (fun _ => false)) 8).flagV
        (scanL f true (e.2.ident vt) xs).2).retire .v)

/-- R60 to R62, R164, R165, R171: conversions and special functions. A conversion between formats of different widths works on the half or
quarter that `h` names, and a part that does not exist is an Illegal Word; stochastic rounding draws and advances the generator. -/
def Obligations.VectorConversions : Prop :=
  ∀ (s : State) (pm : BitVec 256) (d a : BitVec 6) (r : BitVec 3) (p : BitVec 4) (h k : BitVec 3) (vt : BitVec 16) (x : RowV),
    Claims.stageOn s pm → s.vtNow = .ok vt → s.vRead a 0 = .ok x →
    (∀ e ∈ Claims.cvtVWords,
      (Claims.parts (e.2.1 vt) (e.2.2.1 vt) ≤ h.toNat →
        exec (e.1 d a r p h) s = .next (s.takeTrap .v ⟨.illegalWord, 0, s.core.cv.iw.zeroExtend 64⟩)) ∧
      (h.toNat < Claims.parts (e.2.1 vt) (e.2.2.1 vt) → Claims.cvtClean (e.2.1 vt) (e.2.2.1 vt) p h pm x →
        exec (e.1 d a r p h) s = .next ((Claims.cvtResult s (e.2.1 vt) (e.2.2.1 vt) (e.2.2.2 s vt r) (r == 4) d p h pm x).retire .v))) ∧
    (∀ e ∈ Claims.cvtIWords,
      (Claims.parts (e.2.1 vt) (e.2.2.1 vt) ≤ h.toNat →
        exec (e.1 d a p h) s = .next (s.takeTrap .v ⟨.illegalWord, 0, s.core.cv.iw.zeroExtend 64⟩)) ∧
      (h.toNat < Claims.parts (e.2.1 vt) (e.2.2.1 vt) → Claims.cvtClean (e.2.1 vt) (e.2.2.1 vt) p h pm x →
        exec (e.1 d a p h) s = .next ((Claims.cvtResult s (e.2.1 vt) (e.2.2.1 vt) (fun _ => e.2.2.2 vt) false d p h pm x).retire .v))) ∧
    (∀ m, s.mVal (k.zeroExtend 4) 0 = .ok m → ∀ e ∈ Claims.sfWords,
      let w := (ftOf vt).1
      let g (j : Nat) : Nat × Fl := sfLane e.2 (ftOf vt).2 (lane w x.bits (patLane p j))
      (∀ j, j < rowCount w → Claims.active m pm j = true → lanePoison w x (patLane p j) = false) →
      exec (e.1 d a p k) s = .next (((s.vWrite d (mergeRow w (rowCount w) (s.vOld d) (Claims.active m pm) (fun j => (g j).1)
        (fun _ => false)) 10).flagV (flagsOf (rowCount w) (Claims.active m pm) (fun j => (g j).2))).retire .v))

/-- R166, R167: VRNG writes the draw of each element, at coordinate CRD + j STR, to the active lanes, and then CRD advances. -/
def Obligations.VectorRandom : Prop :=
  ∀ (s : State) (pm : BitVec 256) (d : BitVec 6) (k : BitVec 3) (vt : BitVec 16) (m : BitVec 256),
    Claims.stageOn s pm → s.vtNow = .ok vt → s.mVal (k.zeroExtend 4) 0 = .ok m →
    let w := (itOf vt).1
    exec (.vrng d k) s = .next (((s.vWrite d (mergeRow w (rowCount w) (s.vOld d) (Claims.active m pm)
      (fun j => (s.draw j).toNat % 2 ^ w) (fun _ => false)) 6).advance).retire .v) ∧
    (s.core.pc.rngOld = [] → ∀ j, s.draw j = kerfDraw (s.ctx s.core.pc.ctx).rngseed (s.ctx s.core.pc.ctx).step.k
        (s.core.pc.rngtid.truncate 32) ((s.core.pc.rngcrd.toNat + j * s.core.pc.rngstr.toNat) % 2 ^ 64)) ∧
    (s.core.pc.rngOld = [] → s.advance.core.pc.rngcrd = s.core.pc.rngcrd + s.core.pc.rngadv)

/-- R177 to R181: LOOPR. Loop Fault while one is active or for a stage map that does not fit; a count of zero leaves the body out and drops the
two operands; any other sets the loop up with the first stage predicate all ones. In the body of a loop a stage predicate of
all zeros leaves it without effect (R179). -/
def Sys2Proof.Claims.LooprWord : Prop :=
  ∀ (s : State) (src : BitVec 2) (rst : Bool) (g : BitVec 3) (o : BitVec 19),
    (∀ pm, s.stagePred = .ok pm → pm ≠ some 0 → s.core.pc.loopr.isSome →
      exec (.loopr src rst g o) s = .next (s.takeTrap .v ⟨.loopFault, 0, 0⟩)) ∧
    (s.stagePred = .ok (some 0) → exec (.loopr src rst g o) s = .next (s.retire .v)) ∧
    (∀ es, s.core.pc.loopr = none → s.peek (if src = 0 then 4 else 2) (if g = 0 then 1 else 2) = .ok es →
      (es.any PV.p = true → exec (.loopr src rst g o) s = .next (s.takeTrap .v ⟨.poisonConsumed, 0, 0⟩)) ∧
      (es.any PV.p = false →
        let map : W64 := if g = 0 then 0 else ((es.drop 1).headD ⟨0, false⟩).v
        let n := (es.headD ⟨0, false⟩).v.toNat
        let ok := map.toNat % 2 ≠ 1 ∧ map.toNat / 2 ^ (o.toNat - 1) = 0 ∧ popNat map.toNat 64 = g.toNat
        (¬ ok → exec (.loopr src rst g o) s = .next (s.takeTrap .v ⟨.loopFault, 0, 0⟩)) ∧
        (ok → ∃ t, exec (.loopr src rst g o) s = .next t ∧ t.core.res = .issued ∧ t.mem = s.mem ∧ t.core.cv.buf = [] ∧
          (n = 0 → t.core.pc.loopr = none ∧ t.core.cv.pc = s.target .v o) ∧
          (n ≠ 0 → t.core.pc.loopr = some ⟨n + g.toNat, 0, n, map, s.core.cv.pc + 4, s.target .v o⟩ ∧
            t.core.cv.pc = s.core.cv.pc + 4 ∧ (t.core.m[8]).v = BitVec.allOnes 256 ∧ (t.core.m[9]).v = 0))))

/-- R178: at the last word of a LOOPR body an iteration ends: the stage predicates move up by one, the first receiving ones while iterations
are left to start (one still in flight moves as an undefined value, R38), and the window rotates; after the last, V goes on behind the
body. -/
def Sys2Proof.Claims.LooprIteration : Prop :=
  ∀ (s : State) (l : LoopR), s.core.pc.loopr = some l → s.core.cv.pc = l.e - 4 → s.core.pc.vwinAt = 0 →
    let t := s.retire .v
    t.core.pc.loopr = (if l.left = 1 then none else some { l with kk := l.kk + 1, left := l.left - 1 }) ∧
    t.core.cv.pc = (if l.left = 1 then l.e else l.b) ∧
    (t.core.m[8]).v = (if l.kk + 1 < l.cnt then BitVec.allOnes 256 else 0) ∧
    (∀ i : Fin 7, (s.core.m[8 + i.val]).rdy ≤ s.cyc + 1 → (t.core.m[9 + i.val]).v = (s.core.m[8 + i.val]).v) ∧
    (∀ i : Fin 8, (t.core.m[8 + i.val]).rdy = s.cyc + 1) ∧
    (∀ i : Fin 8, t.core.m[i.val] = s.core.m[i.val]) ∧
    t.core.pc.vwin = withRb s.core.pc.vwin ((rbOf s.core.pc.vwin + 15) % 16)

/-- R179: under a stage predicate of all zeros a lane, mask or queue word of V, and a LOOPR, issues and changes nothing, unless it is illegal or reads too
early. -/
def Sys2Proof.Claims.StageGating : Prop :=
  ∀ (s : State) (d a b : BitVec 6) (p : BitVec 4) (k : BitVec 3) (q : BitVec 6) (vt : BitVec 16) (x y : RowV) (m : BitVec 256),
    s.stagePred = .ok (some 0) → Claims.VOps s a b k vt x y m →
    (∀ e ∈ Claims.vfWords, exec (e.1 d a b p k) s = .next (s.retire .v) ∧ exec (e.2.1 d a b p k) s = .next (s.retire .v)) ∧
    (∀ e ∈ Claims.viWords, exec (e.1 d a b p k) s = .next (s.retire .v) ∧ exec (e.2.1 d a b p k) s = .next (s.retire .v)) ∧
    exec (.vmov d a p k) s = .next (s.retire .v) ∧ exec (.vpop d q k) s = .next (s.retire .v) ∧
    exec (.vpush q a p) s = .next (s.retire .v) ∧ exec (.vrng d k) s = .next (s.retire .v) ∧
    ∀ (src : BitVec 2) (rst : Bool) (g : BitVec 3) (o : BitVec 19), exec (.loopr src rst g o) s = .next (s.retire .v)

/-- R182: the branches of V; BQT and BQF pop one outcome of V's queue. -/
def Sys2Proof.Claims.VectorBranches : Prop :=
  ∀ (s : State) (o : BitVec 19),
    exec (.vBr o) s = .next (s.jump .v (s.target .v o)) ∧
    (∀ e : PV, s.peek 11 1 = .ok [e] →
      exec (.vBqt o) s = .next (Claims.goes (s.popN 11 1) .v (e.v != 0) (s.target .v o)) ∧
      exec (.vBqf o) s = .next (Claims.goes (s.popN 11 1) .v (e.v == 0) (s.target .v o)))

/-- A word of V that issues changes rows, masks, queues, VT, the window, the generator's coordinate and the flags of V at most: no
register of another cluster, no control register of a context, no byte of memory. -/
def Sys2Proof.Claims.VectorFrame : Prop :=
  ∀ (i : Instr) (s t : State), i.cl = some .v → i ≠ .vEnd → exec i s = .next t → t.core.res = .issued → Claims.onlyV s t

namespace Sys2Proof.Claims
open Sys2Proof.Machine

/-! ## Words of M, engine words -/

/-- What REP leaves to a repeatable word (R224): the selected index registers moved by one, then the end of the word. -/
def repeated (s : State) (ia ib : BitVec 3) : State := (s.repInc ia ib).retire .m

/-- The tile is free for a word of M that writes it (R210, R220, R228). -/
abbrev tileFree (s : State) (t : BitVec 2) : Prop := s.heldM t = false ∧ s.heldE t = false

/-- The format word at the front of fq (R213). -/
def frontFmt (es : List (Ent PV)) : Nat := (es.map (fun e => e.v.v.toNat % 2 ^ 32)).headD 0

/-- The stamp behind it: its value and the cycle of its push (R222). -/
def frontStamp (es : List (Ent PV)) : Int :=
  let e := ((es.map (fun e => (e.v.v.toNat % 2 ^ 32, e.res))).drop 1).headD (0, 0)
  stampOf e.1 e.2

/-- The scale slots that an MMAS reads (R214, R223). -/
def scaleSlots (o : MJob) : List (BitVec 4) := if o.a.sm = 0 then [] else [o.a.ss, o.b.ss]

/-- The words of M that REP may not repeat (R224), with any operands. -/
noncomputable def unrepeatable (i j k : BitVec 3) (v : BitVec 16) (t u : BitVec 2) (b a : Bool) (n : BitVec 12) (o : BitVec 19) : List Instr :=
  [.iset i v, .mIadd i v, .rep b a n, .shape i j k, .shapeOff, .tzero t, .tmov t u, .mBr o, .mBfol o, .mBqt o, .mBqf o, .mLoop i o,
   .mEnd]

end Sys2Proof.Claims

/-- R208, R209, R216, R236: the index words, CLAMP, FREE and SHAPE. CLAMP and FREE change the in-use bit of the effective slot at the
end of cycle c + 2; SHAPE sets MGRANT and writes the grants back in order. -/
def Sys2Proof.Claims.MatrixIndexWords : Prop :=
  ∀ (s : State) (i j k : BitVec 3) (v : BitVec 16) (n : BitVec 4),
    (∀ x, s.iVal i 1 = .ok x →
      exec (.clamp n i) s = .next (Claims.repeated
        (s.setCore { s.core with usePend := s.core.usePend ++ [(s.cyc + 3, n + x.truncate 4, true)] }) i 0) ∧
      exec (.free n i) s = .next (Claims.repeated
        (s.setCore { s.core with usePend := s.core.usePend ++ [(s.cyc + 3, n + x.truncate 4, false)] }) i 0) ∧
      (s.core.pc.rep = none → exec (.mIadd i v) s = .next ((s.putI i (x + v)).retire .m)) ∧
      (∀ y z, s.core.pc.rep = none → s.iVal j 2 = .ok y → s.iVal k 3 = .ok z →
        let m := grantOf 8 64 x.toNat
        let n := grantOf 8 64 y.toNat
        let d := grantOf 32 512 z.toNat
        exec (.shape i j k) s = .next (((((s.setPiece { s.core.pc with
          mgrant := BitVec.ofNat 64 (2 ^ 24 + d * 2 ^ 14 + n * 2 ^ 7 + m) }).putI i (BitVec.ofNat 16 m)).putI j
            (BitVec.ofNat 16 n)).putI k (BitVec.ofNat 16 d)).retire .m))) ∧
    (s.core.pc.rep = none →
      exec (.iset i v) s = .next ((s.putI i v).retire .m) ∧
      exec .shapeOff s = .next ((s.setPiece { s.core.pc with mgrant := 0 }).retire .m))

/-- R236: the grants of SHAPE: 0 for 0, else the request rounded up to whole units of 8 or 32 and limited to 64 or 512. -/
def Sys2Proof.Claims.ShapeGrants : Prop :=
  ∀ v : Nat, grantOf 8 64 v ≤ 64 ∧ grantOf 32 512 v ≤ 512 ∧ 8 ∣ grantOf 8 64 v ∧ 32 ∣ grantOf 32 512 v ∧
    (grantOf 8 64 v = 0 ↔ v = 0) ∧ (grantOf 32 512 v = 0 ↔ v = 0) ∧
    (v ≤ 64 → v ≤ grantOf 8 64 v ∧ grantOf 8 64 v < v + 8) ∧ (v ≤ 512 → v ≤ grantOf 32 512 v ∧ grantOf 32 512 v < v + 32) ∧
    (64 < v → grantOf 8 64 v = 64) ∧ (512 < v → grantOf 32 512 v = 512)

/-- R238: the branches of M outside a repetition; BQT and BQF pop one outcome of M's queue. -/
def Sys2Proof.Claims.MatrixBranches : Prop :=
  ∀ (s : State) (o : BitVec 19), s.core.pc.rep = none →
    exec (.mBr o) s = .next (s.jump .m (s.target .m o)) ∧
    (∀ e : PV, s.peek 12 1 = .ok [e] →
      exec (.mBqt o) s = .next (Claims.goes (s.popN 12 1) .m (e.v != 0) (s.target .m o)) ∧
      exec (.mBqf o) s = .next (Claims.goes (s.popN 12 1) .m (e.v == 0) (s.target .m o)))

/-- R224, R225: REP sets the repetition; a word that may not be repeated is an Illegal Word and the repetition is discarded; the
last word of a LOOP body may not be REP; each repetition but the last leaves the cursor at the word, the last moves on. -/
def Sys2Proof.Claims.RepWord : Prop :=
  ∀ (s : State) (b a : Bool) (n : BitVec 12),
    (∀ l, s.core.pc.rep = none → s.core.pc.mloop = some l → s.core.cm.pc = l.e - 4 →
      exec (.rep b a n) s = .next (s.takeTrap .m ⟨.loopFault, 0, 0⟩)) ∧
    (s.core.pc.rep = none → (∀ l, s.core.pc.mloop = some l → s.core.cm.pc ≠ l.e - 4) →
      ∃ t, exec (.rep b a n) s = .next t ∧ t.core.res = .issued ∧ t.core.cm.pc = s.core.cm.pc + 4 ∧
        t.core.pc = { s.core.pc with rep := some ⟨n.toNat + 1, a, b, true⟩ }) ∧
    (∀ i j k v t u c d m o, s.core.pc.rep ≠ none → ∀ w ∈ Claims.unrepeatable i j k v t u c d m o,
      exec w s = .next ((s.setPiece { s.core.pc with rep := none }).takeTrap .m
        ⟨.illegalWord, 0, s.core.cm.iw.zeroExtend 64⟩)) ∧
    (∀ r, s.core.pc.rep = some r → r.n > 1 →
      (s.retire .m).core.pc = { s.core.pc with rep := some { r with n := r.n - 1, first := false } } ∧
      (s.retire .m).core.cm = s.core.cm) ∧
    (∀ r, s.core.pc.rep = some r → r.n ≤ 1 → s.core.pc.mloop = none →
      (s.retire .m).core.pc = { s.core.pc with rep := none } ∧ (s.retire .m).core.cm.pc = s.core.cm.pc + 4)

/-- R234, R210: TZERO and TMOV wait for the tiles; TZERO clears every row and its poison, TMOV copies rows with their poison bits; they
hold the tiles for 16 and 32 cycles, against V two cycles more for a tile that is written. -/
def Sys2Proof.Claims.TileWords : Prop :=
  ∀ (s : State) (t u : BitVec 2), s.core.pc.rep = none →
    (¬Claims.tileFree s t → exec (.tzero t) s = .next (s.stalled false 0)) ∧
    (Claims.tileFree s t → exec (.tzero t) s =
      .next (((s.fillTile t (fun _ => ⟨0, 0⟩)).holdTile t 16 18).retire .m)) ∧
    (¬(Claims.tileFree s t ∧ Claims.tileFree s u) → exec (.tmov t u) s = .next (s.stalled false 0)) ∧
    (Claims.tileFree s t → Claims.tileFree s u → exec (.tmov t u) s =
      .next ((((if t = u then s else s.fillTile t (fun r => s.mRow u r s.cyc)).holdTile t 32 34).holdTile u 32 32).retire .m)) ∧
    (∀ f : Nat → RowV, ∀ r : Nat, r < 256 →
      (s.fillTile t f).core.row r = if r / 64 = t.toNat then ⟨(f (r % 64)).bits, (f (r % 64)).p, 0⟩ else s.core.row r)

/-- R210, R217 to R223: MMA waits for the array and its tile, then takes its format word; MMAS issues exactly in its stamp's cycle and
raises Schedule Miss later or while a resource is busy or an operand is on its way. A check that fails traps and pops nothing. -/
def Sys2Proof.Claims.MatrixProducts : Prop :=
  ∀ (s : State) (t : BitVec 2) (a b : BitVec 4) (i j : BitVec 3) (z : Bool) (oa ob : BitVec 4),
    s.effSlot a i = .ok oa → s.effSlot b j = .ok ob →
    let idle := s.core.array ≤ s.cyc ∧ Claims.tileFree s t
    (¬idle → exec (.mma t a b i j z) s = .next (s.stalled false 0)) ∧
    (idle → s.peekFmt 1 = raise .formatUnderflow →
      exec (.mma t a b i j z) s = .next (s.takeTrap .m ⟨.formatUnderflow, 0, 0⟩)) ∧
    (∀ es x, idle → s.peekFmt 1 = .ok es → s.mmaChecks t oa ob z (Claims.frontFmt es) = .error (.trap x) →
      exec (.mma t a b i j z) s = .next (s.takeTrap .m x)) ∧
    (∀ es o, idle → s.peekFmt 1 = .ok es → s.mmaChecks t oa ob z (Claims.frontFmt es) = .ok o →
      exec (.mma t a b i j z) s = .next (Claims.repeated ((s.popN 8 1).mmaRun t z o) i j)) ∧
    (∀ es, s.peekFmt 2 = .ok es →
      let st := Claims.frontStamp es
      ((s.cyc : Int) < st → exec (.mmas t a b i j z) s = .next (s.stalled false 0)) ∧
      (st < s.cyc → exec (.mmas t a b i j z) s = .next (s.takeTrap .m ⟨.scheduleMiss, 0, w64 st⟩)) ∧
      (∀ o, st = s.cyc → s.mmaChecks t oa ob z (Claims.frontFmt es) = .ok o →
        exec (.mmas t a b i j z) s =
          .next (if s.cyc < s.core.array ∨ ¬Claims.tileFree s t ∨ (oa :: ob :: Claims.scaleSlots o).any s.pendingInto
            then s.takeTrap .m ⟨.scheduleMiss, 0, w64 st⟩
            else Claims.repeated ((s.popN 8 2).mmaRun t z o) i j)))

/-- R222: the stamp's cycle is the one value congruent to the stamp modulo 2^32 within 2^31 cycles of the push. -/
def Sys2Proof.Claims.StampCycle : Prop :=
  ∀ (sg p : Nat), (p : Int) - 2 ^ 31 ≤ stampOf sg p ∧ stampOf sg p < (p : Int) + 2 ^ 31 ∧
    (stampOf sg p - (sg : Int)) % 2 ^ 32 = 0

/-- R67, R69, R219: what MMA leaves in a tile: the rows in range take the sums, in columns in range; every other element of every tile
is kept, and memory and the other registers are unchanged. -/
def Sys2Proof.Claims.ProductRows : Prop :=
  ∀ (s : State) (t : BitVec 2) (z : Bool) (o : MJob), o.mr ≤ 64 →
    let u := s.mmaRun t z o
    (∀ r, r < 256 → r / 64 ≠ t.toNat ∨ o.mr ≤ r % 64 → u.core.row r = s.core.row r) ∧
    (∀ i j, i < o.mr → j < 64 →
      lane 32 (u.core.row (t.toNat * 64 + i)).bits j =
        if j < o.nr then (o.elem s.core (if z then 0 else lane 32 (s.mRow t i s.cyc).bits j) i j).1 % 2 ^ 32
        else lane 32 (s.core.row (t.toNat * 64 + i)).bits j) ∧
    u.core.array = s.cyc + o.l ∧ u.mem = s.mem ∧ u.core.slot = s.core.slot ∧ u.core.pc = s.core.pc ∧ u.core.g = s.core.g

/-- R226 to R233: EPI, EPIR and XPOSE. Each waits for its unit and its tile, makes its checks and then queues its output: EPI and XPOSE
to be seen 66 cycles later, EPIR as rows that are read as they leave, on the route as it stood, which then advances. A grant narrows EPI to its rows and columns, and
EPIR to its rows, which stay whole (R237). -/
def Obligations.EpilogueWords : Prop :=
  ∀ (s : State) (t n : BitVec 2) (b : BitVec 4) (j : BitVec 3) (tr ge : Bool) (g : BitVec 6) (ob : BitVec 4), s.effSlot b j = .ok ob →
    (s.epiBusy = true ∨ s.heldM t = true →
      exec (.epi t b j tr ge g) s = .next (s.stalled false 0) ∧ exec (.epir t n tr ge g) s = .next (s.stalled false 0)) ∧
    (∀ x, s.epiBusy = false → s.heldM t = false →
      (s.epiChecks t (s.core.pc.epiShape tr).2.2 = .error (.trap x) → exec (.epi t b j tr ge g) s = .next (s.takeTrap .m x)) ∧
      (s.epiChecks t (s.core.pc.epirShape tr).2.2 = .error (.trap x) → exec (.epir t n tr ge g) s = .next (s.takeTrap .m x))) ∧
    (∀ o, s.epiBusy = false → s.heldM t = false → s.epiChecks t (s.core.pc.epiShape tr).2.2 = .ok o →
      let sh := s.core.pc.epiShape tr
      ∃ u, exec (.epi t b j tr ge g) s = .next (Claims.repeated u 0 j) ∧ u.core.epiUnit = s.cyc + 64 ∧
        (u.core.q 8).ents = (s.core.q 8).ents.drop 1 ∧ u.mem = s.mem ∧ u.core.slot = s.core.slot ∧
        ∃ l, u.core.land = s.core.land ++ [l] ∧ l.epi = true ∧ l.at_ = s.cyc + 66 ∧ l.slot = ob ∧ l.tile = t ∧
          l.nr = sh.1 ∧ l.ne = sh.2.1 ∧ l.data = (s.epiRows t tr o sh).1.flatten ∧
          l.shp = ⟨true, o.of_, BitVec.ofNat 7 l.nr, BitVec.ofNat 10 l.ne⟩ ∧ l.gauge = if ge then some g else none) ∧
    (∀ o, s.epiBusy = false → s.heldM t = false → s.epiChecks t (s.core.pc.epirShape tr).2.2 = .ok o →
      let sh := s.core.pc.epirShape tr
      let r := s.core.routeOf n.toNat
      let len := cdiv (sh.2.1 * fmtBits o.of_) 8
      let out := fun q => decide (r.rowAddr q < r.lo) || decide (r.hi < r.rowAddr q + len)
      (r.val = false → exec (.epir t n tr ge g) s = .next (s.takeTrap .m ⟨.routeInvalid, n.zeroExtend 16, 0⟩)) ∧
      (∀ q, r.val = true → (List.range sh.1).find? out = some q →
        exec (.epir t n tr ge g) s = .next (s.takeTrap .m ⟨.capabilityFault, 4, BitVec.ofNat 64 (r.rowAddr q)⟩)) ∧
      (r.val = true → (List.range sh.1).find? out = none →
        ∃ u, exec (.epir t n tr ge g) s = .next (Claims.repeated u 0 0) ∧ u.core.epiUnit = s.cyc + 64 ∧
          (u.core.q 8).ents = (s.core.q 8).ents.drop 1 ∧ u.mem = s.mem ∧
          u.core.routeOf n.toNat = { r with addr := r.addr + r.adv.signExtend 57, seq := r.seq + 1 } ∧
          ∃ e, u.core.epir = s.core.epir ++ [e] ∧ e.rt = r ∧ e.tile = t ∧ e.start = s.cyc ∧
            e.tr = tr ∧ e.job = o ∧ e.ne = sh.2.1 ∧ e.rows = [] ∧ e.left = List.range sh.1 ∧ e.gauge = if ge then some g else none)) ∧
    (∀ m n' k, s.core.pc.grant = some (m, n', k) →
      s.core.pc.epiShape false = (m, n', m) ∧ s.core.pc.epiShape true = (n', m, m) ∧
      (s.core.pc.epirShape false).1 = m ∧ (s.core.pc.epirShape true).1 = n' ∧ ∀ b, (s.core.pc.epirShape b).2.1 = 64) ∧
    (∀ (a : BitVec 4) (i : BitVec 3) (oa : BitVec 4), s.effSlot a i = .ok oa →
      let r := s.core.shapeOf oa.toNat
      let ok := r.val = true ∧ r.rows ≠ 0 ∧ r.klen.toNat ≤ 64 ∧ fmtBits r.fmt ∈ [8, 16, 32]
      (s.cyc < s.core.permute → exec (.xpose a b i j) s = .next (s.stalled false 0)) ∧
      (s.core.permute ≤ s.cyc → ¬ok →
        exec (.xpose a b i j) s = .next (s.takeTrap .m ⟨.shapeMismatch, oa.zeroExtend 16, 0⟩)) ∧
      (s.core.permute ≤ s.cyc → ok → ∃ u l, exec (.xpose a b i j) s = .next (Claims.repeated u i j) ∧
        u = s.setCore { s.core with permute := s.cyc + 64, land := s.core.land ++ [l] } ∧
        l.epi = false ∧ l.at_ = s.cyc + 66 ∧ l.slot = ob ∧
        l.shp = ⟨true, r.fmt, BitVec.ofNat 7 r.klen.toNat, BitVec.ofNat 10 r.rows.toNat⟩))

/-- R146, R241 to R248: ENG decodes both engine words, checks the a registers and the stack, and then both take effect in order; a
launch word behind an open FENCE.C waits. -/
def Sys2Proof.Claims.EngineWords : Prop :=
  ∀ (s : State) (sel : BitVec 3) (w0 w1 : BitVec 16),
    (sel = 7 → exec (.eng sel w0 w1) s = .next (s.takeTrap .a ⟨.illegalWord, 0, s.core.ca.iw.zeroExtend 64⟩)) ∧
    (∀ e, engOf sel = some e →
      (decodeEW e w0 = none → exec (.eng sel w0 w1) s =
        .next (s.takeTrap .a ⟨.illegalWord, 0, BitVec.ofNat 64 (s.core.ca.iw2.toNat + 2 ^ 32)⟩)) ∧
      (∀ x, decodeEW e w0 = some x → decodeEW e w1 = none → exec (.eng sel w0 w1) s =
        .next (s.takeTrap .a ⟨.illegalWord, 0, BitVec.ofNat 64 (s.core.ca.iw2.toNat + 2 ^ 32 + 2 ^ 33)⟩)) ∧
      (∀ x y, decodeEW e w0 = some x → decodeEW e w1 = some y →
        s.capWord x = .ok () → s.capWord y = .ok () →
        (depthCheck e [x, y] (s.core.stack e).length (s.core.armed e).isSome = stackFault e →
          exec (.eng sel w0 w1) s = .next (s.takeTrap .a ⟨.engineStackFault, BitVec.ofNat 16 (engIdx e), 0⟩)) ∧
        (depthCheck e [x, y] (s.core.stack e).length (s.core.armed e).isSome = .ok () →
          (x.isLaunch = true ∨ y.isLaunch = true → s.fenceOpen = true → exec (.eng sel w0 w1) s = .next (s.stalled false 0)) ∧
          (∀ u v, (x.isLaunch = true ∨ y.isLaunch = true → s.fenceOpen = false) → s.engWord e x = .ok u → u.engWord e y = .ok v →
            exec (.eng sel w0 w1) s = .next ((v.noteDepths s.core.depths).retire .a 8)))))

/-- R243 to R246: what the stack words do: literals, copies and exchanges of the entries on top. -/
def Sys2Proof.Claims.EngineStackWords : Prop :=
  ∀ (s : State) (e : Eng) (x y : StkEnt) (r : List StkEnt) (v : W64) (n : BitVec 4), s.core.stack e = x :: y :: r →
    let put := fun l => (.ok (s.setCore (s.core.setStack e l)) : Chk State)
    s.engWord e .nop = .ok s ∧ s.engWord e .drop = put (y :: r) ∧ s.engWord e .dup = put (x :: x :: y :: r) ∧
    s.engWord e .swap = put (y :: x :: r) ∧ s.engWord e .over = put (y :: x :: y :: r) ∧
    s.engWord e (.lit v) = put (⟨v, .plain⟩ :: x :: y :: r) ∧ s.engWord e (.slot n) = put (⟨n.zeroExtend 64, .slot⟩ :: x :: y :: r) ∧
    (x.attr = .plain → s.engWord e (.litx v) = put (⟨BitVec.ofNat 64 (x.v.toNat * 4096) + v, .plain⟩ :: y :: r)) ∧
    (x.attr ≠ .plain → s.engWord e (.litx v) = .error (.trap ⟨.engineOperandFault, BitVec.ofNat 16 (engIdx e), 0⟩)) ∧
    (x.attr = .plain → x.v.toNat < 16 → s.engWord e .slotv = put (⟨x.v, .slot⟩ :: y :: r)) ∧
    (x.attr = .plain → 16 ≤ x.v.toNat →
      s.engWord e .slotv = .error (.trap ⟨.engineOperandFault, BitVec.ofNat 16 (engIdx e), 0⟩)) ∧
    (∀ a c, s.aVal a 1 = .ok c → s.engWord e (.cap a) = put (⟨curOf c, .cap c⟩ :: x :: y :: r))

namespace Sys2Proof.Claims
open Sys2Proof.Machine

/-! ## Writes as events -/

/-- The events that are a CSRW of the core in focus: the event, the register, the value (03 R86, 17 R407, 19 R452, 20 R462, 21 R486,
21 R497). -/
noncomputable def csrEvents (b : Bool) (n : BitVec 4) (v : W64) : List (Instr × Nat) :=
  [(.lcWrite v, 0x001), (.molagMoicurWrite b v, if b then 0x3A4 else 0x3A3), (.dwloadWrite v, 0x50C),
   (.collgrpWrite n v, 0x520 + n.toNat), (.glucfgWrite b v, if b then 0x563 else 0x560),
   (.scrcfgWrite b v, if b then 0x5D3 else 0x5D0), (.scrhWrite v, 0x5D2)]

/-- The core in focus in the state `s`, changed. -/
def onCore (s : State) (f : Core → Core) : State := s.setCore (f s.core)

/-- The first copy of the engine that waits in its queue (R198). -/
def nextCopy (s : State) (e : Eng) : Option Op := (s.core.engineQueue e).find? Op.isCopy

/-- A copy may start (R198, R200): its cycle has come, the copy before it has its chunks behind it, and pq has room for a promise. -/
def copyMayStart (s : State) (e : Eng) (o : Op) : Bool :=
  let prev := Map.get (0, 0) s.core.lastCopy (engIdx e)
  !(s.core.halt == .freeze) && decide (o.c ≤ s.cyc) && decide (prev.1 + prev.2 ≤ s.cyc) &&
  !(!o.geo.inCluster && !o.stop && s.core.ownsOp o && !s.core.pqRoom s.cyc)

/-- A copy of MS that answers with a promise waits for the end of the cycle while one of ML may yet start in it, which goes first: one that may
start, or one that A still issues (R200). -/
def mlFirst (s : State) (q : MemQ) : Prop :=
  q = .ms ∧ (∃ o, nextCopy s .ms = some o ∧ copyMayStart s .ms o = true ∧ o.geo.inCluster = false ∧ o.stop = false ∧
      s.core.ownsOp o = true) ∧
    ((∃ o, nextCopy s .ml = some o ∧ copyMayStart s .ml o = true) ∨ s.core.ca.act = true ∧ s.core.ca.start ≤ s.cyc)

/-- The next chunk of an in-cluster copy of a queue is due. -/
def chunkDue (s : State) (q : MemQ) (x : Copy) : Bool :=
  x.incl && x.op.eng == engOfQ q && decide (x.start + 25 + x.seen ≤ s.cyc) && !s.core.stalledBefore x

/-- An access of SRAM performs when its bank serves its core: within a cycle in ascending index (11 R306). -/
def inTurn (s : State) (a : Acc) (t : State) : State :=
  match a.loc with
  | .sram o => s.inBankTurn o (fun _ => t)
  | _ => t

/-- A barrier's round has moved on since the arrival. -/
def roundOver (s : State) (w : BarWait) : BarWait :=
  if (s.barrier (s.barKey w.sc w.n)).round = w.round then w else { w with done := true }

end Sys2Proof.Claims

/-- R92: a write of a control register as an event has the effect of a CSRW; one that may not be made, or that would stall or trap,
changes nothing. A gauge takes its value 2 cycles later in a cluster and 20 on the device (R311). -/
def Sys2Proof.Claims.RegisterWriteEvents : Prop :=
  ∀ (s : State) (b : Bool) (n : BitVec 4) (v : W64), ∀ e ∈ Claims.csrEvents b n v,
    (s.csrMay e.2 true = false → exec e.1 s = .next s) ∧
    (∀ x, s.csrPut e.2 (v &&& csrMask e.2) = .error x → exec e.1 s = .next s) ∧
    (∀ t, s.csrMay e.2 true = true → s.csrPut e.2 (v &&& csrMask e.2) = .ok t →
      exec e.1 s = .next (t.setPiece { t.core.pc with csrRdy := Map.set 0 t.core.pc.csrRdy e.2 (s.cyc + 3) })) ∧
    ∀ (dev : Bool) (g : BitVec 8) (w : BitVec 32), s.k < 384 → dev = true ∨ g.toNat < 64 →
      let key := if dev then 65536 + g.toNat else s.clu * 64 + g.toNat
      let num := if dev then 0x200 + g.toNat else 0x140 + g.toNat
      exec (.gaugeWrite dev g w) s = .next
        (let l := Map.get [] s.shr.gaugeWr key ++ [⟨s.cyc + (if dev then 20 else 2), 0, w, false⟩]
         let t := s.setShr { s.shr with gaugeWr := Map.set [] s.shr.gaugeWr key l }
         t.setPiece { t.core.pc with csrRdy := Map.set 0 t.core.pc.csrRdy num (s.cyc + 3) })

/-- R407, R452, R462, R486, R497: what a write of these registers does: inside a step MOLAG and MOICUR are dry, COLLGRP, GLUCFG, FILLB,
SCRCFG and SCRR raise Step State; a step that is open holds GLUCFG, FILLB, SCRCFG and SCRR up; a group in use holds COLLGRP up, a load in
progress holds DWLOAD up; SCRH takes only values from H to W. -/
def Sys2Proof.Claims.SystemRegistersWritten : Prop :=
  ∀ (s : State) (v : W64) (n : Nat), n < 16 →
    let c := s.core.pc.ctx
    let g := s.gctx c
    let stepRegs := [0x560, 0x563, 0x5D0, 0x5D3]
    (s.core.pc.stepIn = true →
      s.csrPut 0x3A3 v = .ok (s.setMo { s.pkg.mo with dryLag := some v }) ∧
      (s.pkg.mo.icurOk (v.truncate 32) = true →
        s.csrPut 0x3A4 v = .ok (s.setMo { s.pkg.mo with dryIcur := some (v.truncate 32) })) ∧
      (∀ r ∈ (0x520 + n) :: stepRegs, s.csrPut r v = .error (.trap ⟨.stepState, 0, 0⟩))) ∧
    (s.core.pc.stepIn = false →
      s.csrPut 0x3A3 v = .ok (s.setMo { s.pkg.mo with lag := v }) ∧
      (s.pkg.mo.icurOk (v.truncate 32) = true → s.csrPut 0x3A4 v = .ok (s.setMo { s.pkg.mo with icur := v.truncate 32 })) ∧
      (s.stepBusy = true → ∀ r ∈ stepRegs, s.csrPut r v = .error .wait) ∧
      (s.stepBusy = false →
        s.csrPut 0x563 v = .ok (s.setGctx c { g with fillb := v }) ∧
        s.csrPut 0x5D3 v = .ok (s.setGctx c { g with scrr := v }) ∧
        s.csrPut 0x560 v = .ok (s.setGctx c { g with glucfg := v, heard := [], heardFrom := s.cyc, kaAt := s.cyc }) ∧
        ∃ h w, s.csrPut 0x5D0 v = .ok (s.setGctx c { g with scrcfg := v, scrw := w, scrh := h }) ∧
          (v = g.scrcfg → h = g.scrh ∧ w = g.scrw)) ∧
      (s.fab.colls.any (fun x => x.ctx == c && pbGrp x.blk == n) = true → s.csrPut (0x520 + n) v = .error .wait) ∧
      (s.fab.colls.any (fun x => x.ctx == c && pbGrp x.blk == n) = false →
        s.csrPut (0x520 + n) v = .ok (s.setGctx c { g with grp := Map.set 0 g.grp n v, nseq := Map.set 0 g.nseq n 0 }))) ∧
    (g.hload.isSome → s.csrPut 0x50C v = .error .wait) ∧
    (g.hload = none → ∃ l, s.csrPut 0x50C v = .ok (s.setGctx c { g with dwload := v, hload := some l }) ∧ l.n = bitsOf v 0 6 + 1) ∧
    (g.scrh.toNat ≤ v.toNat ∧ v.toNat ≤ g.scrw.toNat → s.csrPut 0x5D2 v = .ok (s.setGctx c { g with scrh := v })) ∧
    (v.toNat < g.scrh.toNat ∨ g.scrw.toNat < v.toNat → s.csrPut 0x5D2 v = .ok s)

/-- R198, R200, R254: COPY_START: nothing while the first copy of the queue may not start, or while one of MS waits for the end of the cycle
behind ML; else it leaves the queue, the engine counts it, and it is under way, unless its handle is wrong, or it moves nothing. -/
def Sys2Proof.Claims.CopyStarts : Prop :=
  ∀ (s : State) (q : MemQ), let e := engOfQ q
    (Claims.nextCopy s e = none → exec (.copyStart q) s = .next s) ∧
    (∀ o, Claims.nextCopy s e = some o → Claims.copyMayStart s e o = false → exec (.copyStart q) s = .next s) ∧
    (Claims.mlFirst s q → exec (.copyStart q) s = .next s) ∧
    (∀ o, Claims.nextCopy s e = some o → Claims.copyMayStart s e o = true → o.geo.inCluster = true →
      ∃ t, exec (.copyStart q) s = .next t ∧ t.mem = s.mem ∧ t.core.q 9 = s.core.q 9 ∧
        t.core.engineQueue e = (s.core.engineQueue e).filter (fun x => x.id != o.id) ∧
        Map.get (0, 0) t.core.lastCopy (engIdx e) = (s.cyc, o.geo.chunks) ∧
        (o.geo.h = none → ∃ x, t.core.copies = s.core.copies ++ [x] ∧ x.op = o ∧ x.geo = o.geo ∧ x.start = s.cyc ∧ x.incl = true))

/-- R198, R201: COPY_CHUNK_SEEN: the first in-cluster copy of the queue whose next chunk is due at its start + 25 + the chunks seen lands
that chunk, unless a copy before it is stalled. PROMISE_MISS marks every promise whose cycle has ended, and reports it to the piece that issued the copy. -/
def Sys2Proof.Claims.CopyChunks : Prop :=
  ∀ (s : State) (q : MemQ),
    (∀ x, s.core.copies.find? (Claims.chunkDue s q) = some x →
      exec (.copyChunkSeen q) s = .next (s.seeChunk x x.seen)) ∧
    (s.core.copies.find? (Claims.chunkDue s q) = none →
      exec (.copyChunkSeen q) s = .next s) ∧
    (∀ x, s.core.copies = [x] → x.op.eng = engOfQ q → x.missed = false → x.incl = false →
      (s.cyc ≤ x.promise → exec (.promiseMiss q) s = .next s) ∧
      (x.promise < s.cyc → ∃ t, exec (.promiseMiss q) s = .next t ∧ t.core.copies = [{ x with missed := true }] ∧ t.mem = s.mem ∧
        (s.core.ownsOp x.op = true → t.core.pc.reports = s.core.pc.reports ++
          [⟨⟨.promiseMiss, BitVec.ofNat 16 (engIdx x.op.eng), BitVec.ofNat 64 x.promise⟩, s.core.pc.stepIn⟩]) ∧
        (s.core.ownsOp x.op = false → t.core.pc.reports = s.core.pc.reports)))

/-- R200, R255, R282, R365: PROMISE_SECTOR_PERFORM performs a unit of a promise copy that is under way and whose turn in its line has come;
a finished unit, one of another order, or one behind a stalled copy of its queue changes nothing. Before the first unit of a copy into a slot
the whole source is checked. -/
def Sys2Proof.Claims.PromiseSectors : Prop :=
  ∀ (s : State) (id sec : Nat),
    (s.core.copies.find? (fun x => x.op.id == id) = none → exec (.promiseSectorPerform id sec) s = .next s) ∧
    (∀ x, s.core.copies.find? (fun x => x.op.id == id) = some x →
      (s.core.halt = .freeze ∨ x.incl = true ∨ sec ∈ x.done ∨ sec ∈ x.acks ∨ x.inOrder sec = false ∨
        s.core.stalledBefore x = true → exec (.promiseSectorPerform id sec) s = .next s) ∧
      (s.core.halt ≠ .freeze → x.incl = false → sec ∉ x.done → sec ∉ x.acks → x.inOrder sec = true →
        s.core.stalledBefore x = false →
        exec (.promiseSectorPerform id sec) s = .next (if x.unchecked then s.checkSource x sec else s.unitRun x sec)))

/-- R259, R281, R365: GATHER_ROW_LAND tries the sectors of a row that has yet to land, each in its order; nothing happens to a row outside
the operation or already over, on a frozen core, or behind a stalled operation of the queue. A sector of a scatter follows every row before it, one
of a gather the sectors of its line before it. -/
def Sys2Proof.Claims.GatherRows : Prop :=
  ∀ (s : State) (id row : Nat),
    (s.core.ga.find? (fun x => x.op.id == id) = none → exec (.gatherRowLand id row) s = .next s) ∧
    (∀ x, s.core.ga.find? (fun x => x.op.id == id) = some x →
      (x.op.gaGeo.rows ≤ row ∨ row ∈ x.rows ∨ s.core.halt = .freeze ∨ s.core.gaBehind x = true →
        exec (.gatherRowLand id row) s = .next s) ∧
      (row < x.op.gaGeo.rows → row ∉ x.rows → s.core.halt ≠ .freeze → s.core.gaBehind x = false →
        exec (.gatherRowLand id row) s = .next ((((s.gaIndices x).2).unitsOfRow row).foldl (fun t u => t.gaTry id u)
          ((((s.gaIndices x).2).setIn (s.gaIndices x).1).gaSettle (s.gaIndices x).2)))) ∧
    (∀ (x : GaRun) (u v : Nat), s.core.ga.find? (fun x => x.op.id == id) = some x → v < u → v ∉ x.done → (x.plan v).isSome = true →
      (x.op.gaGeo.gat = false ∧ v ∉ x.acks ∨ x.op.gaGeo.gat = true ∧
        (x.op.gaGeo.near / 32 + v) / 4 = (x.op.gaGeo.near / 32 + u) / 4) → s.gaTry id u = s)

/-- R250, R259, R264: ENGINE_TAKES_OPERATION: nothing from an empty queue or on a frozen core; a gather or scatter begins with no row
landed; `glveto` sets flags of the attempt that is open; `glnote` of it waits for the decision, and one of a committed attempt adds 1
at once; an operation of MO waits for those that go before it in the cycle (17 R401). -/
def Sys2Proof.Claims.EngineTakes : Prop :=
  ∀ (s : State) (e : Eng),
    (s.core.headOp e = none ∨ s.core.halt = .freeze → exec (.engineTakesOperation e) s = .next s) ∧
    (∀ o, s.core.headOp e = some o → s.core.halt ≠ .freeze →
      let u := s.setCore (s.core.takeOp o)
      let r := s.ctx o.ctx
      let now := r.step.open_ = true ∧ r.step.t = o.att
      let c := nb o.word.toNat 9 1 = 1
      (o.eng = .ga → exec (.engineTakesOperation e) s = .next (s.setCore { (s.core.takeOp o) with
        ga := s.core.ga ++ [GaRun.start o] }) ∧ (GaRun.start o).rows = [] ∧ (GaRun.start o).done = []) ∧
      (o.eng = .gl → nb o.word.toNat 10 2 = 0 → exec (.engineTakesOperation e) s =
        .next (if r.step.open_ = true then u.veto o.ctx (BitVec.ofNat 5 o.word.toNat) else u)) ∧
      (o.eng = .gl → nb o.word.toNat 10 2 ≠ 0 →
        (now → exec (.engineTakesOperation e) s =
          .next (u.setStep o.ctx { r.step with notes := r.step.notes ++ [(noteKey o, nb o.word.toNat 9 1 == 1)] })) ∧
        (¬now → exec (.engineTakesOperation e) s =
          .next (if c ∧ (Map.get none r.dead o.att.toNat).isSome then u else u.addGaugeAt (noteKey o) 1))) ∧
      (o.eng = .vc → exec (.engineTakesOperation e) s = .next (s.takeVc o)) ∧
      (o.eng = .mo → exec (.engineTakesOperation e) s = .next (if s.moWaits s.k o then s else (s.takeMo o).leaves o)) ∧
      (o.eng = .dv → exec (.engineTakesOperation e) s = .next ((s.takeDv o).leaves o)))

/-- R264, R267, R268, R313, R465: GADD_APPLY adds once every earlier operation of the queue has completed; STOP_FIRE puts the operation of a
stop that has become true into its engine's queue, in the cycle and the attempt of the firing; a note keeps the attempt of its issue, and
the engine finds the block of a `coll` as it stands at the firing. -/
def Sys2Proof.Claims.GaddAndStops : Prop :=
  ∀ (s : State) (e : Eng) (dev : Bool) (n : BitVec 6),
    ((s.core.engineQueue e).find? Op.isGadd = none → exec (.gaddApply e) s = .next s) ∧
    (∀ o, (s.core.engineQueue e).find? Op.isGadd = some o →
      (s.earlierOpen e o.id = true ∨ s.core.halt = .freeze → exec (.gaddApply e) s = .next s) ∧
      (s.earlierOpen e o.id = false → s.core.halt ≠ .freeze → exec (.gaddApply e) s = .next ((s.setCore (s.core.takeOp o)).addGauge
        ⟨nb o.word.toNat 8 1 == 1, BitVec.ofNat 8 o.word.toNat⟩ ((o.args.headD ⟨0, .plain⟩).v.toNat % 2 ^ 32)))) ∧
    (let key := s.stopKey dev n.toNat
     ((s.stop key).fired = [] → exec (.stopFire dev n) s = .next s) ∧
     (∀ d o rest, (s.stop key).fired = (d, o) :: rest → o.core = s.k → (s.gctx o.ctx).scrcfg = 0 →
       (∀ x ∈ s.shr.stops, x.1 ≠ key → x.2.fired = []) →
       let now := if o.eng = .gl ∧ nb o.word.toNat 10 2 ≠ 0 then o
         else { o with att := (s.ctx o.ctx).step.t, stepOpen := (s.ctx o.ctx).step.open_ }
       ∃ t x, exec (.stopFire dev n) s = .next t ∧ (t.stop key).fired = rest ∧ t.mem = s.mem ∧
         t.core.engineQueue o.eng = s.core.engineQueue o.eng ++ [x] ∧ x = { now with c := s.cyc, id := s.nextId, blk := x.blk } ∧
         (o.word.toNat / 256 ≠ 0x70 → x.blk = o.blk)))

/-- R219, R220: MMA_COMPLETE sets the flags of the MMA when its hold on the tile has passed, not before. -/
def Sys2Proof.Claims.ProductFlags : Prop :=
  ∀ (s : State) (t : BitVec 2),
    ∃ u, exec (.mmaComplete t) s = .next u ∧ u.mem = s.mem ∧ u.core.tiles = s.core.tiles ∧
      (s.cyc < (s.core.holdOf t.toNat).mFrom → u = s) ∧
      ((s.core.holdOf t.toNat).mFrom ≤ s.cyc → u.core.pc.fpst = s.core.pc.fpst ||| (s.core.holdOf t.toNat).fl ∧
        (u.core.holdOf t.toNat).fl = 0)

/-- R203, R204, R229, R233: the output of an EPI or XPOSE that is due becomes seen whole, with its record, or is discarded whole with a
Landing Conflict where the slot is in use; before it is due nothing changes. -/
def Sys2Proof.Claims.OutputsSeen : Prop :=
  ∀ s : State, ∀ e ∈ [(Instr.epiOutputSeen, true), (Instr.xposeOutputSeen, false)],
    let due := fun l : Landing => l.epi == e.2 && decide (l.at_ ≤ s.cyc)
    (s.core.land.find? due = none → exec e.1 s = .next s) ∧
    (∀ l, s.core.land.find? due = some l → ∃ t, exec e.1 s = .next t ∧
      t.core.land = s.core.land.filter (fun x => x != l) ∧ t.mem = s.mem ∧
      (s.slotUsed l.slot = true → t.core.slot = s.core.slot ∧ t.core.shape = s.core.shape ∧
        (s.core.pc.run = true → t.core.pc.reports = s.core.pc.reports ++ [⟨⟨.landingConflict, 0, slotAddr l.slot.toNat 0⟩, s.core.pc.stepIn⟩])) ∧
      (s.slotUsed l.slot = false → t.core.shapeOf l.slot.toNat = l.shp ∧
        t.core.slot = (s.core.putSlot l.slot.toNat 0 (l.bytes s)).slot ∧ t.core.pc.reports = s.core.pc.reports))

/-- R228, R231, R232: EPIR_ROW_PERFORM sends the lowest row left, not before the epilogue has read it; an EPIR with no row left, one that
sends none among them, is settled once the tile would have been read. -/
def Sys2Proof.Claims.EpilogueRows : Prop :=
  ∀ (s : State) (id : Nat),
    (s.core.epir.find? (fun x => x.id == id) = none → exec (.epirRowPerform id) s = .next s) ∧
    (∀ x, s.core.epir.find? (fun x => x.id == id) = some x →
      (x.left = [] → exec (.epirRowPerform id) s = .next (if s.cyc < x.start + 63 then s else s.settleEpir x)) ∧
      (∀ r l, x.left = r :: l →
        (s.cyc < x.start + (if x.tr then 63 else r) → exec (.epirRowPerform id) s = .next s) ∧
        (x.start + (if x.tr then 63 else r) ≤ s.cyc → exec (.epirRowPerform id) s = .next (s.epirRow x r))))

/-- R196, R281: TRANSLATION_WALK_COMPLETE makes the pages that hold the oldest walk's address known (that walks return in their order is the
model's choice, log entry 77); TRANSLATION_STALL_TIMEOUT
reports Translation Fault for a copy that has been stalled for 2^20 cycles, and nothing earlier; a copy whose source was still being checked
writes nothing (R282). -/
def Sys2Proof.Claims.TranslationEvents : Prop :=
  ∀ (s : State) (e : Eng),
    (s.walks = [] → exec .translationWalkComplete s = .next s) ∧
    (∀ c va r, s.walks = (c, va) :: r → ∃ t, exec .translationWalkComplete s = .next t ∧ t.walks = r ∧ t.mem = s.mem ∧
      (t.ctx c).pages = (s.ctx c).pages.map (fun p => if p.va ≤ va ∧ va < p.va + 2 ^ p.sz then { p with walked := true } else p)) ∧
    (let late := fun x : Copy => x.op.eng == e && x.stall.any (fun p => decide (p.2 + 2 ^ 20 ≤ s.cyc))
     (∀ x u d, s.core.copies.find? late = some x → x.stall = some (u, d) →
       exec (.translationStallTimeout e) s =
         .next (if x.unchecked then s.loseCopy x ⟨.translationFault, 0, x.stallAddr s u⟩
           else s.unitStop x u (.trap ⟨.translationFault, 0, x.stallAddr s u⟩))) ∧
     (s.core.copies.all (fun x => x.stall.isNone) = true → s.core.ga.all (fun x => x.stall.isNone) = true →
       exec (.translationStallTimeout e) s = .next s))

/-- R442: a remote access without an answer for 2^22 cycles is counted, its request is forgotten, and whoever asked gets zeros with
poison and Access Fault; earlier nothing happens. -/
def Sys2Proof.Claims.RemoteTimeout : Prop :=
  ∀ (s : State) (rid : Nat),
    (Map.get none s.fab.req rid = none → exec (.remoteAccessTimeout rid) s = .next s) ∧
    (∀ r, Map.get none s.fab.req rid = some r →
      (s.cyc < r.sent + 2 ^ 22 → exec (.remoteAccessTimeout rid) s = .next s) ∧
      (r.sent + 2 ^ 22 ≤ s.cyc → exec (.remoteAccessTimeout rid) s = .next
        (((s.setFab { s.fab with tout := s.fab.tout + 1 }).dropReq rid).dispatchAnswer r (List.replicate r.n 0) [true]
          (some ⟨.accessFault, 0, BitVec.ofNat 64 r.addr⟩))))

/-- R99, R185, R272, R276, R323, R350: a barrier whose round has moved on releases the piece; a deadlock of 2^20 cycles traps at the first active
cluster; a pending report is taken by S (neither while the piece is being stopped, R284; and no deadlock once the context has been
terminated); Watchdog is reported, once, for a piece that has been on its core for its limit. -/
def Sys2Proof.Claims.PieceEvents : Prop :=
  ∀ s : State,
    exec .barrierComplete s = .next (s.setPiece { s.core.pc with
      bar := s.core.pc.bar.map (Claims.roundOver s), barH := s.core.pc.barH.map (Claims.roundOver s) }) ∧
    (∀ k, s.core.firstActive = some k →
      (s.core.halt = .none → s.endsNow = false → s.core.allStalled = true → s.core.pc.stallFrom + 2 ^ 20 ≤ s.cyc →
        exec .queueDeadlock s =
          .next (s.takeTrap k ⟨.queueDeadlock, (Map.get 0 s.core.pc.stallCode (clCode k)).zeroExtend 16, 0⟩)) ∧
      (s.core.halt ≠ .none ∨ s.endsNow = true ∨ s.core.allStalled = false ∨ s.cyc < s.core.pc.stallFrom + 2 ^ 20 →
        exec .queueDeadlock s = .next s)) ∧
    (s.core.pc.reports = [] ∨ s.core.halt ≠ .none → exec .reportedTrapTaken s = .next s) ∧
    (∀ r, s.core.pc.reports = [r] → s.core.halt = .none → s.core.pc.run = true → s.core.pc.handler = false → s.core.cs.act = true →
      r.trap.cause.recoverable = true → exec .reportedTrapTaken s =
        .next ((s.setPiece { s.core.pc with reports := [] }).takeTrap .s r.trap true r.ins)) ∧
    (∀ r, s.core.pc.reports = [r] → s.core.pc.handler = true → r.trap.cause.recoverable = true →
      r.trap.cause ≠ .contextTerminated → exec .reportedTrapTaken s = .next s) ∧
    (∀ l, s.launch s.core.pc.li = some l →
      let told := ∃ r ∈ s.core.pc.reports, r.trap.cause = .watchdog
      (s.core.pc.run = true → l.lr.wdog ≠ 0 → l.lr.wdog ≤ s.core.pc.onCore → ¬told →
        exec .watchdog s = .next (s.setPiece { s.core.pc with
          reports := s.core.pc.reports ++ [⟨⟨.watchdog, 0, 0⟩, s.core.pc.stepIn⟩] })) ∧
      (s.core.pc.run = false ∨ l.lr.wdog = 0 ∨ s.core.pc.onCore < l.lr.wdog ∨ told → exec .watchdog s = .next s))

/-- R91, R342: EARLY_REACHED counts a piece as early once the writes it issued before EARLY have performed; with EM the last of them
adds the DONE of its launch. -/
def Sys2Proof.Claims.EarlyPoint : Prop :=
  ∀ (s : State) (li q : Nat) (l : Launch), s.launch li = some l →
    (l.earlyWait.find? (fun e => e.1 == q) = none → exec (.earlyReached li q) s = .next s) ∧
    (∀ e, l.earlyWait.find? (fun e => e.1 == q) = some e →
      (s.writesBefore e.2.1 li e.2.2 = true → exec (.earlyReached li q) s = .next s) ∧
      (s.writesBefore e.2.1 li e.2.2 = false →
        let l' := { l with earlyWait := l.earlyWait.erase e, early := l.early + 1 }
        exec (.earlyReached li q) s = .next
          (if bitsOf l.lr.w3 63 1 = 1 ∧ l.early + 1 = l.lr.count ∧ l.doneAdded = false
            then (s.setLaunch li (some { l' with doneAdded := true })).addDone l' else s.setLaunch li (some l'))))

/-- R194: CORE_SCRATCH_SWITCH_END waits for the accesses issued before the write of L1CFG; then the new value is in force, and the
bytes that change hands read as zero. -/
def Sys2Proof.Claims.CoreScratchSwitch : Prop :=
  ∀ s : State,
    (s.core.pc.l1pend = none → exec .coreScratchSwitchEnd s = .next s) ∧
    (∀ v n, s.core.pc.l1pend = some (v, n) →
      (s.core.openBefore n = true → exec .coreScratchSwitchEnd s = .next s) ∧
      (s.core.openBefore n = false → ∃ t, exec .coreScratchSwitchEnd s = .next t ∧ t.core.pc.l1cfg = v ∧ t.core.pc.l1pend = none ∧
        (∀ a, scrKey s.k (min (s.core.pc.l1cfg.toNat * 32768) (v.toNat * 32768)) ≤ a →
          a < scrKey s.k (max (s.core.pc.l1cfg.toNat * 32768) (v.toNat * 32768)) → readByte t.mem a = 0) ∧
        (∀ a, a < scrKey s.k (min (s.core.pc.l1cfg.toNat * 32768) (v.toNat * 32768)) ∨
            scrKey s.k (max (s.core.pc.l1cfg.toNat * 32768) (v.toNat * 32768)) ≤ a → readByte t.mem a = readByte s.mem a)))

/-- R502: a core that fails is no more; its piece ends as faulted, and without a spare left in the cluster the logical core is dead; else
the spare takes its index (R297). -/
def Sys2Proof.Claims.CoreFails : Prop :=
  ∀ s : State, ∃ t, exec .coreFailure s = .next t ∧ t.core.failed = true ∧ t.core.pc.run = false ∧
    t.core.halt = (if s.spareUsed s.clu then .dead else .none) ∧
    (s.spareUsed s.clu = false → Map.get 0 t.pkg.phys s.k = s.sparePhys s.clu) ∧
    (∀ l, s.core.pc.run = true → s.launch s.core.pc.li = some l →
      ∃ l', t.launch s.core.pc.li = some l' ∧ l'.state = .frozen ∧ l'.ended = l.ended + 1)

/-- R125, R357, R358: ACCESS_PERFORMED: nothing for an access that is over, on its way to another device, or still kept back by its
order; a store writes its bytes and is over; a scalar load or a load of a capability delivers what memory, or a store before it, holds and is
over. Accesses of a bank in one
cycle go in the order of their cores (R306).  A remote access leaves, unless stores before it cover what it loads (R195). -/
def Sys2Proof.Claims.AccessesPerform : Prop :=
  ∀ (s : State) (n : Nat),
    (s.core.pend.find? (fun a => a.id == n) = none → exec (.accessPerformed n) s = .next s) ∧
    (∀ a, s.core.pend.find? (fun a => a.id == n) = some a →
      (a.isFence = true ∨ a.rid.isSome ∨ s.inDowel s.k a.id = true → exec (.accessPerformed n) s = .next s) ∧
      (a.isFence = false → a.rid = none → s.inDowel s.k a.id = false → (∀ pa, a.loc = .hbm pa → s.remote pa = false) →
        (∀ bs p, a.op = .store bs p →
          exec (.accessPerformed n) s =
            .next (Claims.inTurn s a (if s.mayPerform a then (s.storeLocal a 0 bs p).dropAcc a.id else s))) ∧
        (∀ c p, a.op = .storeCap c p →
          exec (.accessPerformed n) s =
            .next (Claims.inTurn s a (if s.mayPerform a then (s.storeCapLocal a c p).dropAcc a.id else s))) ∧
        (∀ d lc, a.op = .loadCap d lc → s.mayPerform a = true → a.was = [] →
          exec (.accessPerformed n) s = .next (Claims.inTurn s a
            (((s.fillFor a).loadedCap d (s.readCap (s.accKey a) lc).1 (s.readCap (s.accKey a) lc).2).dropAcc a.id))) ∧
        (∀ d lc bs bad, a.op = .loadCap d lc → s.mayPerform a = false → s.forwarded a 0 16 = some (bs, bad) →
          exec (.accessPerformed n) s = .next (Claims.inTurn s a ((s.loadedCap d
            ⟨lc && !bad && s.forwardTag (accBefore s.core.pend a.id) (s.accPos a), BitVec.ofNat 128 (natLE bs)⟩ bad).dropAcc a.id))) ∧
        (∀ q id sx bs bad, a.op = .load q id sx → s.loadNow a 0 a.n = some (bs, bad) →
          exec (.accessPerformed n) s = .next (Claims.inTurn s a (((s.fillFor a).deliver a bs [bad]).dropAcc a.id))))) ∧
    (∀ a pa, s.core.pend.find? (fun a => a.id == n) = some a → a.isFence = false → a.rid = none → s.inDowel s.k a.id = false →
      a.loc = .hbm pa → s.remote pa = true →
      (a.reads = false → exec (.accessPerformed n) s = .next (if s.mayPerform a then s.leave a pa else s)) ∧
      (∀ q id sx, a.op = .load q id sx → exec (.accessPerformed n) s = .next (match s.forwarded a 0 a.n with
        | some (bs, bad) => (s.deliver a bs [bad]).dropAcc a.id
        | none => if s.mayPerform a then s.leave a pa else s)))

/-- R299 to R302: a bank switch begins when none runs in the bank, its BANKSET's cycle is over and none ended in this cycle; one to the
bank's own mode, or of a retired bank, has no effect. It lasts 32 cycles, 2048 more for a bank that is to be cleared, 4 more for each dirty
sector that leaves a cache bank, at most 16,384 of them. It ends once no access waits in the bank, and then the bank holds nothing. -/
def Sys2Proof.Claims.BankSwitches : Prop :=
  ∀ (s : State) (n : BitVec 6), let b := s.bank s.clu n.toNat
    (b.cur = none → b.wait = [] → ∃ t, exec (.bankSwitchBegin n) s = .next t ∧ t.bank s.clu n.toNat = b ∧ t.mem = s.mem) ∧
    (b.cur.isSome → exec (.bankSwitchBegin n) s = .next s) ∧
    (∀ m c k r, b.cur = none → b.wait = (m, c, k) :: r → b.mode ≠ m → b.mode ≠ 3 →
      (s.cyc ≤ c ∨ s.cyc ≤ b.last → exec (.bankSwitchBegin n) s = .next s) ∧
      (c < s.cyc → b.last < s.cyc → b.mode ≠ 0 → ∃ t, exec (.bankSwitchBegin n) s = .next t ∧ t.mem = s.mem ∧
        t.bank s.clu n.toNat = ⟨m, some (b.mode, s.cyc, s.cyc + 32 + (if m = 1 then 2048 else 0)), r, b.last, s.cyc⟩) ∧
      (c < s.cyc → b.last < s.cyc → b.mode = 0 → ∃ t, exec (.bankSwitchBegin n) s = .next t ∧ t.mem = s.mem ∧
        (t.bank s.clu n.toNat).mode = m ∧ (t.bank s.clu n.toNat).wait = r ∧
        (t.bank s.clu n.toNat).cur = some (0, s.cyc, s.cyc + 32 +
          4 * min 16384 ((s.dirtyIn s.clu n.toNat).length + s.dirtyYet s.clu) + (if m = 1 then 2048 else 0)))) ∧
    (∀ m c k, b.cur = none → b.wait = [(m, c, k)] → b.mode = m ∨ b.mode = 3 → c < s.cyc →
      ∃ t, exec (.bankSwitchBegin n) s = .next t ∧ t.bank s.clu n.toNat = { b with wait := [] } ∧ t.mem = s.mem) ∧
    (b.cur = none ∨ s.bankPending s.clu n.toNat = true → exec (.bankSwitchEnd n) s = .next s) ∧
    (b.cur.isSome → s.bankPending s.clu n.toNat = false → ∃ t, exec (.bankSwitchEnd n) s = .next t ∧
      (t.bank s.clu n.toNat).cur = none ∧ (t.bank s.clu n.toNat).mode = b.mode ∧ (t.bank s.clu n.toNat).last = s.cyc ∧
      (∀ a, sramKey s.clu (n.toNat * 2 ^ 19) ≤ a → a < sramKey s.clu ((n.toNat + 1) * 2 ^ 19) → readByte t.mem a = 0) ∧
      (∀ a, a < sramKey s.clu (n.toNat * 2 ^ 19) ∨ sramKey s.clu ((n.toNat + 1) * 2 ^ 19) ≤ a → readByte t.mem a = readByte s.mem a))

/-- R317, R318, R376, R388: SRAM_SCRUB counts what it finds; an uncorrectable error of a scratchpad poisons the sector and clears its tags.
PAGE_RETIREMENT counts what the code of HBM finds; firmware's retirement, and the one that a lost sector begins, marks the pages that map the
frame first and moves or unmaps them at the next event; a retired frame stays retired. A lost sector that no cluster holds dirty reads as
poisoned, without tags. -/
def Sys2Proof.Claims.ScrubAndRetire : Prop :=
  ∀ (s : State) (clu frame off : Nat),
    exec (.sramScrub clu .clean) s = .next s ∧
    exec (.sramScrub clu .corrected) s = .next (s.countErr clu false) ∧
    exec (.sramScrub clu .cacheClean) s = .next (s.countErr clu true) ∧
    ((s.bank clu (off / 2 ^ 19)).mode = 1 → ∃ t, exec (.sramScrub clu (.scratch off)) s = .next t ∧
      Map.get false t.pois (sramKey clu off / 32) = true ∧ t.mem = s.mem ∧
      Map.get false t.tags (2 * (sramKey clu off / 32)) = false ∧ Map.get false t.tags (2 * (sramKey clu off / 32) + 1) = false) ∧
    exec (.pageRetirement (.corrected frame)) s = .next (s.setStack (frame % 12)
      { s.stackAt (frame % 12) with ce := (s.stackAt (frame % 12)).ce + 1 }) ∧
    (Map.get false s.pkg.retired (s.primaryOf frame) = true → exec (.pageRetirement (.firmware frame)) s = .next s) ∧
    (Map.get false s.pkg.retired (s.primaryOf frame) = false →
      let pa := s.peer.toNat * 2 ^ 45 + s.primaryOf frame * 65536
      let maps := fun p : Page => decide (p.pa < pa + 65536) && decide (pa < p.pa + 2 ^ p.sz)
      exec (.pageRetirement (.firmware frame)) s = .next (
        if s.ctxs.any (fun e => e.2.pages.any (fun p => p.transit && maps p)) ∨ ¬s.ctxs.any (fun e => e.2.pages.any maps)
          then s.retireFrame (s.primaryOf frame) else s.markTransit (s.primaryOf frame))) ∧
    (∀ sec, exec (.pageRetirement (.lost frame sec)) s = .next ((s.loseHbm frame sec).retireNext frame) ∧
      ((s.loseHbm frame sec).stackAt (frame % 12)).ue = (s.stackAt (frame % 12)).ue + 1 ∧
      ((∀ e ∈ s.shr.dirty, e.1 ≠ frame * 2048 + sec % 2048) →
        let x := frame * 2048 + sec % 2048
        Map.get false (s.loseHbm frame sec).pois x = true ∧ Map.get false (s.loseHbm frame sec).tags (2 * x) = false ∧
        Map.get false (s.loseHbm frame sec).tags (2 * x + 1) = false))

namespace Sys2Proof.Claims
open Sys2Proof.Machine

/-! ## Command streams -/

/-- The stream runs its next command, and no part that is passed over stands before it (R328, R332). -/
def runsCmd (s : State) (n : BitVec 6) : Prop := s.streamRuns n = true ∧ (s.streamOf n).skip = 0

/-- The stream as a command finds it. -/
def here (s : State) (n : BitVec 6) : Stream := { s.streamOf n with busy := none }

/-- A command has finished in the state `t`: HEAD goes to the next command, and the stream runs on unless HALT stopped it (R330). No stream
of lower number runs a command in this cycle any more (R328). What was read for the command is forgotten. -/
def finished (s : State) (n : BitVec 6) (t : State) : State :=
  let t := t.dropGot (whoStream n.toNat)
  (t.setStream n { t.streamOf n with head := (here s n).next (here s n).head, state := if (t.streamOf n).state = 3 then 3 else 1 }).went
    resStreams n.toNat

/-- A stream fault ends the command (R334). -/
def faults (s : State) (n : BitVec 6) (c : Nat) : State := ((s.dropGot (whoStream n.toNat)).streamFault n c).went resStreams n.toNat

/-- The command waits (R331): STATE 2, HEAD stays. -/
def waiting (s : State) (n : BitVec 6) : State := s.setStream n { s.streamOf n with state := 2 }

/-- The command has had an effect, `t`, and waits for what comes of it: STATE 2, HEAD stays. -/
def held (n : BitVec 6) (t : State) : State := (t.setStream n { t.streamOf n with state := 2 }).went resStreams n.toNat

/-- The commands that a stream passes over in a part that does not run (R332), with any operands. -/
noncomputable def passedOver (n : BitVec 6) (a b : W64) (t : BitVec 32) (g f : BitVec 8) (m : BitVec 9) (h : Bool) : List Instr :=
  [.launch n a, .cmdWaitg n t g, .signalImmediate n h t g, .signalDeferred n h t g, .stepopen n a g f m, .stepclose n, .cmdFence n h,
   .write n a b, .writeGauge n a g, .halt n h]

end Sys2Proof.Claims

/-- R328, R332, R334: a stream that does not run changes nothing; a command in a part that does not run is passed over; a nest that is
too deep or wrong is stream fault 2, with HEAD kept and the host told. -/
def Sys2Proof.Claims.StreamRules : Prop :=
  ∀ (s : State) (n : BitVec 6) (a b : W64) (t : BitVec 32) (g f : BitVec 8) (m : BitVec 9) (h : Bool),
    (s.streamRuns n = false → ∀ i ∈ Claims.passedOver n a b t g f m h ++
      [.cmdLoop n a, .endLoop n, .cmdIf n h t g, .cmdElse n, .endIf n], exec i s = .next s) ∧
    (s.streamRuns n = true → (s.streamOf n).skip ≠ 0 → ∀ i ∈ Claims.passedOver n a b t g f m h,
      exec i s = .next (Claims.finished s n s)) ∧
    (s.streamRuns n = true → 8 ≤ (s.streamOf n).nest.length →
      exec (.cmdLoop n a) s = .next (Claims.faults s n 2) ∧ exec (.cmdIf n h t g) s = .next (Claims.faults s n 2)) ∧
    (s.streamRuns n = true → (s.streamOf n).nest = [] → ∀ i ∈ [Instr.endLoop n, .cmdElse n, .endIf n],
      exec i s = .next (Claims.faults s n 2)) ∧
    (∀ c, ((s.streamFault n c).streamOf n).head = (s.streamOf n).head ∧ ((s.streamFault n c).streamOf n).state = 4 ∧
      ((s.streamFault n c).streamOf n).fcode = BitVec.ofNat 8 c ∧ ((s.streamFault n c).streamOf n).intr = true)

/-- R331, R332: LOOP, ENDLOOP, IF, ELSE, ENDIF and WAITG of a stream. -/
def Sys2Proof.Claims.StreamControl : Prop :=
  ∀ (s : State) (n : BitVec 6) (neg : Bool) (tau : BitVec 32) (g : BitVec 8) (cnt : W64), s.streamRuns n = true →
    let x := Claims.here s n
    let c := reached (s.gauge ⟨true, g⟩) tau
    (x.nest.length < 8 → x.skip = 0 → cnt ≠ 0 → exec (.cmdLoop n cnt) s = .next (Claims.finished s n
      (s.setStream n { x with nest := .loop (x.next x.head).toNat cnt.toNat :: x.nest }))) ∧
    (x.nest.length < 8 → x.skip ≠ 0 ∨ cnt = 0 → exec (.cmdLoop n cnt) s = .next (Claims.finished s n
      (s.setStream n { x with nest := .loop 0 0 :: x.nest, skip := x.skip + 1 }))) ∧
    (∀ p k r, x.nest = .loop p k :: r → x.skip = 0 →
      (1 < k → exec (.endLoop n) s = .next (let t := (s.setStream n { x with nest := .loop p (k - 1) :: r }).dropGot (whoStream n.toNat)
        (t.setStream n { t.streamOf n with head := BitVec.ofNat 32 p, state := 1 }).went resStreams n.toNat)) ∧
      (k ≤ 1 → exec (.endLoop n) s = .next (Claims.finished s n (s.setStream n { x with nest := r })))) ∧
    (x.nest.length < 8 → x.skip = 0 → exec (.cmdIf n neg tau g) s = .next (Claims.finished s n
      (s.setStream n { x with nest := .cond (c != neg) false :: x.nest, skip := if c != neg then 0 else 1 }))) ∧
    (∀ b r, x.nest = .cond b false :: r → exec (.cmdElse n) s = .next (Claims.finished s n (s.setStream n
      { x with nest := .cond b true :: r, skip := if x.skip = 0 then 1 else if x.skip = 1 then 0 else x.skip }))) ∧
    (∀ b e r, x.nest = .cond b e :: r → exec (.endIf n) s = .next (Claims.finished s n
      (s.setStream n { x with nest := r, skip := x.skip - 1 }))) ∧
    (x.skip = 0 → exec (.cmdWaitg n tau g) s = .next (if c then Claims.finished s n s else Claims.waiting s n))

/-- R331, R334, R514: SIGNAL at once and deferred, FENCE, WRITE to memory and to a gauge, HALT. -/
def Sys2Proof.Claims.StreamEffects : Prop :=
  ∀ (s : State) (n : BitVec 6) (h fab : Bool) (amt : BitVec 32) (g : BitVec 8) (v ad : W64), Claims.runsCmd s n →
    let x := Claims.here s n
    exec (.signalImmediate n h amt g) s = .next (Claims.finished s n
      ((s.setStream n { x with intr := x.intr || h }).addGaugeAt (65536 + g.toNat) amt)) ∧
    exec (.signalDeferred n h amt g) s = .next (Claims.finished s n
      (s.setStream n { x with signals := x.signals ++ [⟨x.launches, g, amt, h⟩] })) ∧
    exec (.halt n h) s = .next (Claims.finished s n (s.setStream n { x with state := 3, intr := x.intr || h })) ∧
    (x.launches ≠ [] → exec (.cmdFence n fab) s = .next (Claims.waiting s n)) ∧
    ((∃ e ∈ x.wrote, ∃ c ∈ s.allCores, s.writesBefore c.1 e.1 e.2 = true) → exec (.cmdFence n fab) s = .next (Claims.waiting s n)) ∧
    (x.launches = [] → x.owed = [] → x.wrote = [] →
      exec (.cmdFence n fab) s = .next (Claims.finished s n (s.setStream n x))) ∧
    (∃ t, exec (.writeGauge n v g) s = .next (Claims.finished s n t) ∧ (t.streamOf n).busy = some (s.cyc + 20) ∧
      Map.get [] t.shr.gaugeWr (65536 + g.toNat) =
        Map.get [] s.shr.gaugeWr (65536 + g.toNat) ++ [⟨s.cyc + 20, 0, v.truncate 32, true⟩] ∧ t.mem = s.mem) ∧
    (s.page x.ctx ad.toNat = none → exec (.write n v ad) s = .next (Claims.faults s n 7)) ∧
    (∀ p, s.page x.ctx ad.toNat = some p →
      let pa := p.pa + (ad.toNat - p.va)
      (ad.toNat % 8 ≠ 0 ∨ p.w = false ∨ (p.vers = true ∧ (s.ctx x.ctx).step.open_ = false) →
        exec (.write n v ad) s = .next (Claims.faults s n 7)) ∧
      (ad.toNat % 8 = 0 → p.w = true → (p.vers = true → (s.ctx x.ctx).step.open_ = true) →
        (p.transit = true → exec (.write n v ad) s = .next (Claims.waiting s n)) ∧
        (p.transit = false → s.remote pa = false →
          exec (.write n v ad) s = .next (Claims.finished s n
            ((s.clean (pa % 2 ^ 45)).vstore (pa % 2 ^ 45) (bytesLE 8 v.toNat) false)))))

/-- R331: a deferred SIGNAL is applied once every launch before it has completed, the oldest first. -/
def Sys2Proof.Claims.DeferredSignals : Prop :=
  ∀ (s : State) (n : BitVec 6), let x := s.streamOf n
    (x.signals = [] → exec (.signalDeferredApply n) s = .next s) ∧
    (∀ li l g amt h r, x.signals = ⟨li :: l, g, amt, h⟩ :: r → exec (.signalDeferredApply n) s = .next s) ∧
    (∀ g amt h r, x.signals = ⟨[], g, amt, h⟩ :: r → exec (.signalDeferredApply n) s =
      .next ((s.setStream n { x with signals := r, intr := x.intr || h }).addGaugeAt (65536 + g.toNat) amt))

/-- R331, R333, R340: LAUNCH and LAUNCHI: a record that cannot be read is stream fault 3, a context that the stream may not use stream
fault 4; without a free index the stream waits; else the launch is accepted under that index. LAUNCHI replaces the extents of its mask. What
lies on another peer is asked for, and the stream waits for it. -/
def Sys2Proof.Claims.LaunchCommands : Prop :=
  ∀ (s : State) (n : BitVec 6) (msk : BitVec 6) (ra xa : W64), Claims.runsCmd s n →
    let x := Claims.here s n
    let accept := fun lr : LaunchRec =>
      match s.freeLaunch with
      | none => Claims.waiting s n
      | some li => Claims.finished s n ((s.setStream n { x with launches := x.launches ++ [li] }).acceptLaunch li lr n x.head.toNat
          (s.ctx lr.ctx).step.open_)
    let read := fun msk xa => s.readRecord x.ctx ra msk xa (whoStream n.toNat)
    (∀ t, read 0 0 = .error (.trap t) → exec (.launch n ra) s = .next (Claims.faults s n 3)) ∧
    (read 0 0 = .error .wait → exec (.launch n ra) s = .next (Claims.waiting s n)) ∧
    (∀ who pa, read 0 0 = .error (.ask who pa) →
      exec (.launch n ra) s = .next (Claims.held n (s.askFar who pa x.ctx 1024 0))) ∧
    (∀ lr, read 0 0 = .ok lr →
      (x.cmsk.toNat.testBit lr.ctx.toNat = false → exec (.launch n ra) s = .next (Claims.faults s n 4)) ∧
      (x.cmsk.toNat.testBit lr.ctx.toNat = true → exec (.launch n ra) s = .next (accept lr))) ∧
    (xa.toNat % 32 ≠ 0 ∨ s.page x.ctx xa.toNat = none → exec (.launchi n msk ra xa) s = .next (Claims.faults s n 3)) ∧
    (∀ lr, xa.toNat % 32 = 0 → (s.page x.ctx xa.toNat).isSome → read msk xa = .ok lr →
      (x.cmsk.toNat.testBit lr.ctx.toNat = false → exec (.launchi n msk ra xa) s = .next (Claims.faults s n 4)) ∧
      (x.cmsk.toNat.testBit lr.ctx.toNat = true → exec (.launchi n msk ra xa) s = .next (accept lr))) ∧
    (ra.toNat % 128 ≠ 0 → ∃ t, read msk xa = .error (.trap t))

/-- R272, R340, R341: an accepted launch waits; one whose extents do not fit is rejected with Extent Overflow and one of no pieces retires, both at once. -/
def Sys2Proof.Claims.LaunchAcceptance : Prop :=
  ∀ (s : State) (li : Nat) (lr : LaunchRec) (n : BitVec 6) (head : Nat) (b : Bool),
    (lr.rejects = false → lr.count ≠ 0 → ∃ l, (s.acceptLaunch li lr n head b).launch li = some l ∧ l.lr = lr ∧ l.state = .waiting ∧
      l.taken = [] ∧ l.ended = 0 ∧ l.inStep = b ∧ l.uid = s.nextId) ∧
    (lr.rejects = true ∨ lr.count = 0 → (s.acceptLaunch li lr n head b).launch li = none) ∧
    (lr.rejects = true → Map.get none (s.acceptLaunch li lr n head b).die.named li = some ⟨.extentOverflow, 0, 0⟩) ∧
    (∀ k, 2 ^ lr.wid k < lr.ext k → k < 6 → lr.rejects = true)

/-- R335, R386, R489: STEPOPEN and STEPCLOSE. STEPOPEN is stream fault 5 where the device has no rank, where it saves gauges that do not exist
or takes another step than the one to restore; it waits while a step is open or waits for its retry, and while the log that it replays has to be
fetched (21 R498). STEPCLOSE closes the step with the
nest that STEPOPEN had, and then waits in STATE 2 for the decision. -/
def Sys2Proof.Claims.StepCommands : Prop :=
  ∀ (s : State) (n : BitVec 6) (k : W64) (tok f : BitVec 8) (m : BitVec 9), Claims.runsCmd s n →
    let x := Claims.here s n
    let r := s.ctx x.ctx
    let busy := r.step.open_ || r.step.wait || s.gluHolds x.ctx || decide (4095 ≤ r.lag) ||
      (s.pkg.mo.await.isSome && bitsOf s.pkg.mo.cfg 4 4 == x.ctx.toNat)
    (s.domRank x.ctx = none → exec (.stepopen n k tok f m) s = .next (Claims.faults s n 5)) ∧
    ((s.domRank x.ctx).isSome → s.logAway x.ctx = true →
      exec (.stepopen n k tok f m) s = .next (Claims.held n (s.scribeFetch x.ctx))) ∧
    ((s.domRank x.ctx).isSome → s.logAway x.ctx = false → busy = true →
      exec (.stepopen n k tok f m) s = .next (Claims.waiting s n)) ∧
    ((s.domRank x.ctx).isSome → s.logAway x.ctx = false → busy = false →
      (256 < f.toNat + m.toNat ∨ (∃ j, r.knext = some j ∧ j ≠ k) → exec (.stepopen n k tok f m) s = .next (Claims.faults s n 5)) ∧
      (f.toNat + m.toNat ≤ 256 → (∀ j, r.knext = some j → j = k) → exec (.stepopen n k tok f m) s =
        .next (Claims.finished s n ((s.setStream n { x with step := some x.nest.length }).openStep n x k tok f m)))) ∧
    (x.step = none → exec (.stepclose n) s = .next (Claims.faults s n 5)) ∧
    (∀ d, x.step = some d →
      (r.step.open_ = true → r.step.stream = n → r.step.closed = false →
        (x.nest.length ≠ d → exec (.stepclose n) s = .next (Claims.faults s n 2)) ∧
        (x.nest.length = d → ∃ t, exec (.stepclose n) s = .next t ∧
          (t.ctx x.ctx).step = { r.step with closed := true } ∧ (t.streamOf n).head = x.head ∧ (t.streamOf n).state = 2)) ∧
      (r.step.open_ = true → r.step.stream = n → r.step.closed = true → exec (.stepclose n) s = .next (Claims.waiting s n)) ∧
      (r.step.open_ = false → r.step.wait = false →
        exec (.stepclose n) s = .next (Claims.finished s n (s.setStream n { x with step := none }))))

/-- R335, R81, R461: the attempt that STEPOPEN opens: no vetoes, not closed, the gauges F to F + M - 1 saved with their error bits; memory
and the attempt's tag are as they were. -/
def Sys2Proof.Claims.AttemptOpens : Prop :=
  ∀ (s : State) (n : BitVec 6) (x : Stream) (k : W64) (tok f : BitVec 8) (m : BitVec 9), (s.gctx x.ctx).scrcfg = 0 →
    let t := s.openStep n x k tok f m
    let st := (t.ctx x.ctx).step
    st.k = k ∧ st.t = (s.ctx x.ctx).step.t ∧ st.open_ = true ∧ st.closed = false ∧ st.vf = 0 ∧ st.lossCnt = false ∧
    st.saved = (List.range m.toNat).map (fun i =>
      (s.gauge ⟨true, BitVec.ofNat 8 (f.toNat + i)⟩, s.gaugeErr (f.toNat + i))) ∧
    (t.ctx x.ctx).knext = none ∧ (t.gctx x.ctx).voted = false ∧ (t.gctx x.ctx).vetoed = false ∧
    (t.gctx x.ctx).nseqOld = (s.gctx x.ctx).nseq ∧ t.mem = s.mem

/-- R341 to R343, R350: LAUNCH_READY makes a waiting launch whose predicate held ready, or cancels it where a used gauge has its error bit
set; LAUNCH_RETIRE ends one whose pieces have ended and whose writes have performed; LAUNCH_FAULTED a frozen one with no piece left. -/
def Sys2Proof.Claims.LaunchEvents : Prop :=
  ∀ (s : State) (li : Nat),
    (s.launch li = none → ∀ i ∈ [Instr.launchReady li, .launchRetire li, .launchFaulted li, .promotion li, .preemption li],
      exec i s = .next s) ∧
    (∀ l, s.launch li = some l →
      let bad := [false, true].any (fun b => (l.lr.term b).1 && s.gaugeErr ((l.lr.term b).2.g - 65536))
      (l.state ≠ .waiting ∨ l.holds = false → exec (.launchReady li) s = .next s) ∧
      (l.state = .waiting → l.holds = true → bad = true → exec (.launchReady li) s = .next (s.finishLaunch li .cancelled)) ∧
      (l.state = .waiting → l.holds = true → bad = false → ∃ t, exec (.launchReady li) s = .next t ∧
        t.launch li = some { l with state := .ready, seq := s.die.seq + 1, waitFrom := s.cyc } ∧ t.mem = s.mem) ∧
      (l.state = .running → l.ended = l.lr.count → (bitsOf l.lr.w3 63 1 = 1 → l.doneAdded = true) →
        (∀ e ∈ s.allCores, s.writesBefore e.1 li s.nextId = false) →
        exec (.launchRetire li) s = .next (s.finishLaunch li .retired)) ∧
      (l.state ≠ .running ∨ l.ended ≠ l.lr.count → exec (.launchRetire li) s = .next s) ∧
      (l.state = .frozen → l.saved = [] → s.runsOf li = false →
        exec (.launchFaulted li) s = .next (s.finishLaunch li .faulted)) ∧
      (l.state ≠ .frozen ∨ l.saved ≠ [] ∨ s.runsOf li = true → exec (.launchFaulted li) s = .next s) ∧
      (let late := (l.state = .ready ∨ l.state = .running) ∧ l.waits = true ∧ l.waitFrom + 2 ^ 24 ≤ s.cyc ∧ li ∉ s.die.promoted
       (late → exec (.promotion li) s = .next (s.setDie { s.die with promoted := s.die.promoted ++ [li] })) ∧
       (¬late → exec (.promotion li) s = .next s)))

/-- R342: the end of a launch: its index is free, no stream waits for it; retired, faulted, cancelled and rejected launches add to DONE, an
aborted one does not. -/
def Sys2Proof.Claims.LaunchEnds : Prop :=
  ∀ (s : State) (li : Nat) (l : Launch) (e : LEnd), s.launch li = some l → s.pkg.dv.live = [] →
    let t := s.finishLaunch li e
    t.launch li = none ∧ t.mem = s.mem ∧ (∀ n, li ∉ (t.streamOf n).launches) ∧
    (e = .aborted ∨ bitsOf l.lr.w3 62 1 = 0 ∨ l.doneAdded = true → t.shr.gauge = s.shr.gauge) ∧
    (bitsOf l.lr.w3 62 1 = 1 → e = .faulted ∨ e = .cancelled ∨ e = .rejected →
      t.gaugeErr (bitsOf l.lr.w3 54 8) = true)

/-- R346, R347, R352: PIECE_START gives nothing to a core that is not free, and nothing where no launch has a piece for it; the newcomer for
which the core was freed goes before the launch that the Jig chooses. -/
def Sys2Proof.Claims.PieceChoice : Prop :=
  ∀ s : State,
    (s.coreFree s.k = false ∨ s.pkg.off = true ∨ s.firstFree s.k = false ∨ (s.heir s.k = none ∧ s.chosen s.k = none) →
      exec .pieceStart s = .next s) ∧
    (∀ li l q, s.coreFree s.k = true → s.pkg.off = false → s.firstFree s.k = true →
      s.heir s.k = some (li, l) ∨ (s.heir s.k = none ∧ s.chosen s.k = some (li, l)) → l.lr.fixed = true →
      s.pieceFor l s.k = some (.start q none) →
      ∃ l', exec .pieceStart s = .next (((s.setLaunch li (some l')).startPiece li l' q).given (s.k / 96) li) ∧
        l'.state = .running ∧ l'.lr = l.lr ∧ q ∈ l'.taken ∧ q ∉ l'.again)

/-- R11, R13, R338, R339: what a piece starts with: its identifier and fields in g1 to g7, its code and parameters in a29 and a30, its stack in
a31, every other register 0, each cluster at its code capability and active where that is tagged, and core scratch that reads as zero. -/
def Sys2Proof.Claims.PieceStarts : Prop :=
  ∀ (s : State) (li q : Nat) (l : Launch), l.lr.codeS.tag = true →
    let t := s.startPiece li l q
    t.core.pc.run = true ∧ t.core.pc.pid = s.nextId ∧ t.core.pc.li = li ∧ t.core.pc.q = q ∧ t.core.pc.ctx = l.lr.ctx ∧
    t.core.cs = ⟨true, l.lr.codeS, curOf l.lr.codeS, 0, 0, s.cyc, []⟩ ∧ t.core.ca.act = l.lr.codeA.tag ∧
    t.core.cv.act = l.lr.codeV.tag ∧ t.core.cm.act = l.lr.codeM.tag ∧
    (t.core.g[1]).v = l.lr.widOf q ∧ (∀ i : Fin 32, 8 ≤ i.val ∨ i.val = 0 → t.core.g[i] = ⟨0, false, 0⟩) ∧
    (∀ k : Fin 6, (t.core.g[k.val + 2]).v = BitVec.ofNat 64 (Map.get 0 (l.lr.fields q) k)) ∧
    (t.core.a[29]).c = l.lr.codeA ∧ (t.core.a[30]).c = l.lr.param ∧ (t.core.a[31]).c = (s.ctx l.lr.ctx).stack s.k ∧
    t.core.tiles = [] ∧ t.core.slot = [] ∧ t.core.qs = [] ∧ t.core.use = 0 ∧
    (∀ a, scrKey s.k 0 ≤ a → a < scrKey (s.k + 1) 0 → readByte t.mem a = 0) ∧
    (∀ a, a < scrKey s.k 0 ∨ scrKey (s.k + 1) 0 ≤ a → readByte t.mem a = readByte s.mem a)

/-- R289, R351, R352: PREEMPTION finds no victim where a core is free, or the launch is not ready; else it takes, of the cores that run a piece,
are not leaving, may serve a waiting piece that no core is on its way to, and whose launch ranks lower, the victim that comes first by the order
of R351; what becomes of the victim, whose core goes to the newcomer; and a drain that has
found a stalled EPIR for 2^16 consecutive cycles becomes a checkpoint. -/
def Sys2Proof.Claims.Preemption : Prop :=
  ∀ (s : State) (li : Nat) (l v : Launch), s.launch li = some l →
    let busy := ∃ x ∈ s.launchCores l.lr, s.coreFree x = true ∧ (s.pieceFor l x).isSome
    (l.state ≠ .ready ∨ l.waits = false ∨ busy ∨ s.victims l = [] → exec (.preemption li) s = .next s) ∧
    (∀ x k, (x, k) ∈ s.victims l → x < 384 ∧ (s.coreOf x).pc.run = true ∧ (s.coreOf x).halt = .none ∧ (s.coreOf x).leaving = false ∧
      (s.coreOf x).newc ≠ some l.uid ∧ s.wants l x = true ∧ ∃ w, s.launch (s.coreOf x).pc.li = some w ∧ w.lr.pri < l.lr.pri ∧
        k = victimKey (s.coreOf x) w.lr x) ∧
    (∀ x k, l.state = .ready → l.waits = true → ¬busy → (x, k) ∈ s.victims l →
      (∀ w ∈ s.victims l, w ≠ (x, k) → lexLess k w.2 = true) →
      exec (.preemption li) s = .next (s.at x (fun u => u.evict l.lr.tok l.uid))) ∧
    (s.launch s.core.pc.li = some v → ∀ tok u,
      let t := s.setCore { s.core with newc := some u }
      (s.core.pc.stepIn = true → (s.evict tok u).core.halt = .kill ∧
        ((s.evict tok u).ctx s.core.pc.ctx).step.vf = (s.ctx s.core.pc.ctx).step.vf ||| vPre) ∧
      (s.core.pc.stepIn = false → remaining v.lr s.core.pc ≤ 4096 * tok →
        s.evict tok u = t.setPiece { s.core.pc with drained := true }) ∧
      (s.core.pc.stepIn = false → 4096 * tok < remaining v.lr s.core.pc →
        s.evict tok u = t.setCore { t.core with halt :=
          if v.lr.idem = true ∧ s.core.pc.onCore ≤ 8192 then .kill else .checkpoint })) ∧
    (let p := s.core.pc
     let stuck := p.run && p.drained && !p.stepIn && s.core.epir.any (fun x => x.pid == p.pid &&
       x.stalledAt.any (fun c => decide (c + 2 ^ 16 ≤ s.cyc)))
     exec .drainConversion s =
       .next (if stuck then s.setCore { s.core with halt := .checkpoint, pc := { p with drained := false } } else s))

namespace Sys2Proof.Claims
open Sys2Proof.Machine

/-! ## Owner requests -/

/-- A request stands in the mailbox (R423). -/
def posted (q : OwnReq) (s : State) : State := s.mailPut q.bytes.1 q.bytes.2
/-- The owner's request has been done: status 2. -/
def granted (q : OwnReq) (t : State) : State := (posted q t).setPkg { (posted q t).pkg with mail := 2, req := none }
/-- It has been refused: status 3. -/
def refused (q : OwnReq) (s : State) : State := (posted q s).setPkg { (posted q s).pkg with mail := 3, req := none }

/-- What an owner request answers: what it makes of the state, or none. -/
def answered (q : OwnReq) (s : State) (f : Option State) : State :=
  match f with
  | some t => granted q t
  | none => refused q s

/-- Every owner request of the mailbox (R423), with any operands. -/
noncomputable def ownerRequests (w : Nat) (c : Ctx) (idx : BitVec 12) (rec : BitVec 512) (va cfg : W64) (cores : BitVec 384) (stk : Cap)
    (dove : Bool) (tg : DebugTarget) (img : RepairImage) (nonce d : BitVec 256) (cap : BitVec 16) (ring : BitVec 7) :
    List Instr :=
  [.installTensorHandle w c idx rec, .markVersioned w c va, .unmarkVersioned w c va, .setCoreSet w c cores stk cfg,
   .assignUnit w dove c cfg, .restoreStepPosition w c va, .debugHaltDrain w tg, .debugHaltFreeze w tg, .debugResume w tg,
   .repairMapUpdate w img, .quote w nonce, .setPowerCap w cap, .assignEthernetRing w ring d]

/-! ## Packets -/

/-- The packets that reach a service of this device: the event, its OPs, the service (R441, R446, R471, R474, R487, R508). -/
noncomputable def arrivals (p : Packet) : List (Instr × List Nat × (State → Packet → Option State)) :=
  [(.remoteLoadArrival p, [1], State.serveLoad), (.remoteStoreArrival p, [2, 3, 4, 5], State.serveWrite),
   (.answerArrival p, [6], State.serveAnswer), (.freeSlotsArrival p, [7], State.serveFree),
   (.collectivePacketArrival p, [0x10, 0x11], State.serveColl), (.collectiveAckArrival p, [0x12], State.serveCollAck),
   (.veneerPlaneArrival p, [0x13], State.servePlane), (.veneerCancelArrival p, [0x14], State.serveVnCancel),
   (.veneerAckArrival p, [0x15], State.serveVnAck), (.voteArrival p, [0x20, 0x22], State.serveVote),
   (.applyDecision p, [0x21], State.serveDecision), (.fabricBarrierArrival p, [0x23], State.serveBarArrival),
   (.fabricBarrierRelease p, [0x24], State.serveBarRelease), (.lostNoticeArrival p, [0x25], State.serveNotice),
   (.fillAssignmentArrival p, [0x26], State.serveFill), (.fillDoneArrival p, [0x27], State.serveFillDone)]

/-- The state in which a packet is served: its flow has moved on by one (R445). -/
def passed (s : State) (p : Packet) : State :=
  s.setFab { s.fab with seqIn := Map.set 0 s.fab.seqIn (flowKey p.vc p.src) (p.seq + 1) }

/-- The packet is for this device, sound, and from a peer that no spare has replaced (R445, R500). -/
def sound (s : State) (p : Packet) : Prop :=
  p.dst = s.peer ∧ pkOk p = true ∧ opDefined p.op.toNat = true ∧ s.fab.subs.any (fun x => x.old == p.src) = false

end Sys2Proof.Claims

/-- R423, R425, R426: a request from a master that is not the owner, or while another is busy, is discarded. The owner's requests (executed as
they are written: the model's choice, log entry 85) that set a handle, a core set or a power cap, or assign a unit, are done, within their ranges; marking a page, a restore, an image and a ring are done or
refused with nothing changed but the mailbox; a restore that must wait keeps status 1; a quote signs the measurements, the nonce and the versions,
and a repair map update extends m3 by SHA-256. -/
def Sys2Proof.Claims.OwnerRequests : Prop :=
  ∀ (s : State) (w : Nat) (c : Ctx) (idx : BitVec 12) (rec : BitVec 512) (va cfg : W64) (cores : BitVec 384) (stk : Cap) (dove : Bool)
    (tg : DebugTarget) (dw : DebugWrite) (img : RepairImage) (nonce d : BitVec 256) (cap : BitVec 16) (ring : BitVec 7),
    (s.pkg.owner.toNat ≠ w ∨ s.pkg.req.isSome → s.pkg.req ≠ some (w, 9) →
      ∀ i ∈ Claims.ownerRequests w c idx rec va cfg cores stk dove tg img nonce d cap ring, exec i s = .next s) ∧
    (s.pkg.owner.toNat ≠ w → exec (.debugWrite w dw) s = .next s ∧ ∀ n, exec (.streamDescriptorWrite w n d) s = .next s) ∧
    (s.pkg.owner.toNat = w → s.pkg.req = none →
      exec (.installTensorHandle w c idx rec) s = .next (Claims.granted (.handle c idx rec) (s.setPkg { s.pkg with
        handles := Map.set handleReset s.pkg.handles (c.toNat * 4096 + idx.toNat) rec })) ∧
      exec (.setCoreSet w c cores stk cfg) s = .next (Claims.granted (.cores c cores stk.bits cfg)
        (s.setCtx c { s.ctx c with coreSet := cores, stk := stk, sz := cfg })) ∧
      exec (.setPowerCap w cap) s = .next (if 1500 ≤ cap.toNat ∧ cap.toNat ≤ 5000
        then Claims.granted (.power cap) (s.setPkg { s.pkg with pcap := cap }) else Claims.refused (.power cap) s) ∧
      exec (.markVersioned w c va) s = .next (Claims.answered (.version c va true) s (s.setVersioned c va.toNat true)) ∧
      exec (.unmarkVersioned w c va) s = .next (Claims.answered (.version c va false) s (s.setVersioned c va.toNat false)) ∧
      (∀ t, s.restore c va.toNat = .ok t → exec (.restoreStepPosition w c va) s = .next (Claims.granted (.restore c va) t)) ∧
      (∀ x, s.restore c va.toNat = .error (.trap x) → exec (.restoreStepPosition w c va) s = .next (Claims.refused (.restore c va) s)) ∧
      (s.restore c va.toNat = .error .wait → ∃ t, exec (.restoreStepPosition w c va) s = .next t ∧ t.pkg.mail = 1 ∧
        t.pkg.req = some (w, 6) ∧ t.mem = s.mem ∧ t.ctxs = s.ctxs) ∧
      exec (.quote w nonce) s = .next (Claims.granted (.quote nonce) (s.setPkg { s.pkg with
        quote := some (s.quoteBytes nonce, Config.sign (s.quoteBytes nonce)) })) ∧
      exec (.assignUnit w true c cfg) s = .next (Claims.granted (.unit true c cfg) (s.setDove { s.pkg.dv with ctx := c })) ∧
      (s.pkg.mo.ctx = c → ∃ t, exec (.assignUnit w false c cfg) s = .next t ∧ t.pkg.mo.orph = s.pkg.mo.orph ∧ t.pkg.mail = 2 ∧
        t.pkg.mo.table = s.pkg.mo.table) ∧
      (s.pkg.mo.ctx ≠ c → ∃ t, exec (.assignUnit w false c cfg) s = .next t ∧ t.pkg.mo.orph = [] ∧ t.pkg.mo.rel = 0 ∧
        t.pkg.mo.dup = 0 ∧ t.pkg.mail = 2) ∧
      (imageWhy img.img true ≠ 0 ∨ img.img.ver.toNat < s.pkg.vmin.toNat →
        exec (.repairMapUpdate w img) s = .next (Claims.refused .repair s)) ∧
      (imageWhy img.img true = 0 → s.pkg.vmin.toNat ≤ img.img.ver.toNat → ∃ t, exec (.repairMapUpdate w img) s = .next t ∧
        t.pkg.vrm = img.img.ver ∧ t.pkg.mail = 2 ∧
        Map.get 0 t.pkg.meas 3 = sha256 (bytesLE 32 (Map.get 0 s.pkg.meas 3).toNat ++ bytesLE 32 img.img.digest.toNat) ∧
        (img.frames = [] → img.banks = [] → t.mem = s.mem)) ∧
      exec (.assignEthernetRing w ring d) s = .next (Claims.answered (.ring ring d) s (s.assignRing ring.toNat d)) ∧
      ((s.ring ring.toNat).en = true → (s.ring ring.toNat).ctx ≠ BitVec.ofNat 4 (nb d.toNat 160 8) → s.assignRing ring.toNat d = none) ∧
      (nb d.toNat 0 64 % 32 ≠ 0 → s.assignRing ring.toNat d = none))

/-- R380, R383: a page is versioned or not only while no attempt of its context is open or awaits its retry, and for a page that no other
context maps; otherwise nothing is changed. A shadow lies in the stack of its frame, in a frame that nothing names; without one the page is
refused. Of a page of another peer the mark is all that is held here (the model's choice: log entry 68). -/
def Sys2Proof.Claims.MarkingPages : Prop :=
  ∀ (s : State) (c : Ctx) (va : Nat) (on : Bool),
    (s.page c va = none → s.setVersioned c va on = none) ∧
    (∀ p, s.page c va = some p → (s.ctx c).step.open_ = true ∨ (s.ctx c).step.wait = true ∨ p.vers = on ∨
      s.sharedRange c p.pa (2 ^ p.sz) = true → s.setVersioned c va on = none) ∧
    (∀ p, s.page c va = some p → (s.ctx c).step.open_ = false → (s.ctx c).step.wait = false → p.vers ≠ on →
      s.sharedRange c p.pa (2 ^ p.sz) = false → s.remote p.pa = true → ∃ t, s.setVersioned c va on = some t ∧ t.mem = s.mem ∧
        t.frames = s.frames ∧ (t.ctx c).pages = (s.ctx c).pages.map (fun q => if q.va = p.va then { q with vers := on } else q)) ∧
    (∀ f g, s.frameBeside f = some g → stackOf (g * 65536) = stackOf (f * 65536) ∧ s.frameUsed g = false) ∧
    (∀ a n f, Map.get none s.frames f = none →
      (s.frameBeside f = none → s.markFrame c a n f = none) ∧
      (∀ g, s.frameBeside f = some g → ∃ t x, s.markFrame c a n f = some t ∧ Map.get none t.frames f = some x ∧ x.shadow = g))

/-- R421, R422, R424, R427: ownership changes hands by CLAIM, GIVE with ACCEPT, RELEASE and the owner's link, which waits for a request that
runs; the writes of one cycle take effect in ascending master; the owner writes the stream descriptors, but for HEAD; a reset is the machine of
State.reset that boots, but for what has left service for good (the frames that were retired among it). The boot goes phase by phase (each in
one cycle, the model's choice, log entry 88), and stops where an image is wrong. -/
def Sys2Proof.Claims.Ownership : Prop :=
  ∀ (s : State) (w : Nat) (tgt : BitVec 8) (n : BitVec 6) (d : BitVec 256) (b : BootImages), w ≤ 16 →
    let me := BitVec.ofNat 8 w
    let gives := fun (i : Instr) (o p : BitVec 8) => ∃ t, exec i s = .next t ∧ t.pkg.owner = o ∧ t.pkg.pend = p ∧ t.mem = s.mem ∧
      t.core = s.core ∧ t.die = s.die
    (s.pkg.own = [] →
      gives (.claim w) (if s.pkg.owner = 0xFF then me else s.pkg.owner) s.pkg.pend ∧
      (tgt.toNat ≤ 16 ∨ tgt = 0xFF → gives (.give w tgt) s.pkg.owner (if s.pkg.owner = me then tgt else s.pkg.pend)) ∧
      (16 < tgt.toNat → tgt ≠ 0xFF → exec (.give w tgt) s = .next s) ∧
      gives (.accept w) (if s.pkg.pend = me then me else s.pkg.owner) (if s.pkg.pend = me then 0xFF else s.pkg.pend) ∧
      gives (.release w) (if s.pkg.owner = me then 0xFF else s.pkg.owner) (if s.pkg.owner = me then 0xFF else s.pkg.pend) ∧
      (s.pkg.owner = me → s.pkg.req = none → gives (.ownerLinkDown w) 0xFF 0xFF) ∧
      (s.pkg.owner = me → s.pkg.req.isSome → exec (.ownerLinkDown w) s = .next (s.setPkg { s.pkg with ownDown := some w })) ∧
      (s.pkg.owner = 0xFF → ∀ v, w < v → v ≤ 16 →
        ∃ t u, exec (.claim v) s = .next t ∧ exec (.claim w) t = .next u ∧ u.pkg.owner = me)) ∧
    (s.pkg.owner.toNat = w → ∃ t, exec (.streamDescriptorWrite w n d) s = .next t ∧
      (t.streamOf n).head = (s.streamOf n).head ∧ (t.streamOf n).base = BitVec.ofNat 64 d.toNat ∧
      (t.streamOf n).tail = BitVec.ofNat 32 (d.toNat / 2 ^ 128) ∧ (t.streamOf n).ctx = BitVec.ofNat 4 (d.toNat / 2 ^ 160)) ∧
    (∃ t, exec (.deviceReset b) s = .next t ∧ t.mem = [] ∧ t.cyc = 0 ∧ t.pkg.retired = s.pkg.retired ∧ t.pkg.owner = 0xFF ∧
      t.pkg.bootst = bootWord 0 0 0 ∧ t.pkg.booting = some b) ∧
    (s.pkg.booting = some b →
      (s.pkg.bootst = bootWord 0 0 0 → s.bootNext.pkg.bootst = bootWord 1 0 0) ∧
      (s.pkg.bootst = bootWord 1 0 0 →
        (imageWhy b.fw false = 0 → s.bootNext.pkg.bootst = bootWord 2 0 0 ∧ s.bootNext.pkg.vfw = b.fw.ver ∧
          Map.get 0 s.bootNext.pkg.meas 0 = b.fw.digest) ∧
        (imageWhy b.fw false ≠ 0 → s.bootNext.pkg.bootst = bootWord 5 1 (imageWhy b.fw false) ∧ s.bootNext.pkg.booting = none)) ∧
      (s.pkg.bootst = bootWord 2 0 0 → imageWhy b.cfg true = 0 → b.vmin.toNat ≤ b.cfg.ver.toNat → b.vmin.toNat ≤ b.fw.ver.toNat →
        s.bootNext.pkg.bootst = bootWord 3 0 0 ∧ s.bootNext.peer = b.peer ∧ Map.get 0 s.bootNext.pkg.meas 1 = b.cfg.digest) ∧
      (s.pkg.bootst = bootWord 3 0 0 → imageWhy b.rm true = 0 → b.rm.ver.toNat < b.vmin.toNat →
        s.bootNext.pkg.bootst = bootWord 5 3 2))

/-- R290 to R293: a debugger halts a piece that runs, resumes one that is drained no earlier than 4 cycles later, and writes only registers of a
core that is drain-halted; g0 stays 0 and a register of A that it writes has no tag. It may end the piece that it has halted, as faulted. -/
def Sys2Proof.Claims.DebugRequests : Prop :=
  ∀ (s : State) (w : Nat) (dw : DebugWrite), s.pkg.owner.toNat = w → s.pkg.req = none →
    let drain := OwnReq.halt false (.core s.k)
    let freeze := OwnReq.halt true (.core s.k)
    let stopped := fun h => s.setCore { s.core with halt := h, debugger := true, pc := s.core.pc.restart s.cyc }
    (s.core.pc.run = false → exec (.debugHaltDrain w (.core s.k)) s = .next (Claims.refused drain s) ∧
      exec (.debugHaltFreeze w (.core s.k)) s = .next (Claims.refused freeze s)) ∧
    (s.core.pc.run = true → s.core.halt = .none →
      exec (.debugHaltDrain w (.core s.k)) s = .next (Claims.granted drain (stopped .drain)) ∧
      exec (.debugHaltFreeze w (.core s.k)) s = .next (Claims.granted freeze (stopped .freeze))) ∧
    (s.core.halt = .drain → ∃ t, exec (.debugResume w (.core s.k)) s = .next t ∧ t.core.halt = .none ∧
      (∀ k : Cl, s.cyc + 4 ≤ (t.core.strm k).start ∧ (t.core.strm k).pc = (s.core.strm k).pc) ∧ t.mem = s.mem) ∧
    (dwAllowed dw (s.coreOf (dwCore dw)).halt = false → exec (.debugWrite w dw) s = .next s) ∧
    (∀ h, dwAllowed dw h = true → h = .drain ∨ (h = .freeze ∧ dw = .stop (dwCore dw))) ∧
    (s.core.halt = .drain ∨ s.core.halt = .freeze → exec (.debugWrite w (.stop s.k)) s =
      .next (s.at s.k (fun u => (u.setCore { u.core with halt := .none }).faultPiece none))) ∧
    (s.core.halt = .drain →
      (∀ r v, r ≠ 0 → ∃ t, exec (.debugWrite w (.greg s.k r v)) s = .next t ∧ t.core.g[r.toNat]'(r.isLt) = ⟨v, false, s.cyc⟩ ∧
        t.mem = s.mem) ∧
      (∀ v, exec (.debugWrite w (.greg s.k 0 v)) s = .next s) ∧
      (∀ r v, r ≠ 0 → ∃ t, exec (.debugWrite w (.areg s.k r v)) s = .next t ∧
        (t.core.a[r.toNat]'(r.isLt)).c = ⟨false, v⟩))

/-- R434, R501: the clock goes to a step of 25 MHz below 1,900 with the averaged power at or below CAP, and below what it was where a cluster
is above 105 °C (in quarters of a degree); a cluster that reaches 115 °C shuts the device down. That PWR and TEMP change by these events only
is the model's choice (log entry 84). -/
def Sys2Proof.Claims.PowerAndHeat : Prop :=
  ∀ (s : State) (mhz pwr : BitVec 16) (temps : List (BitVec 16)) (k : Nat), temps.length ≤ 48 →
    let step := mhz.toNat ≤ 1900 ∧ (1900 - mhz.toNat) % 25 = 0
    let hot := ∃ t ∈ temps, 4 * 105 < t.toNat
    let slower := mhz.toNat < s.pkg.mhz.toNat ∨ s.pkg.mhz = 0
    (step → pwr.toNat ≤ s.pkg.pcap.toNat → (∀ t ∈ temps, t.toNat < 4 * 115) → (hot → slower) →
      let read := (temps.zip (List.range 48)).foldl (fun m e => Map.set 0 m e.2 e.1) s.pkg.temp
      exec (.powerCapThrottle mhz ⟨pwr, temps⟩) s = .next (s.setPkg { s.pkg with mhz := mhz, pwr := pwr, temp := read })) ∧
    (¬step ∨ s.pkg.pcap.toNat < pwr.toNat ∨ (∃ t ∈ temps, 4 * 115 ≤ t.toNat) ∨ (hot ∧ ¬slower) →
      exec (.powerCapThrottle mhz ⟨pwr, temps⟩) s = .next s) ∧
    (∃ t, exec (.thermalShutdown k) s = .next t ∧ t.pkg.off = true ∧ t.mem = s.mem)

/-- R386, R503: a visit of the version scrub of a versioned line that the pass has not visited renews the tag of the set leaf when it is 2^14 behind G, parks the other leaf unless it carries
the open attempt, and counts once in a pass; a pass ends when every line has been visited. A repair writes a poisoned set leaf, between
attempts only. -/
def Sys2Proof.Claims.VersionScrub : Prop :=
  ∀ (s : State) (line : Nat) (c : Ctx) (data : BitVec 1024) (pois : BitVec 4) (tg : LineTags),
    (s.frame (128 * line) = none → exec (.versionScrubVisit line) s = .next s ∧
      exec (.poisonRepair c line data pois tg) s = .next s) ∧
    (∀ f, s.frame (128 * line) = some f →
      (Map.get false s.pkg.seen line = true → exec (.versionScrubVisit line) s = .next s) ∧
      (Map.get false s.pkg.seen line = false → ∃ t, exec (.versionScrubVisit line) s = .next t ∧
        t = (s.visitLine f line).setPkg { s.pkg with seen := Map.set false s.pkg.seen line true } ∧
        Map.get false t.pkg.seen line = true ∧ t.mem = s.mem ∧
        (let l := s.setLeaf f.ctx line
         let st := (s.ctx f.ctx).step
         l ≤ 1 ∧ t.leaf line l = (if 2 ^ 14 ≤ (st.g - s.leaf line l).toNat then st.g else s.leaf line l) ∧
         t.leaf line (1 - l) = (if s.leaf line (1 - l) = st.t then st.t else st.g + 0x8000))) ∧
      (f.ctx ≠ c ∨ (s.ctx c).step.open_ = true → exec (.poisonRepair c line data pois tg) s = .next s) ∧
      (f.ctx = c → (s.ctx c).step.open_ = false →
        (∃ i < 4, s.poisAt (leafKey f (128 * line) (s.setLeaf c line) + 32 * i) = true) →
        let k := leafKey f (128 * line) (s.setLeaf c line)
        ∃ t, exec (.poisonRepair c line data pois tg) s = .next t ∧ t.mem = writeBytes s.mem k (bytesLE 128 data.toNat) ∧
          t.leaf line (s.setLeaf c line) = tg.att ∧ (∀ i < 8, t.tagAt (k + 16 * i) = tg.gran.toNat.testBit i) ∧ (∀ i < 4, t.poisAt (k + 32 * i) = pois.toNat.testBit i))) ∧
    (s.passDone = false → exec .scrubPassEnd s = .next s) ∧
    (s.passDone = true → ∃ t, exec .scrubPassEnd s = .next t ∧ t.pkg.pass = s.pkg.pass + 1 ∧ t.pkg.seen = [] ∧ t.mem = s.mem ∧
      (t.ctx c).lag = 0 ∧ (t.ctx c).step = (s.ctx c).step ∧
      (t.ctx c).dead = (s.ctx c).dead.filter (fun e => e.2 == some s.pkg.pass.toNat))

/-- R421, R428, R430 to R433: the Ethernet ports. A doorbell of the owner moves TAIL of an enabled ring, to 0 to SIZE descriptors ahead of HEAD
(how a TAIL says so is the model's reading, log entry 86), and counts where it may not; a frame is dropped where no ring takes its priority or no
descriptor is ready, and counted as bad with a wrong FCS; else its bytes are stored without the FCS, the descriptor is written back, HEAD moves on
and the frame is counted, once other peers have answered for what of it lies with them; a port without link sends and receives nothing. A frame that has left has been put on the wire and counted. -/
def Obligations.EthernetEvents : Prop :=
  ∀ (s : State) (w : Nat) (v : W64) (port : BitVec 4) (prio : BitVec 3) (b : Bool) (addrs : BitVec 96) (rest fcs : Bytes) (ring : BitVec 7),
    let fr := bytesLE 12 addrs.toNat ++ rest
    let rx := Instr.ethRxFrame port addrs rest fcs
    let p := s.port port.toNat
    let n := bitsOf v 0 7
    let r := s.ring n
    let t := bitsOf v 32 32
    let u := s.setPkg { s.pkg with ethdb := v }
    let ahead := t < r.size.toNat ∨ (r.head.toNat ≤ t ∧ t ≤ r.head.toNat + r.size.toNat)
    (s.pkg.owner.toNat ≠ w → exec (.ethdbWrite ⟨w, v⟩) s = .next s) ∧
    (s.pkg.owner.toNat = w → r.en = true → ahead →
      exec (.ethdbWrite ⟨w, v⟩) s = .next ((u.setRing n
        { r with tail := BitVec.ofNat 32 (t % r.size.toNat), full := t == r.head.toNat + r.size.toNat }).pausePort (n / 8))) ∧
    (s.pkg.owner.toNat = w → r.en = false ∨ ¬ahead →
      exec (.ethdbWrite ⟨w, v⟩) s = .next (u.setPort (n / 8) { s.port (n / 8) with db := (s.port (n / 8)).db + 1 })) ∧
    exec (.priorityFlowControlPause port prio b) s = .next (s.setPort port.toNat { p with
      paused := if b then p.paused ||| BitVec.ofNat 8 (2 ^ prio.toNat) else p.paused &&& ~~~(BitVec.ofNat 8 (2 ^ prio.toNat)) }) ∧
    (∃ t, exec (.ethLinkChange port b) s = .next t ∧ (∀ q : Fin 16, t.pkg.ethUp.getLsbD q = if q.val = port.toNat then b else
      s.pkg.ethUp.getLsbD q) ∧ t.mem = s.mem) ∧
    (s.pkg.ethUp.toNat.testBit port.toNat = false →
      exec rx s = .next s ∧ exec (.ethTxFrame port) s = .next s) ∧
    (s.pkg.ethUp.toNat.testBit port.toNat = true → 60 ≤ fr.length → fr.length ≤ 9212 → fcs.length = 4 →
      let pr := framePrio fr
      let dropped := s.setPort port.toNat { p with drop := p.drop + 1 }
      (fcs ≠ frameFcs fr → exec rx s = .next (s.setPort port.toNat { p with fcs := p.fcs + 1 })) ∧
      (fcs = frameFcs fr →
        (s.rxRing port.toNat pr = none → exec rx s = .next dropped) ∧
        (∀ q, s.rxRing port.toNat pr = some q → (s.ring q).rx.isSome → exec rx s = .next s) ∧
        (∀ q, s.rxRing port.toNat pr = some q → (s.ring q).rx = none → (s.ring q).ready = 0 → exec rx s = .next dropped) ∧
        (∀ q bs t u, s.rxRing port.toNat pr = some q → (s.ring q).rx = none → (s.ring q).ready ≠ 0 →
          let x := s.ring q
          s.readDesc q x.head.toNat = .ok bs → fr.length ≤ natLE ((bs.drop 8).take 4) →
          s.unitPut unitRight (s.ringAuth x) (natLE (bs.take 7)) fr true [] (whoRingW q) = (t, none) →
          let y : RxBusy := ⟨fr.length, pr, natLE ((bs.drop 16).take 1), false⟩
          (t.farOpen (whoRingW q) = true → exec rx s = .next (t.setRing q { x with rx := some y })) ∧
          (t.farOpen (whoRingW q) = false → let z := t.ring q
            t.unitPut unitRight (t.ringAuth z) (z.descVa z.head.toNat + 12)
              (bytesLE 4 fr.length ++ [BitVec.ofNat 8 (natLE ((bs.drop 16).take 1) ||| 1), BitVec.ofNat 8 pr]) true [] (whoRingW q) = (u, none) →
            exec rx s = .next (if u.farOpen (whoRingW q) then u.setRing q { u.ring q with rx := some { y with back := true } } else u.rxDone q))) ∧
        (∀ q, s.farOpen (whoRingW q) = false → s.farRefused (whoRingW q) = true → (s.ring q).en = true →
          s.ringAnswers q = (s.dropGot (whoRingW q)).ringStop q (s.ring q).head.toNat (if 4 ≤ q % 8 then 16 else 12) 0) ∧
        (∀ q, let x := s.ring q
          let v := s.setRing q { x.pass 1 with rx := none }
          let w := v.setPort (q / 8) { v.port (q / 8) with rxf := (v.port (q / 8)).rxf + 1 }
          s.rxDone q = (((if x.gv then w.addGauge ⟨true, x.ga⟩ 1 else w).dropGot (whoRing q)).ringRests q).pausePort (q / 8)))) ∧
    (s.pkg.ethUp.toNat.testBit port.toNat = true →
      ∀ q, ((List.range 4).map (fun i => 8 * port.toNat + (p.rr.toNat + i) % 4)).find? (fun n => (s.ring n).en && !(s.ring n).stop &&
          decide (((s.txBusy n).map TxBusy.n).foldl (· + ·) 0 < (s.ring n).ready) && decide (s.txTake n ≠ s)) = some q →
        exec (.ethTxFrame port) s = .next (s.txTake q)) ∧
    (s.txBusy ring.toNat = [] → exec (.ethTxComplete ring) s = .next s) ∧
    (∀ x l t, s.txBusy ring.toNat = x :: l →
      ((s.setTx ring.toNat l).frameLeaves (ring.toNat / 8) x).markDescs ring.toNat x.first x.n 12 (2 + if x.err then 4 else 0) =
        (t, none) →
      let q := t.ring ring.toNat
      let u := (t.setRing ring.toNat (q.pass x.n)).dropGot (whoRing ring.toNat)
      exec (.ethTxComplete ring) s = .next ((if q.gv then u.addGauge ⟨true, q.ga⟩ x.n else u).ringRests ring.toNat)) ∧
    (∀ x bs, x.sent = some bs → (s.frameLeaves port.toNat x).pkg.wire = s.pkg.wire ++ [(port.toNat, bs)] ∧
      ((s.frameLeaves port.toNat x).port port.toNat).txf = p.txf + 1)

/-- R398 to R401: rewards and time-outs of the Mortise. A reward is taken after the EPOPENs and EPSTEPs of the cores that are ready; it is refused
where the unit is off; without an open episode of its TID it is an orphan; a due time-out goes first, and then removes the episode, or zeroes
what is missing and completes it. -/
def Sys2Proof.Claims.EpisodeEvents : Prop :=
  ∀ (s : State) (tid : W64) (t : BitVec 12) (r : BitVec 32) (b : Bool), let m := s.pkg.mo
    (s.episodeDue.isSome → exec (.rewardArrival tid t r b) s = .next s) ∧
    (s.episodeDue = none →
      let d := s.moDrain (8 * s.allCores.length)
      let m := d.pkg.mo
      let next := fun u : State => exec (.rewardArrival tid t r b) s = .next (u.dropGot whoMo)
      (s.moNext = none → d = s) ∧
      (m.enabled = false → next (d.setMo { m with refuse := m.refuse + 1 })) ∧
      (m.enabled = true → m.find tid = none →
        next (d.setMo (if 1024 ≤ m.orph.length then { m with orpl := m.orpl + 1 }
          else { m with orph := m.orph ++ [⟨tid, t, r, b⟩], orphN := m.orphN + 1 }))) ∧
      (∀ k e, m.enabled = true → m.find tid = some (k, e) → e.st = .open_ → e.len ≤ t.toNat →
        next (d.setMo { m with refuse := m.refuse + 1 })) ∧
      (∀ k e, m.enabled = true → m.find tid = some (k, e) → e.st = .open_ → t.toNat < e.len →
        d.moBitAt e.rbmp t.toNat = .ok true →
        next (d.setMo { m with dup := m.dup + 1 })) ∧
      (∀ k e s1 s2 s3, m.enabled = true → m.find tid = some (k, e) → e.st = .open_ → t.toNat < e.len →
        d.moBitAt e.rbmp t.toNat = .ok false → d.moWrite (e.rwdp + 4 * t.toNat) (bytesLE 4 r.toNat) = (s1, none) →
        s1.moBit (e.rbmp + 512) t.toNat b = (s2, none) → s2.moBit e.rbmp t.toNat true = (s3, none) →
        next ((s3.setMo (s3.pkg.mo.put k (some { e with nrec := e.nrec + 1 }))).moCheck k)) ∧
      (d.reward ⟨tid, t, r, b⟩ = none → exec (.rewardArrival tid t r b) s = .next (s.rewardAsks ⟨tid, t, r, b⟩))) ∧
    (m.find tid = none → exec (.episodeTimeout tid) s = .next s) ∧
    (∀ k e, m.find tid = some (k, e) →
      (e.st ≠ .open_ ∨ e.deadline = 0 ∨ s.cyc < e.deadline.toNat → exec (.episodeTimeout tid) s = .next s) ∧
      (e.st = .open_ → e.deadline ≠ 0 → e.deadline.toNat ≤ s.cyc → bitsOf m.cfg 8 1 = 0 ∨ e.nval < e.len →
        exec (.episodeTimeout tid) s = .next (s.setMo { (m.put k none) with tout := m.tout + 1 })) ∧
      (∀ z, e.st = .open_ → e.deadline ≠ 0 → e.deadline.toNat ≤ s.cyc → bitsOf m.cfg 8 1 = 1 → e.len ≤ e.nval →
        s.zeroMissing e = some z → exec (.episodeTimeout tid) s = .next ((z.setMo
          { (z.pkg.mo.put k (some { e with st := .complete, tz := true, seq := z.pkg.mo.seq })) with
            seq := z.pkg.mo.seq + 1, tzr := z.pkg.mo.tzr + 1 }).dropGot whoMo)))

/-- R403, R404: PLANE_SCAN takes the episode that became complete first, and reads what it needs once; one whose inputs are poisoned or cannot be
read is dropped and counted; else its advantages and returns are written, once no page in transit stalls them, and it enters the window. -/
def Sys2Proof.Claims.PlaneScans : Prop :=
  ∀ s : State, let m := s.pkg.mo
    let drop := fun (t : State) k => t.setMo { (t.pkg.mo.put k none) with refuse := t.pkg.mo.refuse + 1, scan := none }
    (m.scan = none → m.oldest = none → exec .planeScan s = .next s) ∧
    (∀ k e, m.scan = none → m.oldest = some (k, e) →
      (s.planeIn e = .ok none → exec .planeScan s = .next (drop (s.dropGot whoPlane) k)) ∧
      (∀ x, s.planeIn e = .error (.trap x) → exec .planeScan s = .next (drop (s.dropGot whoPlane) k)) ∧
      (s.planeIn e = .error .wait → exec .planeScan s = .next s) ∧
      (∀ who pa, s.planeIn e = .error (.ask who pa) → exec .planeScan s = .next (s.askFar who pa m.ctx 1024 s.k)) ∧
      (∀ xs, s.planeIn e = .ok (some xs) →
        let last := (xs.getLast?.map PlaneIn.d).getD false
        let out := planeScan (bitsOf m.parm 0 32) (bitsOf m.parm 32 32) xs.reverse 0 (if last then 0 else e.boot.toNat)
        exec .planeScan s = exec .planeScan ((s.dropGot whoPlane).setMo { m with scan := some ⟨k, out, last⟩ }))) ∧
    (∀ x e, m.scan = some x → Map.get none m.table x.at_ = some e →
      let stalls := s.unitStalls unitRight s.moAuth e.advp (8 * x.out.length)
      let bytes := x.out.flatMap (fun p => bytesLE 4 p.1 ++ bytesLE 4 p.2)
      (stalls = true → exec .planeScan s = .next s) ∧
      (∀ t x', stalls = false → s.moWrite e.advp bytes = (t, some x') → exec .planeScan s = .next (drop t x.at_)) ∧
      (∀ t, stalls = false → s.moWrite e.advp bytes = (t, none) →
        exec .planeScan s = .next (let nf := x.out.any (fun p => !finite32 p.1 || !finite32 p.2)
          let y := { e with st := .windowed, nf := nf, term := x.last, win := t.cyc }
          t.setMo { (t.pkg.mo.put x.at_ (some y)) with scan := none })))

/-- R313, R413, R416, R417, R419: the Dovetail's entry at POS starts once a cycle's end has found that nothing holds it back; a cycle in which
it waits is counted under what does; one that would overflow the stash stops the table; the table ends when it has run out, no launch of it lives
and every slot is empty. -/
def Sys2Proof.Claims.DovetailEvents : Prop :=
  ∀ s : State,
    (let t := s.doveOwed.doveSettle
     let d := t.pkg.dv
     let e := d.entry d.pos
     (d.st ≠ 2 ∨ d.cur.isSome ∨ d.n ≤ d.pos → exec .dovetailEntryStart s = .next t) ∧
     (d.st = 2 → d.cur = none → d.pos < d.n →
       (t.doveBlock e = .overflow → exec .dovetailEntryStart s = .next (t.doveOverflow (some e))) ∧
       (t.doveBlock e ≠ .overflow → d.fired.isSome → exec .dovetailEntryStart s = .next (t.doveStart e)) ∧
       (t.doveBlock e ≠ .overflow → d.fired = none → exec .dovetailEntryStart s = .next t))) ∧
    (let t := s.doveSettle
     let d := t.pkg.dv
     let e := d.entry d.pos
     let count := fun n => t.setDove { d with bub := Map.set 0 d.bub n (Map.get 0 d.bub n + 1) }
     (d.st = 2 → d.cur = none → d.pos < d.n → d.fired = none →
       (t.doveBlock e = .none → s.doveCycle = t.setDove { d with fired := some t.cyc }) ∧
       (t.doveBlock e = .input → s.doveCycle = count (if dvKind e = 1 then 0 else 2)) ∧
       (t.doveBlock e = .free → s.doveCycle = count 1) ∧ (t.doveBlock e = .stash → s.doveCycle = count 3)) ∧
     (d.st ≠ 2 ∨ d.cur.isSome ∨ d.pos < d.n ∨ d.live ≠ [] → exec .dovetailTableEnd s = .next t) ∧
     (d.st = 2 → d.cur = none → d.n ≤ d.pos → d.live = [] →
       (d.slots = [] → exec .dovetailTableEnd s = .next (t.setDove { d with st := 3, ina := false })) ∧
       (d.slots ≠ [] → exec .dovetailTableEnd s = .next (t.doveOverflow none)) ∧
       (d.slots ≠ [] → d.owed = [] → (t.doveOverflow none).pkg.dv.st = 4 ∧ (t.doveOverflow none).pkg.dv.code = 0x1E)))

/-- R465, R467, R473: a collective is taken from the VC queue, reads its chunks while it may, each of them once, completes and adds to DONE when
all is done, what other peers have answered among it, and fails with code 5 after 2^28 cycles without a packet. -/
def Sys2Proof.Claims.CollectiveEvents : Prop :=
  ∀ (s : State) (id : Nat),
    (s.core.headOp .vc = none → exec .collectiveStart s = .next s) ∧
    (∀ o, s.core.headOp .vc = some o →
      (o.word.toNat / 256 = 0x70 → s.core.halt ≠ .freeze → exec .collectiveStart s = .next (s.takeColl o)) ∧
      (o.word.toNat / 256 ≠ 0x70 ∨ s.core.halt = .freeze → exec .collectiveStart s = .next s)) ∧
    (s.fab.got.filter (fun g => g.who == whoColl id) = [] → s.collAnswers id = s) ∧
    (s.collById id = none → exec (.collectiveChunkRead id) s = .next s ∧ exec (.collectiveTimeout id) s = .next s) ∧
    (let t := (s.collAnswers id).collGoesOn id
     (t.collById id = none → exec (.collectiveComplete id) s = .next t) ∧
     (∀ y, t.collById id = some y →
       exec (.collectiveComplete id) s = .next (if t.collDone y then (t.dropColl id).addField y.op.core (pbDone y.blk) 1 else t))) ∧
    (∀ x, s.collById id = some x →
      (s.collMayRead x = false → exec (.collectiveChunkRead id) s = .next s) ∧
      (s.collMayRead x = true →
        let off := x.cutAt x.read
        let n := x.cutAt (x.read + 1) - off
        let read := s.unitRead (bufRight x.src x.hs) x.op.auth (bufBase x.src x.hs + off) n (whoOp x.op)
        (∀ t, read = .error (.trap t) →
          exec (.collectiveChunkRead id) s = .next ((s.dropGot (whoOp x.op)).collFault x 6 (some t))) ∧
        (read = .error .wait → exec (.collectiveChunkRead id) s = .next s) ∧
        (∀ bs bad, read = .ok (bs, bad) → ∃ (t : State) (y : Coll), exec (.collectiveChunkRead id) s = .next (t.collAdvance y) ∧
          y.read = x.read + 1 ∧ y.id = x.id)) ∧
      (x.read = x.chunks → s.collDone x = false → x.last + 2 ^ 28 ≤ s.cyc →
        exec (.collectiveTimeout id) s = .next (s.collFault x 5)) ∧
      (s.cyc < x.last + 2 ^ 28 → exec (.collectiveTimeout id) s = .next s))

/-- R475, R477: a `vnsend` sends the next plane of a tile or starts its next tile, tiles starting in ascending order; a first plane that has
waited for an entry for 2^22 cycles is refused with a cancel; a tile word that has waited for 2^20 is an Engine Operand Fault. -/
def Sys2Proof.Claims.VeneerEvents : Prop :=
  ∀ (s : State) (id : Nat) (p : Packet),
    (s.fab.sends.find? (fun x => x.id == id) = none → exec (.veneerPlaneSend id) s = .next s) ∧
    (∀ x, s.fab.sends.find? (fun x => x.id == id) = some x →
      let ready := x.tiles.filter (fun t => !(s.planeTo t).isEmpty && x.mayGo t)
      let more := x.coll = none ∧ x.read < x.n
      (∀ t, x.mayGo t = true ↔ t.next ≠ 0 ∨ ∀ y ∈ x.tiles, y.next ≠ 0 ∨ t.t ≤ y.t) ∧
      (ready = [] → more → exec (.veneerPlaneSend id) s = .next (s.readTile x)) ∧
      (ready ≠ [] → ∃ u, exec (.veneerPlaneSend id) s = .next u ∧ ((∃ t ∈ ready, u = s.sendPlane x t) ∨ (more ∧ u = s.readTile x))) ∧
      (ready = [] → ¬more → exec (.veneerPlaneSend id) s = .next s)) ∧
    (s.fab.held.find? (fun e => e.pk == p) = none → exec (.veneerFirstPlaneTimeout p) s = .next s) ∧
    (∀ e, s.fab.held.find? (fun e => e.pk == p) = some e →
      (p.op = 0x13 → p.sub = 0 → e.at_ + 2 ^ 22 ≤ s.cyc → s.pkAge p ≠ .newer → s.vnRoom = none →
        exec (.veneerFirstPlaneTimeout p) s = .next
          ((s.setFab { s.fab with held := s.fab.held.filter (fun x => x != e), vconf := s.fab.vconf + 1 }).vnCancel p 0 |>.tileRefused p)) ∧
      (s.cyc < e.at_ + 2 ^ 22 ∨ s.vnRoom.isSome → exec (.veneerFirstPlaneTimeout p) s = .next s)) ∧
    (s.core.vcWait = none → exec .veneerEntryWaitDrop s = .next s) ∧
    (∀ t o, s.core.vcWait = some t → s.core.headOp .vc = some o →
      (s.cyc < t + 2 ^ 20 ∨ s.vnRoom.isSome → exec .veneerEntryWaitDrop s = .next s) ∧
      (t + 2 ^ 20 ≤ s.cyc → s.vnRoom = none → exec .veneerEntryWaitDrop s = .next
        ((s.setCore { (s.core.takeOp o) with vcWait := none }).reportOp o.li o.pid
          ⟨.engineOperandFault, 3, (o.args.headD ⟨0, .plain⟩).v⟩)))

/-- R445, R370, R500: what arrives. A packet for another device, or not the next of its flow, changes nothing; one that is not sound is
discarded and counted; behind a packet that waits for a newer attempt, or where its service must wait, it waits aside; else it is served. A
multicast copy that is to be passed on waits for room in the replication buffer, and at a device that is none of its destinations is passed on
only (R447). -/
def Sys2Proof.Claims.PacketsTaken : Prop :=
  ∀ (s : State) (p : Packet), ∀ e ∈ Claims.arrivals p,
    (p.dst ≠ s.peer → exec e.1 s = .next s) ∧
    (p.dst = s.peer → pkOk p = false ∨ opDefined p.op.toNat = false →
      exec e.1 s = .next (s.setFab { s.fab with disc := s.fab.disc + 1 })) ∧
    (Claims.sound s p → p.op.toNat ∈ e.2.1 →
      (p.seq ≠ Map.get 0 s.fab.seqIn (flowKey p.vc p.src) → exec e.1 s = .next s) ∧
      (p.seq = Map.get 0 s.fab.seqIn (flowKey p.vc p.src) →
        (s.replicate (s.mcOnward p) = none → exec e.1 s = .next s.mcWaits) ∧
        (∀ v, s.replicate (s.mcOnward p) = some v → p.mc ≠ [] → (∀ x ∈ p.mc, x.1 ≠ s.peer) → exec e.1 s = .next (Claims.passed v p)) ∧
        (p.mc = [] →
          let u := Claims.passed s p
          (u.flowHeld p = true → exec e.1 s = .next (u.hold p)) ∧
          (u.flowHeld p = false → e.2.2 u p = none → exec e.1 s = .next (u.hold p)) ∧
          (∀ t, u.flowHeld p = false → e.2.2 u p = some t → exec e.1 s = .next t))))

/-- R361, R362, R370, R441, R446: what the home of an access does. A range that it does not own answers Access Fault; a load of a versioned line for a newer
attempt waits, else it reads, and answers the granule tags too; a store needs VW on a versioned line, one of an older attempt is discarded but
answered, and a row of an EPIR that carries no attempt does not write one (R382). A request waits behind
an earlier operation of the same peer at its bytes that its engine has not yet performed, a write behind one of its class (R361, R362). -/
def Sys2Proof.Claims.HomeServes : Prop :=
  ∀ (s : State) (p : Packet),
    let own := s.homeRange p.ctx (pkLocal p)
    let n := p.sub.toNat + 1
    let free := s.behindDowel p = false
    (own n = false → s.serveLoad p = some (s.answer p 1 [] [])) ∧
    (own n = true → (s.pkVers p = true ∧ s.pkAge p = .newer) ∨ s.behindDowel p = true → s.serveLoad p = none) ∧
    (own n = true → free → s.pkVers p = false ∨ s.pkAge p ≠ .newer →
      s.serveLoad p = some (s.answer p 0 (s.vload (pkLocal p) n) (s.poisOfRange (pkLocal p) n) (s.tagsOfRange (pkLocal p) n))) ∧
    (p.op = 2 →
      (own (pkLength p) = false → s.serveWrite p = some (s.answer p 1 [] [])) ∧
      (own (pkLength p) = true → s.pkVers p = true →
        (s.pkAge p = .newer → s.serveWrite p = none) ∧
        (free → s.pkAge p = .older → s.serveWrite p = some (s.answer p 0 [] [])) ∧
        (free → s.pkAge p = .same → pkRow p = true → pkEpir p = false → s.serveWrite p = some (s.answer p 1 [] [])) ∧
        (free → s.pkAge p = .same → pkRow p = false ∨ pkEpir p = true → p.vw = false → s.serveWrite p = some (s.answer p 2 [] []))) ∧
      (own (pkLength p) = true → s.behindDowel p = true → s.serveWrite p = none) ∧
      (own (pkLength p) = true → free → p.mark = 0 → s.pkVers p = false ∨ (s.pkAge p = .same ∧ p.vw = true) →
        s.serveWrite p = some ((s.writePacket p).answer p 0 [] []))) ∧
    (p.op ≠ 2 → s.behindDowel p = true → s.serveWrite p = none) ∧
    (p.op ≠ 2 → free → s.pkVers p = false ∨ s.pkAge p ≠ .newer → ∃ o, s.serveWrite p = some (s.toDowel (stackOf (pkLocal p)) o) ∧ o.pk = p)

/-- R441, R442: an answer reaches who asked, once: a request that is not outstanding, or with another peer, drops it; one that comes after
2^22 cycles finds its request timed out. -/
def Sys2Proof.Claims.AnswersServed : Prop :=
  ∀ (s : State) (p : Packet),
    (Map.get none s.fab.req p.rid.toNat = none → s.serveAnswer p = some s) ∧
    (∀ r, Map.get none s.fab.req p.rid.toNat = some r →
      (s.standIn (BitVec.ofNat 12 (r.addr / 2 ^ 45)) ≠ p.src → s.serveAnswer p = some s) ∧
      (s.standIn (BitVec.ofNat 12 (r.addr / 2 ^ 45)) = p.src → r.sent + 2 ^ 22 ≤ s.cyc →
        s.serveAnswer p = some (s.timeOut p.rid.toNat r)) ∧
      (s.standIn (BitVec.ofNat 12 (r.addr / 2 ^ 45)) = p.src → s.cyc < r.sent + 2 ^ 22 → pkBytes p ≠ [] → s.serveAnswer p =
        some ((s.dropReq p.rid.toNat).dispatchAnswer r (pkBytes p) ((List.range 8).map (pkBad p))
          (statusTrap p.sub.toNat (BitVec.ofNat 64 r.addr)) p.gtag)) ∧
      Map.get none (s.dropReq p.rid.toNat).fab.req p.rid.toNat = none)

/-- R449 to R458: the engine of a stack performs the operation that is its turn: atomics and line atomics by DOWEL_OPERATION, handlers by
DOWEL_HANDLER; a handler that ends well writes its words as one unit and answers its result, and what a cluster holds dirty of the lines it
touches is written back first (R138, R450); the program loads word by word. -/
def Sys2Proof.Claims.DowelEvents : Prop :=
  ∀ (s : State) (st : BitVec 4) (c : Ctx),
    (s.dowelHead st.toNat = none → exec (.dowelOperation st) s = .next s ∧ exec (.dowelHandler st) s = .next s) ∧
    (∀ o, s.dowelHead st.toNat = some o →
      (o.pk.op ≠ 4 → exec (.dowelOperation st) s = .next (s.dowelAtomic st.toNat o) ∧ exec (.dowelHandler st) s = .next s) ∧
      (o.pk.op = 4 → exec (.dowelOperation st) s = .next s ∧
        (o.loc = none → s.homeOk o.pk.ctx (pkLocal o.pk) = false → exec (.dowelHandler st) s =
          .next ((s.dowelDrop st.toNat o).dowelReply o 1 0 true)) ∧
        (∀ v r, o.loc.isSome ∨ s.homeOk o.pk.ctx (pkLocal o.pk) = true →
          let prog := Map.get [] (s.gctx o.pk.ctx).prog (o.pk.sub.toNat % 32)
          prog ≠ [] → s.hrun ⟨o.pk, st.toNat, prog⟩ 258 (hstart o s.peer) = .ok (v, r) →
          let read := r.rd.foldl (fun s x => s.clean (s.homeKey x.toNat)) (s.clean (s.pkKey o.pk))
          exec (.dowelHandler st) s = .next (((r.wr.foldl (fun s w => (s.clean (s.homeKey w.1.toNat)).vstore (s.homeKey w.1.toNat)
            (bytesLE 8 w.2.toNat) false) read).dowelDone st.toNat o).dowelReply o 0 v false)))) ∧
    ((s.gctx c).hload = none → exec (.handlerLoadComplete c) s = .next s) ∧
    (∀ h, (s.gctx c).hload = some h → h.words.length = h.n → (∀ w ∈ h.words, hdefined w.toNat = true) →
      ∃ t, exec (.handlerLoadComplete c) s = .next t ∧ (t.gctx c).hload = none ∧ (t.gctx c).herr = 0 ∧
        Map.get [] (t.gctx c).prog h.hn.toNat = h.words ++ List.replicate (64 - h.words.length) hfail0)

/-- R439, R440: the links. A replay counts; a lost lane or wavelength takes a spare of its fibre first, then the fibre runs on fewer; a global
link has a fibre for each direction, and one that fails is replaced by a spare fibre of the device, or lost; a link with nothing left one way is
down; an absent link stays absent. -/
def Sys2Proof.Claims.LinkEvents : Prop :=
  ∀ (s : State) (gl : Bool) (n : BitVec 7) (fib rx : Bool), let l := s.linkOf gl n.toNat
    let here := if rx then l.rx else l.tx
    let swap := exec (.laneSwap gl n (if fib then .fibre rx else .lane rx)) s
    let put := fun (s : State) (f : Fibre → Fibre) (sfb : Bool) =>
      let tx := if gl = true ∧ rx = true then l.tx else f l.tx
      let rx := if gl = true ∧ rx = false then l.rx else f l.rx
      let whole := if gl = true then 32 else 16
      s.setLinkOf gl n.toNat ⟨l.rty, tx, rx, sfb, if min tx.n rx.n = 0 then 0 else if min tx.n rx.n < whole then 2 else 1⟩
    (l.st = 3 → exec (.flitReplay gl n) s = .next s ∧ swap = .next s ∧ exec (.linkDown gl n) s = .next s) ∧
    (l.st ≠ 3 →
      exec (.flitReplay gl n) s = .next (s.setLinkOf gl n.toNat { l with rty := l.rty + 1 }) ∧
      exec (.linkDown gl n) s = .next (s.setLinkOf gl n.toNat { l with tx := ⟨0, 0⟩, rx := ⟨0, 0⟩, st := 0 }) ∧
      (here.n = 0 → swap = .next s) ∧
      (here.n ≠ 0 → fib = false ∨ gl = false →
        swap = .next (put s (fun f => if 0 < f.sp then ⟨f.n, f.sp - 1⟩ else ⟨f.n - 1, f.sp⟩) l.sfb)) ∧
      (here.n ≠ 0 → fib = true → gl = true → 0 < s.fab.spf →
        swap = .next (put (s.setFab { s.fab with spf := s.fab.spf - 1 }) (fun _ => ⟨32, 2⟩) true)) ∧
      (here.n ≠ 0 → fib = true → gl = true → s.fab.spf = 0 → swap = .next (put s (fun _ => ⟨0, 0⟩) l.sfb)))

/-- R487 to R492: votes. A device that is quiescent votes once its live children have, with the union of their flags and their count, while no
Dovetail table is inside the attempt (R412); a device with a veto votes within 64 cycles, for itself alone, unless a debugger holds a piece of
the attempt (R293); after 2^32 cycles without every child's vote it sets FAULT and votes. -/
def Sys2Proof.Claims.VotesSent : Prop :=
  ∀ (s : State) (c : Ctx), let g := s.gctx c
    (s.domRank c = none → ∀ i ∈ [Instr.voteSend c, .vetoVote c, .voteWaitTimeout c], exec i s = .next s) ∧
    (∀ me, s.domRank c = some me →
      let vs := s.counted c me
      let all := (g.children me).all (fun r => vs.any (fun v => v.rank == r))
      let cnt := 1 + (vs.map Vote.cnt).foldl (· + ·) 0
      (g.st = 4 → g.voted = false → s.doveIn c = false → all = true → exec (.voteSend c) s = .next (s.sendVote c me cnt (s.unionVf c vs))) ∧
      (g.st ≠ 4 ∨ g.voted = true ∨ s.doveIn c = true ∨ all = false → exec (.voteSend c) s = .next s) ∧
      (s.gluState c = 2 → g.vetoed = false → me ≠ g.root → s.stepHeld c = false → ∃ t, exec (.vetoVote c) s = .next t ∧ (t.gctx c).vetoed = true ∧
        t.mem = s.mem) ∧
      (s.gluState c ≠ 2 ∨ g.vetoed = true ∨ me = g.root ∨ s.stepHeld c = true → exec (.vetoVote c) s = .next s) ∧
      (s.gluState c = 2 → g.vetoed = false → me ≠ g.root → s.stepHeld c = false → g.vfAt ≠ 0 → g.vfAt + 63 ≤ s.cyc →
        .next (s.vetoDue c me) = exec (.vetoVote c) s) ∧
      (g.st = 4 → g.closedAt + 2 ^ 32 ≤ s.cyc → g.voted = false → all = false →
        exec (.voteWaitTimeout c) s = .next (let t := s.veto c vFault; t.sendVote c me cnt (t.unionVf c vs))) ∧
      (g.st ≠ 4 ∨ s.cyc < g.closedAt + 2 ^ 32 ∨ g.voted = true ∨ all = true → exec (.voteWaitTimeout c) s = .next s))

/-- R490, R493, R494: decisions. The acting root aborts with a veto or a loss, and commits when every rank has voted and it is quiescent; a
decision that changes tags commits or aborts the attempt: T moves on, G takes T of a commit; STATE 5 follows. While a debugger holds a piece
of the attempt, nothing is decided (R293). -/
def Sys2Proof.Claims.Decisions : Prop :=
  ∀ (s : State) (c : Ctx) (me : Nat), s.domRank c = some me → let g := s.gctx c
    let st := (s.ctx c).step
    let vf := g.votes.foldl (fun f v => f ||| v.vf) (if st.open_ then st.vf else 0)
    let full := (s.counted c me).map Vote.cnt |>.foldl (· + ·) 0
    (me ≠ g.nextRoot ∨ g.st = 5 ∨ g.st = 7 ∨ g.cut = true ∨ s.stepHeld c = true → exec (.rootDecision c) s = .next s) ∧
    (me = g.nextRoot → g.st ≠ 5 → g.st ≠ 7 → g.cut = false → s.stepHeld c = false →
      (st.open_ = true → vf ≠ 0 ∨ g.notices ≠ [] →
        exec (.rootDecision c) s = .next (s.applyDecision c ⟨st.k, st.t, vf, false, g.notices, true, false⟩)) ∧
      (st.open_ = true → vf = 0 → g.notices = [] → g.st = 4 → s.gluQuiet c = true → full = g.nm - 1 →
        exec (.rootDecision c) s = .next (s.applyDecision c ⟨st.k, st.t, 0, true, [], true, false⟩)) ∧
      (st.open_ = true → vf = 0 → g.notices = [] → g.st ≠ 4 ∨ s.gluQuiet c = false ∨ full ≠ g.nm - 1 →
        exec (.rootDecision c) s = .next s) ∧
      (st.open_ = false → g.votes = [] → g.notices = [] → exec (.rootDecision c) s = .next s))

/-- R384, R80: the tags of a context after a decision: T moves on, a commit makes the attempt's tag G and lets the loss mean take effect, an
abort lists the tag as dead. -/
def Sys2Proof.Claims.TagsDecided : Prop :=
  ∀ (r : CtxRec) (commit : Bool) (pass : Nat), let q := r.decided commit pass
    q.step.t = r.step.t + 1 ∧ q.step.open_ = false ∧ q.step.closed = false ∧ q.lag = r.lag + 1 ∧
    (commit = true → q.step.g = r.step.t ∧ q.dead = r.dead ∧ (∀ m, r.step.lossPend = some m → q.lossrun = BitVec.ofNat 64 m.toNat)) ∧
    (commit = false → q.step.g = r.step.g ∧ Map.get none q.dead r.step.t.toNat = some pass ∧ q.lossrun = r.lossrun)

/-- R489, R494, R503, R507: a device leaves STATE 5 once every effect of the decision is done, repairs among them, and what it must read of the
fill table has come: to 6 where a loss waits for its fill, else to 0, or to 7 where the aborts have reached their limit; the acting root halts the
domain where nothing else is left. -/
def Sys2Proof.Claims.DecidedStateLeft : Prop :=
  ∀ (s : State) (c : Ctx), let g := s.gctx c
    (g.st ≠ 5 ∨ (s.pkg.mo.ctx = c ∧ s.pkg.mo.await.isSome) ∨ (g.corrAbort = true ∧ s.poisonedLeaves c ≠ []) ∨
      ((g.corrAbort = true ∨ g.lost ≠ []) ∧ (s.tableAway c).isSome) → exec (.decidedStateExit c) s = .next s) ∧
    (g.st = 5 → s.pkg.mo.await = none → g.corrAbort = false ∨ s.poisonedLeaves c = [] → s.tableAway c = none →
      (bitsOf g.gdec 16 1 = 1 → g.lost ≠ [] → exec (.decidedStateExit c) s = .next ((s.setGctx c { g with st := 6 }).startFills c)) ∧
      (bitsOf g.gdec 16 1 = 0 ∨ g.lost = [] →
        exec (.decidedStateExit c) s = .next (s.leaveTo0 c) ∧
        (g.alim ≠ 0 → g.alim ≤ g.abrt.toNat → ((s.leaveTo0 c).gctx c).st = 7) ∧
        (g.alim = 0 ∨ g.abrt.toNat < g.alim → (s.ctx c).step.wait = false →
          s.leaveTo0 c = s.setGctx c { g with st := 0 }))) ∧
    (s.domRank c = some g.root → s.tableAway c = none → s.mustHalt c = true → exec (.checkpointPathHalt c) s =
      .next (s.applyDecision c ⟨(s.ctx c).step.k, (s.ctx c).step.t, 0, false, [], false, true⟩)) ∧
    (s.domRank c ≠ some g.root ∨ (s.tableAway c).isSome ∨ s.mustHalt c = false → exec (.checkpointPathHalt c) s = .next s)

/-- R491, R501: keep-alives go to the parent and to each child; a child not heard from for 2^20 cycles, or that voted for another step, is declared
lost; a device that has heard from no ancestor for 2^20 cycles halts and falls silent. -/
def Sys2Proof.Claims.LossEvents : Prop :=
  ∀ (s : State) (c : Ctx) (r : BitVec 12), let g := s.gctx c
    (s.domRank c = none → ∀ i ∈ [Instr.keepAliveSend c, .declareLost c r, .ancestorSilenceHalt c], exec i s = .next s) ∧
    (∀ me, s.domRank c = some me →
      (∃ t, exec (.keepAliveSend c) s = .next t ∧ t.mem = s.mem ∧ (t.gctx c).kaAt = s.cyc ∧
        (g.cut = false → t.fab.out.length = s.fab.out.length + (g.parent me).toList.length + (g.children me).length)) ∧
      (r.toNat ∈ g.children me → g.heardAt r.toNat + 2 ^ 20 ≤ s.cyc ∨ s.badVote c r.toNat = true → exec (.declareLost c r) s = .next (s.declare c r.toNat)) ∧
      (r.toNat ∉ g.children me → exec (.declareLost c r) s = .next s) ∧
      (g.parent me = none → exec (.ancestorSilenceHalt c) s = .next s) ∧
      (∀ q, g.parent me = some q →
        ((∀ x ∈ q :: ancestors 4 me, g.heardAt x + 2 ^ 20 ≤ s.cyc) →
          exec (.ancestorSilenceHalt c) s = .next (s.setGctx c { g with st := 7, cut := true })) ∧
        (s.cyc < g.heardAt q + 2 ^ 20 → exec (.ancestorSilenceHalt c) s = .next s)))

/-- R500, R505: a fill that is complete at the spare: the lost peer's number is the spare's from now on, the rank is no longer lost, and every
live member is told; nothing at a device that is no spare of a fill. -/
def Sys2Proof.Claims.FillEvents : Prop :=
  ∀ (s : State) (c : Ctx) (f : Fill),
    (s.fab.fills.find? (fun f => f.ctx == c && f.spare == s.peer) = none → exec (.fillComplete c) s = .next s) ∧
    (s.fab.subs.length < 16 → s.fab.subs.any (fun x => x.old == f.lost) = false →
      (s.fillEnds f).fab.subs = s.fab.subs ++ [⟨f.lost, f.spare⟩]) ∧
    f.rank.toNat ∉ ((s.fillEnds f).gctx f.ctx).lost ∧ (s.fillEnds f).mem = s.mem ∧
    (s.fab.fills.find? (fun f => f.ctx == c && f.spare == s.peer) = some f → (s.tableAway c).isSome → exec (.fillComplete c) s = .next s) ∧
    (s.fab.fills.find? (fun f => f.ctx == c && f.spare == s.peer) = some f → s.tableAway c = none → s.pkg.mo.ctx ≠ c → s.pkg.dv.ctx ≠ c →
      s.framesOf c true = [] → s.framesOf c false = [] → ∃ t, exec (.fillComplete c) s = .next t ∧ t.mem = s.mem ∧
        t.fab.subs = ((s.takeContext c).fillEnds f).fab.subs)

/-- R498: a unit of a replaying context that has held an event back for 2^26 cycles without the logged one diverges: the replay ends, FAULT is set
and the next attempt only records; no unit diverges before, or in a context that does not replay. `sheld` is the cycle in which the hold began,
plus 1. -/
def Sys2Proof.Claims.ScribeDiverges : Prop :=
  ∀ (s : State) (c : Ctx) (k u : BitVec 8),
    let since := Map.get 0 (s.gctx c).sheld (k.toNat * 256 + u.toNat)
    (s.source c = none ∨ since = 0 ∨ s.cyc + 1 < since + 2 ^ 26 → exec (.scribeDivergence c k u) s = .next s) ∧
    ((s.source c).isSome → since ≠ 0 → since + 2 ^ 26 ≤ s.cyc + 1 → ∃ t, exec (.scribeDivergence c k u) s = .next t ∧ (t.gctx c).sdiv = true ∧ (t.gctx c).sbar = true ∧ (t.gctx c).dkind = k ∧
      (t.gctx c).dunit = u ∧ (t.gctx c).rpl = false ∧ (t.ctx c).step.vf = (s.ctx c).step.vf ||| vFault ∧ t.mem = s.mem)

/-- R33 to R36 with R24: what the words of the spec's own worked examples (01 R23, 03, 04, 05, 07, 08) stand for, in each cluster; a word of zeros is
none in any of them. -/
def Obligations.ExampleWords : Prop :=
  decodeWord .s 0x04400010 0 = some ⟨false, .addi 8 0 16⟩ ∧ decodeWord .s 0xC8092000 0 = some ⟨true, .sQpush 1 9⟩ ∧
  decodeWord .s 0x025944A0 0 = some ⟨false, .clmul 11 10 9⟩ ∧ decodeWord .s 0x44201201 0 = none ∧
  decodeWord .s 0x3468000A 0 = some ⟨false, .sLoop 13 10⟩ ∧
  decodeWord .a 0x04288100 0 = some ⟨false, .aaddi 5 4 256⟩ ∧ decodeWord .a 0xAC406008 0 = some ⟨true, .ld64 4 0 3 8⟩ ∧
  decodeWord .a 0x62000000 0x401E0102 = some ⟨false, .eng 0 0x0102 0x401E⟩ ∧
  decodeWord .v 0x0DC62000 0 = some ⟨false, .vfmul 56 49 0 0 0⟩ ∧ decodeWord .v 0x70D00004 0 = some ⟨false, .loopr 1 true 2 4⟩ ∧
  decodeWord .m 0x06801200 0 = some ⟨false, .mma 1 0 0 1 1 false⟩ ∧ decodeWord .m 0x10008100 0 = some ⟨false, .epi 0 1 0 true false 0⟩ ∧
  ∀ c : Cl, decodeWord c 0 0 = none

/-- R19, R24: decoding the words of a well-formed instruction, with the sync bit it may have, gives it back. Every operand stands at every value
its encoding admits. Scalar and matrix clusters. -/
def Sys2Proof.Claims.DecodeEncodeScalarMatrix : Prop :=
  ∀ (w : SlotWord), w.i.cl = some .s ∨ w.i.cl = some .m → w.i.wf = true → w.i.syncOk w.y = true →
    ∃ (c : Cl) (n : BitVec 32), w.i.cl = some c ∧ encode w = [n] ∧ ∀ p, decodeWord c n.toNat p = some w

/-- R19, R24, R30: the same of the access and vector clusters, with the payload word of ENG. -/
def Sys2Proof.Claims.DecodeEncodeAccessVector : Prop :=
  ∀ (w : SlotWord), w.i.cl = some .a ∨ w.i.cl = some .v → w.i.wf = true → w.i.syncOk w.y = true →
    ∃ (c : Cl) (n p : BitVec 32), w.i.cl = some c ∧ encode w = n :: (if w.i.words = 2 then [p] else []) ∧
      ∀ q, (w.i.words = 2 → q = p.toNat) → decodeWord c n.toNat q = some w

/-- R20, R32: when a cluster's turn has come and the word at its program counter is to issue alone, a step runs the instruction that the word
decodes to, counts the attempt, and moves the free values on; a word that decodes to none is an Illegal Word. Where the word traps, the trap
of this cycle at the first cluster in the order S, A, V, M is taken (09 R276). In the rotation as in a turn of the agenda. -/
def Obligations.StepRunsDecodedWord : Prop :=
  ∀ (s : State) (k : Cl) (w p : W32),
    let ready (t : State) : Prop := t.mayIssue = true ∧ t.reportDue = false ∧ t.canTry k = true ∧ t.fetch k = .ok (w, p) ∧ t.syncBit k w = false
    let out (u t : State) : State := if t.core.hasTrapped then u.firstTrap.getD (t.settleWord k) else t.settleWord k
    (∀ x i t, s.agenda = [] → s.rota = clCode k → ready { s with rota := clCode k + 1 } → decodeWord k w.toNat p.toNat = some ⟨x, i⟩ →
      exec i (State.present { s with rota := clCode k + 1 } k w p noBundle) = .next t →
      step s = .next (out { s with rota := clCode k + 1 } t).bump) ∧
    (∀ t, s.agenda = [] → s.rota = clCode k → ready { s with rota := clCode k + 1 } → decodeWord k w.toNat p.toNat = none →
      issue k (State.present { s with rota := clCode k + 1 } k w p noBundle)
        ((State.present { s with rota := clCode k + 1 } k w p noBundle).illegal k) = .next t →
      step s = .next (out { s with rota := clCode k + 1 } t).bump) ∧
    (∀ c r x i t, s.agenda = .issue c k :: r → c < 384 → ready (State.focus { s with agenda := r } c) →
      decodeWord k w.toNat p.toNat = some ⟨x, i⟩ →
      exec i ((State.focus { s with agenda := r } c).present k w p noBundle) = .next t →
      step s = .next ((out (State.focus { s with agenda := r } c) t).focus s.k).bump)

/-- What the spec gives for reset (R13, R79, R93, R102, R166, R298, R309, R329, R394, R410, R422, R427, R434, R440, R497). -/
def Obligations.ResetValues : Prop :=
  Safety.Inv State.reset ∧ State.reset.cyc = 0 ∧ State.reset.core.pc.run = false ∧ State.reset.core.pc.rngstr = 1 ∧
  State.reset.core.pc.vwin = 0 ∧ State.reset.core.pc.vt = 0 ∧ State.reset.core.pc.erchk = 0 ∧ State.reset.core.pc.fpst = 0 ∧
  State.reset.core.pc.l1cfg = 0 ∧ State.reset.core.pc.tvec = 0 ∧ State.reset.core.pc.tcause = 0 ∧ State.reset.core.pc.mgrant = 0 ∧
  (∀ c : Ctx, (State.reset.ctx c).losslim = 0x7F800000 ∧ (State.reset.ctx c).lossrun = 0 ∧ (State.reset.ctx c).rngseed = 0 ∧
    (State.reset.ctx c).step.g = 0 ∧ (State.reset.ctx c).step.t = 1 ∧ (State.reset.ctx c).step.k = 0 ∧ (State.reset.ctx c).step.vf = 0 ∧
    (State.reset.gctx c).scrcfg = 8 ∧ (State.reset.gctx c).st = 0) ∧
  (∀ c b : Nat, (State.reset.bank c b).mode = 0) ∧ (∀ g : Gauge, State.reset.gauge g = 0) ∧
  State.reset.pkg.owner = 0xFF ∧ State.reset.pkg.pend = 0xFF ∧ State.reset.pkg.bootst = 0 ∧ State.reset.pkg.pcap = 5000 ∧
  State.reset.pkg.mhz = 1900 ∧ State.reset.pkg.mo.lag = 0x7FFFFFFF00000000 ∧ State.reset.pkg.dv.nst = 64 ∧ State.reset.fab.spf = 16

/-- R2, R126 and the model's form of memory: the bytes of a store are what a load of them reads, every other byte, tag and poison bit stands as
before, the granules stored to lose their tags, and the tables stay in canonical form. -/
def Obligations.StoresAndLoads : Prop :=
  ∀ (s : State) (k : Nat) (bs : Bytes) (bad : Bool),
    (s.store k bs bad).load k bs.length = bs ∧
    (∀ a, a < k ∨ k + bs.length ≤ a → readByte (s.store k bs bad).mem a = readByte s.mem a) ∧
    (∀ g, (g ∈ unitsOf 16 k bs.length → (s.store k bs bad).tagAt (16 * g) = false) ∧
      (g ∉ unitsOf 16 k bs.length → (s.store k bs bad).tagAt (16 * g) = s.tagAt (16 * g))) ∧
    (∀ u, u ∉ unitsOf 32 k bs.length → (s.store k bs bad).poisAt (32 * u) = s.poisAt (32 * u)) ∧
    (Safety.Inv s → Safety.Inv (s.store k bs bad))

/-- R22, R98: a step in which a cluster tries to issue leaves every byte, tag and poison bit of memory as it was, whatever word stands at the
program counter, alone or in a bundle, and whether it issues, waits or traps: memory changes only where an access or an engine performs. So
such a step keeps the canonical form. -/
def Obligations.IssueStepsKeepMemory : Prop :=
  ∀ s t : State, step s = .next t →
    (s.agenda = [] ∧ s.rota < 4 ∨ ∃ c k r, s.agenda = .issue c k :: r) →
    t.mem = s.mem ∧ t.tags = s.tags ∧ t.pois = s.pois ∧ (Safety.Inv s → Safety.Inv t)

/-! ## Statements of several parts -/

/-- g0 and a0 read as zero and null and discard writes; a register whose bound has passed reads as it stands, and as Poison Consumed when poisoned; an earlier read is a free value or Early Read; a write reads back and changes no other register. -/
def Obligations.RegisterAccess : Prop :=
  Claims.ScalarRegisterRead ∧
  Claims.ScalarRegisterWrite ∧
  Claims.CapabilityRegisterRead

/-- A register word of S changes at most one g register, the cursor and loop count of S and FPST, and clears no flag; one of A at most one a register and the cursor and loop of A; a word of V that issues, but END, at most rows, masks, queues, VT, the window, the generator coordinate, the flags and the cursor and loop of V. None changes a byte of memory. -/
def Obligations.WordFrames : Prop :=
  Claims.ScalarFrame ∧
  Claims.CapabilityFrame ∧
  Claims.VectorFrame

/-- A word of S whose operand traps takes that trap and does nothing else; a lane word of V with an active lane that reads poison takes Poison Consumed and does nothing else. -/
def Obligations.OperandTraps : Prop :=
  Claims.ScalarOperandTraps ∧
  Claims.VectorPoison

/-- Each branch of S goes to its address plus four times its offset when its condition holds and to the next word when not; CALL and JALR write the link; BQT and BQF pop one outcome. -/
def Obligations.ScalarBranches : Prop :=
  Claims.ScalarBranches ∧
  Claims.BranchTargets

/-- S BFOL has no effect: Illegal Word with Y = 0, Bundle Mismatch with Y = 1; JALR is no branch word; BFOL of A, V and M takes the outcome of the branch of S in its bundle, and traps where there is none. -/
def Obligations.BfolWords : Prop :=
  Claims.BfolOfSTraps ∧
  Claims.BfolFollowsS

/-- LOOP traps while a loop is active, leaves the body out for a count of zero, and sets the loop up for any other; the word of S at LE - 4 ends an iteration. -/
def Obligations.CountedLoops : Prop :=
  Claims.LoopWords ∧
  Claims.CountedLoopOfS

/-- With a handler that may run, TCAUSE, TADDR, EPC and TPC take their values, S stands at TVEC and issues no earlier than four cycles later, and the other clusters, the g registers and memory stay; with none, the piece ends as faulted and its launch is frozen. -/
def Obligations.TrapEntry : Prop :=
  Claims.TrapEntersHandler ∧
  Claims.TrapEndsPiece

/-- TRAP raises Software Trap with its immediate as detail and p + 4 in EPC; ERET resumes S at EPC and the others where they stopped, and is an Illegal Word outside a handler. -/
def Obligations.TrapReturn : Prop :=
  Claims.EretResumes ∧
  Claims.TrapWord

/-- END makes its cluster inactive and drops the queues it consumes; END of S inside a step waits until the piece is quiescent; with the last cluster the piece ends. EARLY marks the piece once and its launch waits for the writes before it. -/
def Obligations.EndAndEarlyWords : Prop :=
  Claims.EndWords ∧
  Claims.EarlyWord

/-- CSRR writes the register to g[d], or a free value within the csr bound of a write; CSRW, CSRS and CSRC modify it without its reserved bits; an access that is not allowed is an Illegal Word; eight registers of the piece hold what is written to them. -/
def Obligations.ControlRegisterWords : Prop :=
  Claims.CsrReads ∧
  Claims.CsrWrites ∧
  Claims.PieceRegistersWritten

/-- The queue words move one entry; a full or empty queue stalls them; an entry can be popped from the cycle after its push. -/
def Obligations.QueueWordsComplete : Prop :=
  Claims.QueueWords ∧
  Claims.QueueRules

/-- WAITC, WAITG and WAITL go on once what they wait for holds, and stall until then; an arrival at a barrier counts once or is refused with Barrier Fault, and the piece goes on when its round has completed; BAR.F outside a bundle or without a word of A traps. -/
def Obligations.WaitsAndBarriers : Prop :=
  Claims.WaitWords ∧
  Claims.BarrierWords

/-- STEPBEG joins the open attempt, STEPVOTE sets flags of it and STEPEND leaves it once the piece is quiescent, or they raise Step State; LOSSCHK writes its verdict, inside a step sets the flag of a spike and keeps the new mean for the commit, and outside one updates LOSSRUN. -/
def Obligations.StepAndLossWords : Prop :=
  Claims.StepWords ∧
  Claims.LossCheck

/-- The words of A on capabilities issue and write their function; a changed cursor keeps the tag exactly when it stays in the representable window. -/
def Obligations.CapabilityWords : Prop :=
  Claims.CapabilityWords ∧
  Claims.CursorChange

/-- They grant the rounded bounds inside the source or raise Capability Fault. -/
def Obligations.BoundsWords : Prop :=
  Claims.BoundsWords ∧
  Claims.BoundsGrant

/-- A load that passes its checks reserves an entry of its queue, a store takes its value from its queue, and each waits as a pending access; from or to a FIFO bank the bytes move at once; a store waits while the forwarding table is full. -/
def Obligations.LoadsAndStoresIssue : Prop :=
  Claims.LoadWordsIssue ∧
  Claims.StoreWordsIssue

/-- LDC waits to perform, or reads core scratch, or stores before it, at once; STC of a tagged value needs sc, and gb of the value in space 0; GATH and SCAT queue one access for each active lane. -/
def Obligations.TransfersIssue : Prop :=
  Claims.CapabilityTransfers ∧
  Claims.GatherAndScatter

/-- ATOM and both forms of RATOM take their operands, reserve the entry of a result and become one pending access; a poisoned operand of a built-in atomic traps; LATOM becomes one pending access for each of its lines. -/
def Obligations.AtomicsIssue : Prop :=
  Claims.AtomicWordsIssue ∧
  Claims.LineAtomicIssues

/-- A prefetch only moves on; FENCE.C enters the order of A; BANKSET checks its capability and asks the bank for a mode; BUSY and IDLE put the change of the in-use bits of their blocks at the end of cycle c + 2. -/
def Obligations.FencesAndBanks : Prop :=
  Claims.FenceAndPrefetch ∧
  Claims.BankAndBlockWords

/-- The branches of A and V go where their condition says; BPUB publishes its outcome to S, V and M and goes with it. -/
def Obligations.AccessAndVectorBranches : Prop :=
  Claims.AccessBranches ∧
  Claims.VectorBranches

/-- The mask words write their function to a mask register, where m0 stays; VSETT sets VT; VPOP takes a row or one entry, repeated; VPUSH sends a row or its first eight bytes. -/
def Obligations.MaskAndQueueWords : Prop :=
  Claims.MaskWords ∧
  Claims.VectorQueueWords

/-- LOOPR sets its loop up, leaves the body out for a count of zero, or raises Loop Fault; the last word of the body moves the stage predicates up and rotates the window; under a stage predicate of zeros a word of V only moves on. -/
def Obligations.PipelinedLoops : Prop :=
  Claims.LooprWord ∧
  Claims.LooprIteration ∧
  Claims.StageGating

/-- ISET, IADD, CLAMP, FREE, SHAPE and REP complete with the effects of their rules; a grant is the request rounded up and limited. -/
def Obligations.MatrixIndexWords : Prop :=
  Claims.MatrixBranches ∧
  Claims.MatrixIndexWords ∧
  Claims.ShapeGrants ∧
  Claims.RepWord

/-- TZERO, TMOV, MMA and MMAS wait for their resources, pop their format word and compute the rows of R219; a stamp names one cycle. -/
def Obligations.MatrixProducts : Prop :=
  Claims.TileWords ∧
  Claims.MatrixProducts ∧
  Claims.StampCycle ∧
  Claims.ProductRows

/-- ENG decodes both engine words, checks the a registers and the depth of the stack, waits behind an open FENCE.C with a launch word, and then both take effect in order, or neither; the stack words change the entries on top as named. -/
def Obligations.EngineWords : Prop :=
  Claims.EngineWords ∧
  Claims.EngineStackWords

/-- The event of a write of LC, a gauge, MOLAG, MOICUR, DWLOAD, COLLGRP, GLUCFG, FILLB, SCRCFG, SCRR or SCRH has the effect of a CSRW of that register, or none where the word would trap or wait. -/
def Obligations.RegisterWriteEvents : Prop :=
  Claims.RegisterWriteEvents ∧
  Claims.SystemRegistersWritten

/-- A copy starts when its turn and cycle have come and then leaves its queue; its chunks land in the cluster at their cycles, the sectors of a promise one by one; a promise missed is reported; the sectors of a gather's rows land in the order of their line, those of a scatter after every row before them. -/
def Obligations.CopiesAndGathers : Prop :=
  Claims.CopyStarts ∧
  Claims.CopyChunks ∧
  Claims.PromiseSectors ∧
  Claims.GatherRows

/-- An engine takes the operation at the head of its queue unless the core is frozen; a glnote adds when the attempt is decided; GADD adds after every earlier operation of its queue; a stop that has become true puts its operation into its queue. -/
def Obligations.EngineOperations : Prop :=
  Claims.EngineTakes ∧
  Claims.GaddAndStops

/-- The flags of a product are set when its hold on the tile has passed; an output of EPI or XPOSE that is due is seen whole or discarded whole with Landing Conflict; a row of EPIR performs once the epilogue has read it. -/
def Obligations.LandingsAndFlags : Prop :=
  Claims.ProductFlags ∧
  Claims.OutputsSeen ∧
  Claims.EpilogueRows

/-- A pending access performs once its order allows it, a remote one leaves the device then; a walk makes its pages known; a copy that has been stalled for 2^20 cycles stops with Translation Fault; a remote access without an answer for 2^22 cycles fails. -/
def Obligations.AccessesPerform : Prop :=
  Claims.AccessesPerform ∧
  Claims.TranslationEvents ∧
  Claims.RemoteTimeout

/-- A barrier whose round has moved on releases the piece; a deadlock and a report trap, and the watchdog is reported; EARLY is reached once the writes before it have performed; core scratch and banks switch; a core fails; scrubbing counts and poisons; a frame is retired. -/
def Obligations.PieceAndBankEvents : Prop :=
  Claims.PieceEvents ∧
  Claims.EarlyPoint ∧
  Claims.CoreScratchSwitch ∧
  Claims.CoreFails ∧
  Claims.BankSwitches ∧
  Claims.ScrubAndRetire

/-- LOOP, IF, WAITG, SIGNAL, FENCE, WRITE and HALT have their effects or fault their stream; a command in a part that does not run is passed over; a deferred SIGNAL waits for the launches before it. -/
def Obligations.StreamCommands : Prop :=
  Claims.StreamRules ∧
  Claims.StreamControl ∧
  Claims.StreamEffects ∧
  Claims.DeferredSignals

/-- LAUNCH and LAUNCHI are accepted, wait, or fault their stream; a launch becomes ready or is cancelled, is promoted, retires or ends as faulted; its end frees its index. -/
def Obligations.LaunchLife : Prop :=
  Claims.LaunchCommands ∧
  Claims.LaunchAcceptance ∧
  Claims.LaunchEvents ∧
  Claims.LaunchEnds

/-- STEPOPEN opens an attempt with the gauges saved and STEPCLOSE closes it and waits for the decision, or they fault their stream; a decision moves T on, makes the tag of a commit G and lists that of an abort as dead; STATE 5 is left as R494 says. -/
def Obligations.Attempts : Prop :=
  Claims.StepCommands ∧
  Claims.AttemptOpens ∧
  Claims.TagsDecided ∧
  Claims.DecidedStateLeft

/-- A core that is not free, or that no launch has a piece for, starts none; the piece chosen starts with the registers of R13 and R339 and core scratch of zeros; what pre-emption does with its victim. -/
def Obligations.PieceScheduling : Prop :=
  Claims.PieceChoice ∧
  Claims.PieceStarts ∧
  Claims.Preemption

/-- CLAIM, GIVE, ACCEPT, RELEASE and a lost link move ownership; a request of another master is discarded, and the requests of the owner that are named are done, or refused with nothing changed but the status; a page is marked only under the conditions of R383; a reset starts the boot, which goes phase by phase. -/
def Obligations.OwnerAndPages : Prop :=
  Claims.OwnerRequests ∧
  Claims.MarkingPages ∧
  Claims.Ownership

/-- A debugger halts, resumes, writes and ends a piece under the conditions of R290 to R293; the clock goes to steps of 25 MHz with the power at or below CAP, and lower while a cluster is hot, and one that reaches 115 °C shuts the device down; a visit of the version scrub renews the tag of the set leaf and parks the other, a pass ends when every line was visited, and a repair writes a poisoned set leaf with its tags and poison. -/
def Obligations.DebugPowerScrub : Prop :=
  Claims.DebugRequests ∧
  Claims.PowerAndHeat ∧
  Claims.VersionScrub

/-- Rewards reach their episode, wait as orphans, or are refused, after the operations of the cores in the cycle; a due episode times out; PLANE_SCAN takes the episode completed first and reads its inputs once; the entry at POS starts once the end of a cycle has found that nothing holds it back, what holds it back is counted, and the table ends. -/
def Obligations.MortiseAndDovetail : Prop :=
  Claims.EpisodeEvents ∧
  Claims.PlaneScans ∧
  Claims.DovetailEvents

/-- A collective is taken from its queue, reads each of its chunks once while it may, completes, or fails after 2^28 cycles without a packet; a vnsend reads a tile or sends a plane; a first plane or a tile word that has waited too long for an entry is dropped. -/
def Obligations.CollectivesAndVeneer : Prop :=
  Claims.CollectiveEvents ∧
  Claims.VeneerEvents

/-- A packet is served in the order of its flow, waits aside, or is discarded; a multicast copy is passed on as well; the home of an access reads, writes or answers a fault; an answer reaches who asked once, and not after 2^22 cycles; the engine of a stack performs the operation whose turn it is; links replay, lose lanes and go down. -/
def Obligations.FabricEvents : Prop :=
  Claims.PacketsTaken ∧
  Claims.HomeServes ∧
  Claims.AnswersServed ∧
  Claims.DowelEvents ∧
  Claims.LinkEvents

/-- A device votes when its children have and it is quiescent, and with a veto within 64 cycles; the acting root decides; a child unheard for 2^20 cycles is declared lost and a device without ancestors falls silent; a fill replaces a peer; a divergence ends the replay. -/
def Obligations.GlueUpAndLosses : Prop :=
  Claims.VotesSent ∧
  Claims.Decisions ∧
  Claims.LossEvents ∧
  Claims.FillEvents ∧
  Claims.ScribeDiverges

/-- For every well-formed instruction of a slot cluster, with every value its fields admit and every sync bit it may have, the decoder of its cluster reads it back from its words. -/
def Obligations.DecodeEncode : Prop :=
  Claims.DecodeEncodeScalarMatrix ∧
  Claims.DecodeEncodeAccessVector
end

