-- ==== Sys2Proof/Laws/Maps.lean ====
section
/-! SUPPORT. Sparse tables and memory: read after write, and the canonical form. -/
namespace Sys2Proof.Machine

/-! ## Lists of pairs in key order -/

/-- Every key is above `k`. -/
def keysAbove {α : Type} (k : Nat) (m : List (Nat × α)) : Prop := ∀ e ∈ m, k < e.1

/-- Keys strictly rising. -/
def rising {α : Type} : List (Nat × α) → Prop
  | [] => True
  | e :: r => keysAbove e.1 r ∧ rising r

theorem keysAbove_mono {α : Type} {j k : Nat} {m : List (Nat × α)} (h : keysAbove k m) (hj : j ≤ k) : keysAbove j m :=
  fun e he => Nat.lt_of_le_of_lt hj (h e he)

/-! ## Sparse tables -/

@[simp] theorem Map.get_nil {α : Type} (d : α) (k : Nat) : Map.get d [] k = d := rfl

theorem Map.get_above {α : Type} (d : α) {m : Map α} {k : Nat} (h : keysAbove k m) : Map.get d m k = d := by
  induction m with
  | nil => rfl
  | cons e r ih =>
    obtain ⟨j, v⟩ := e
    have hj : k < j := h (j, v) (by simp)
    have : ¬ j = k := by omega
    simp only [Map.get, this, if_false]
    exact ih (fun x hx => h x (by simp [hx]))

theorem Map.get_erase_same {α : Type} (d : α) (m : Map α) (k : Nat) : Map.get d (m.erase k) k = d := by
  induction m with
  | nil => rfl
  | cons e r ih =>
    obtain ⟨j, v⟩ := e
    by_cases h : j = k <;> simp [Map.erase, Map.get, h, ih]

theorem Map.get_erase_other {α : Type} (d : α) (m : Map α) {k j : Nat} (h : j ≠ k) :
    Map.get d (m.erase k) j = Map.get d m j := by
  induction m with
  | nil => rfl
  | cons e r ih =>
    obtain ⟨i, v⟩ := e
    by_cases h1 : i = k
    · have : ¬ i = j := by omega
      simp [Map.erase, Map.get, h1, ih, h.symm]
    · simp [Map.erase, Map.get, h1, ih]

theorem Map.get_insert_same {α : Type} (d v : α) (m : Map α) (k : Nat) (h : ∀ e ∈ m, e.1 ≠ k) :
    Map.get d (Map.insert k v m) k = v := by
  induction m with
  | nil => simp [Map.insert, Map.get]
  | cons e r ih =>
    obtain ⟨j, w⟩ := e
    have hj : j ≠ k := h (j, w) (by simp)
    by_cases h1 : k < j
    · simp [Map.insert, h1, Map.get]
    · simp [Map.insert, h1, Map.get, hj, ih (fun x hx => h x (by simp [hx]))]

theorem Map.get_insert_other {α : Type} (d v : α) (m : Map α) {k j : Nat} (h : j ≠ k) :
    Map.get d (Map.insert k v m) j = Map.get d m j := by
  induction m with
  | nil => simp [Map.insert, Map.get, h.symm]
  | cons e r ih =>
    obtain ⟨i, w⟩ := e
    by_cases h1 : k < i
    · simp [Map.insert, h1, Map.get, h.symm]
    · simp [Map.insert, h1, Map.get, ih]

theorem Map.erase_keys {α : Type} (m : Map α) (k : Nat) : ∀ e ∈ m.erase k, e.1 ≠ k := by
  induction m with
  | nil => simp [Map.erase]
  | cons e r ih =>
    obtain ⟨j, v⟩ := e
    by_cases h : j = k
    · simpa [Map.erase, h] using ih
    · intro x hx
      simp only [Map.erase, h, if_false, List.mem_cons] at hx
      rcases hx with rfl | hx
      · exact h
      · exact ih x hx

/-- A read after a write to the same key. -/
@[simp] theorem Map.get_set_same {α : Type} [DecidableEq α] (d v : α) (m : Map α) (k : Nat) :
    Map.get d (Map.set d m k v) k = v := by
  by_cases h : v = d
  · simp [Map.set, h, Map.get_erase_same]
  · simp [Map.set, h, Map.get_insert_same d v _ k (Map.erase_keys m k)]

/-- A write leaves every other key alone. -/
@[simp] theorem Map.get_set_other {α : Type} [DecidableEq α] (d v : α) (m : Map α) {k j : Nat} (h : j ≠ k) :
    Map.get d (Map.set d m k v) j = Map.get d m j := by
  by_cases hv : v = d
  · simp [Map.set, hv, Map.get_erase_other d m h]
  · simp [Map.set, hv, Map.get_insert_other d v _ h, Map.get_erase_other d m h]

/-- The canonical form, said with `rising`. -/
theorem Map.wf_iff {α : Type} [DecidableEq α] (d : α) (m : Map α) :
    Map.wf d m = true ↔ rising m ∧ ∀ e ∈ m, e.2 ≠ d := by
  induction m with
  | nil => simp [Map.wf, rising]
  | cons e r ih =>
    obtain ⟨j, v⟩ := e
    cases r with
    | nil => simp [Map.wf, rising, keysAbove]
    | cons e2 r2 =>
      obtain ⟨k, w⟩ := e2
      simp only [Map.wf, Bool.and_eq_true, bne_iff_ne, decide_eq_true_eq, ih]
      constructor
      · rintro ⟨⟨hv, hjk⟩, hr, hne⟩
        refine ⟨⟨?_, hr⟩, ?_⟩
        · intro x hx
          rcases List.mem_cons.1 hx with rfl | hx
          · exact hjk
          · exact Nat.lt_trans hjk (hr.1 x hx)
        · intro x hx
          rcases List.mem_cons.1 hx with rfl | hx
          · exact hv
          · exact hne x hx
      · rintro ⟨⟨ha, hr⟩, hne⟩
        exact ⟨⟨hne (j, v) (by simp), ha (k, w) (by simp)⟩, hr, fun x hx => hne x (List.mem_cons_of_mem _ hx)⟩

theorem Map.erase_subset {α : Type} (m : Map α) (k : Nat) : ∀ e ∈ m.erase k, e ∈ m := by
  induction m with
  | nil => simp [Map.erase]
  | cons e r ih =>
    obtain ⟨j, v⟩ := e
    intro x hx
    by_cases h : j = k
    · simp only [Map.erase, h, if_true] at hx
      exact List.mem_cons_of_mem _ (ih x hx)
    · simp only [Map.erase, h, if_false, List.mem_cons] at hx
      rcases hx with rfl | hx
      · exact List.mem_cons_self
      · exact List.mem_cons_of_mem _ (ih x hx)

theorem Map.rising_erase {α : Type} {m : Map α} (k : Nat) (h : rising m) : rising (m.erase k) := by
  induction m with
  | nil => exact h
  | cons e r ih =>
    obtain ⟨j, v⟩ := e
    by_cases hj : j = k
    · simpa [Map.erase, hj] using ih h.2
    · simp only [Map.erase, hj, if_false]
      exact ⟨fun x hx => h.1 x (Map.erase_subset r k x hx), ih h.2⟩

theorem Map.insert_mem {α : Type} {m : Map α} {k : Nat} {v : α} {e : Nat × α} (h : e ∈ Map.insert k v m) :
    e = (k, v) ∨ e ∈ m := by
  induction m with
  | nil => simpa [Map.insert] using h
  | cons x r ih =>
    obtain ⟨j, w⟩ := x
    by_cases hk : k < j
    · simpa [Map.insert, hk] using h
    · simp only [Map.insert, hk, if_false, List.mem_cons] at h
      rcases h with rfl | h
      · exact .inr List.mem_cons_self
      · rcases ih h with h | h
        · exact .inl h
        · exact .inr (List.mem_cons_of_mem _ h)

theorem Map.rising_insert {α : Type} {m : Map α} {k : Nat} (v : α) (h : rising m) (hk : ∀ e ∈ m, e.1 ≠ k) :
    rising (Map.insert k v m) := by
  induction m with
  | nil => exact ⟨by intro x hx; simp at hx, trivial⟩
  | cons e r ih =>
    obtain ⟨j, w⟩ := e
    have hj : j ≠ k := hk (j, w) (by simp)
    by_cases h1 : k < j
    · simp only [Map.insert, h1, if_true]
      refine ⟨?_, h⟩
      intro x hx
      rcases List.mem_cons.1 hx with rfl | hx
      · exact h1
      · exact Nat.lt_trans h1 (h.1 x hx)
    · simp only [Map.insert, h1, if_false]
      refine ⟨?_, ih h.2 (fun x hx => hk x (by simp [hx]))⟩
      intro x hx
      rcases Map.insert_mem hx with rfl | hx
      · show j < k
        omega
      · exact h.1 x hx

/-- A write keeps the canonical form. -/
theorem Map.wf_set {α : Type} [DecidableEq α] {d : α} {m : Map α} (k : Nat) (v : α) (h : Map.wf d m = true) :
    Map.wf d (Map.set d m k v) = true := by
  rw [Map.wf_iff] at h ⊢
  by_cases hv : v = d
  · simp only [Map.set, hv, if_true]
    exact ⟨Map.rising_erase k h.1, fun e he => h.2 e (Map.erase_subset m k e he)⟩
  · simp only [Map.set, hv, if_false]
    refine ⟨Map.rising_insert v (Map.rising_erase k h.1) (Map.erase_keys m k), ?_⟩
    intro e he
    rcases Map.insert_mem he with rfl | he
    · exact hv
    · exact h.2 e (Map.erase_subset m k e he)

/-- Dropping entries keeps the canonical form. -/
theorem Map.wf_filter {α : Type} [DecidableEq α] {d : α} {m : Map α} (p : Nat × α → Bool) (h : Map.wf d m = true) :
    Map.wf d (m.filter p) = true := by
  rw [Map.wf_iff] at h ⊢
  refine ⟨?_, fun e he => h.2 e (List.mem_filter.1 he).1⟩
  have hr := h.1
  clear h
  induction m with
  | nil => exact hr
  | cons e r ih =>
    by_cases hp : p e
    · simp only [List.filter_cons, hp, if_true]
      exact ⟨fun x hx => hr.1 x (List.mem_filter.1 hx).1, ih hr.2⟩
    · simpa [List.filter_cons, hp] using ih hr.2

/-- A table with every value changed reads as the changed value, where a default stays the default. -/
theorem Map.get_mapVals {α : Type} [DecidableEq α] (d : α) (f : α → α) (hd : f d = d) (m : Map α) (k : Nat) :
    Map.get d (Map.mapVals d f m) k = f (Map.get d m k) := by
  induction m with
  | nil => exact hd.symm
  | cons e r ih =>
    show Map.get d (Map.set d (Map.mapVals d f r) e.1 (f e.2)) k = f (if e.1 = k then e.2 else Map.get d r k)
    by_cases h : e.1 = k
    · subst h; simp
    · rw [Map.get_set_other d _ _ (fun h' => h h'.symm), if_neg h, ih]

/-- It is in canonical form. -/
theorem Map.wf_mapVals {α : Type} [DecidableEq α] (d : α) (f : α → α) (m : Map α) : Map.wf d (Map.mapVals d f m) = true := by
  induction m with
  | nil => rfl
  | cons e r ih => exact Map.wf_set e.1 (f e.2) ih

/-! ## Memory: a table of bytes whose default is what an unlisted byte reads as -/

theorem readByte_eq (m : List Host.Cell) (k : Nat) : readByte m k = Map.get memDefault m k := by
  induction m with
  | nil => rfl
  | cons e r ih =>
    obtain ⟨j, v⟩ := e
    simp only [readByte, Map.get, ih]

theorem eraseByte_eq (m : List Host.Cell) (k : Nat) : eraseByte m k = Map.erase m k := by
  induction m with
  | nil => rfl
  | cons e r ih =>
    obtain ⟨j, v⟩ := e
    simp only [eraseByte, Map.erase, ih]

theorem insertByte_eq (k : Nat) (v : Byte) (m : List Host.Cell) : insertByte k v m = Map.insert k v m := by
  induction m with
  | nil => rfl
  | cons e r ih =>
    obtain ⟨j, w⟩ := e
    simp only [insertByte, Map.insert, ih]

theorem writeByte_eq (m : List Host.Cell) (k : Nat) (v : Byte) : writeByte m k v = Map.set memDefault m k v := by
  simp only [writeByte, Map.set, eraseByte_eq, insertByte_eq]

theorem Memory.wf_eq (m : List Host.Cell) : Memory.wf m = Map.wf memDefault m := by
  induction m with
  | nil => rfl
  | cons e r ih =>
    obtain ⟨j, v⟩ := e
    cases r with
    | nil => rfl
    | cons e2 r2 =>
      obtain ⟨k, w⟩ := e2
      simp only [Memory.wf, Map.wf, ih]

/-- A byte read after it was written. -/
@[simp] theorem readByte_writeByte_same (m : List Host.Cell) (k : Nat) (v : Byte) : readByte (writeByte m k v) k = v := by
  simp [readByte_eq, writeByte_eq]

/-- A byte elsewhere is unchanged. -/
@[simp] theorem readByte_writeByte_other (m : List Host.Cell) {k j : Nat} (v : Byte) (h : j ≠ k) :
    readByte (writeByte m k v) j = readByte m j := by
  simp [readByte_eq, writeByte_eq, h]

/-- A byte write keeps the canonical form. -/
theorem Memory.wf_writeByte {m : List Host.Cell} (k : Nat) (v : Byte) (h : Memory.wf m = true) :
    Memory.wf (writeByte m k v) = true := by
  rw [Memory.wf_eq] at h ⊢
  rw [writeByte_eq]
  exact Map.wf_set k v h

/-- A write of bytes keeps the canonical form. -/
theorem Memory.wf_writeBytes {m : List Host.Cell} (k : Nat) (bs : Bytes) (h : Memory.wf m = true) :
    Memory.wf (writeBytes m k bs) = true := by
  induction bs generalizing m k with
  | nil => exact h
  | cons b r ih => exact ih (k + 1) (Memory.wf_writeByte k b h)

/-- Forgetting bytes keeps the canonical form. -/
theorem Memory.wf_filter {m : List Host.Cell} (p : Host.Cell → Bool) (h : Memory.wf m = true) :
    Memory.wf (m.filter p) = true := by
  rw [Memory.wf_eq] at h ⊢
  exact Map.wf_filter p h

/-- Bytes outside those written are unchanged. -/
theorem readByte_writeBytes_out (m : List Host.Cell) (k j : Nat) (bs : Bytes) (h : j < k ∨ k + bs.length ≤ j) :
    readByte (writeBytes m k bs) j = readByte m j := by
  induction bs generalizing m k with
  | nil => rfl
  | cons b r ih =>
    simp only [List.length_cons] at h
    rw [writeBytes, ih _ _ (by omega), readByte_writeByte_other _ _ (by omega)]

/-- A byte written reads back. -/
theorem readByte_writeBytes_in (m : List Host.Cell) (k i : Nat) (bs : Bytes) (h : i < bs.length) :
    readByte (writeBytes m k bs) (k + i) = bs[i] := by
  induction bs generalizing m k i with
  | nil => simp at h
  | cons b r ih =>
    cases i with
    | zero => simp [writeBytes, readByte_writeBytes_out]
    | succ i =>
      have := ih (writeByte m k b) (k + 1) i (by simpa using h)
      simpa [writeBytes, Nat.add_assoc, Nat.add_comm 1 i] using this

/-! ## Every operation on memory keeps its form -/

/-- A write of plain data. -/
theorem State.wf_store (s : State) (k : Nat) (bs : Bytes) (bad : Bool) (h : Memory.wf s.mem = true) :
    Memory.wf (s.store k bs bad).mem = true := Memory.wf_writeBytes k bs h

theorem State.setTag_mem (s : State) (k : Nat) (t : Bool) : (s.setTag k t).mem = s.mem := rfl

/-- A fold of updates none of which touches memory. -/
theorem foldl_mem {α : Type} (f : State → α → State) (hf : ∀ s x, (f s x).mem = s.mem) (l : List α) (s : State) :
    (l.foldl f s).mem = s.mem := by
  induction l generalizing s with
  | nil => rfl
  | cons x r ih => simp only [List.foldl_cons, ih, hf]

/-- Making a dry leaf. -/
theorem State.wf_makeDry (s : State) (f : Frame) (line : Nat) (h : Memory.wf s.mem = true) :
    Memory.wf (s.makeDry f line).mem = true := by
  simp only [State.makeDry]
  split
  · exact h
  · dsimp only
    rw [foldl_mem, foldl_mem]
    · exact Memory.wf_writeBytes _ _ h
    · intro s x
      rfl
    · intro s x
      rfl

theorem State.wf_writeKey (s : State) (k : Nat) (h : Memory.wf s.mem = true) : Memory.wf (s.writeKey k).1.mem = true := by
  unfold State.writeKey
  split
  · exact h
  · split
    · exact h
    · exact State.wf_makeDry s _ _ h

/-- A write through the versions. -/
theorem State.wf_vstore (s : State) (k : Nat) (bs : Bytes) (bad : Bool) (h : Memory.wf s.mem = true) :
    Memory.wf (s.vstore k bs bad).mem = true := by
  unfold State.vstore
  generalize linePieces _ 0 k bs.length = l
  induction l generalizing s with
  | nil => exact h
  | cons p r ih => exact ih _ (State.wf_store _ _ _ _ (State.wf_writeKey s _ h))

/-- The memory at reset. -/
theorem reset_mem_wf : Memory.wf State.reset.mem = true := rfl

end Sys2Proof.Machine
end

