-- ==== Sys2Proof/Laws/State.lean ====
section
/-! SUPPORT. One lemma for each field under each update of State, so that no proof unfolds a record update. -/
namespace Sys2Proof.Machine

/-! ## setCore -/

@[simp] theorem State.setCore_cyc (s : State) (x : Core) : (s.setCore x).cyc = s.cyc := rfl
@[simp] theorem State.setCore_nonce (s : State) (x : Core) : (s.setCore x).nonce = s.nonce := rfl
@[simp] theorem State.setCore_nextId (s : State) (x : Core) : (s.setCore x).nextId = s.nextId := rfl
@[simp] theorem State.setCore_k (s : State) (x : Core) : (s.setCore x).k = s.k := rfl
@[simp] theorem State.setCore_others (s : State) (x : Core) : (s.setCore x).others = s.others := rfl
@[simp] theorem State.setCore_agenda (s : State) (x : Core) : (s.setCore x).agenda = s.agenda := rfl
@[simp] theorem State.setCore_rota (s : State) (x : Core) : (s.setCore x).rota = s.rota := rfl
@[simp] theorem State.setCore_mem (s : State) (x : Core) : (s.setCore x).mem = s.mem := rfl
@[simp] theorem State.setCore_tags (s : State) (x : Core) : (s.setCore x).tags = s.tags := rfl
@[simp] theorem State.setCore_pois (s : State) (x : Core) : (s.setCore x).pois = s.pois := rfl
@[simp] theorem State.setCore_frames (s : State) (x : Core) : (s.setCore x).frames = s.frames := rfl
@[simp] theorem State.setCore_leafTag (s : State) (x : Core) : (s.setCore x).leafTag = s.leafTag := rfl
@[simp] theorem State.setCore_walks (s : State) (x : Core) : (s.setCore x).walks = s.walks := rfl
@[simp] theorem State.setCore_shr (s : State) (x : Core) : (s.setCore x).shr = s.shr := rfl
@[simp] theorem State.setCore_die (s : State) (x : Core) : (s.setCore x).die = s.die := rfl
@[simp] theorem State.setCore_ctxs (s : State) (x : Core) : (s.setCore x).ctxs = s.ctxs := rfl
@[simp] theorem State.setCore_peer (s : State) (x : Core) : (s.setCore x).peer = s.peer := rfl
@[simp] theorem State.setCore_pkg (s : State) (x : Core) : (s.setCore x).pkg = s.pkg := rfl
@[simp] theorem State.setCore_fab (s : State) (x : Core) : (s.setCore x).fab = s.fab := rfl
@[simp] theorem State.setCore_past (s : State) (x : Core) : (s.setCore x).past = s.past := rfl
@[simp] theorem State.setCore_turns (s : State) (x : Core) : (s.setCore x).turns = s.turns := rfl
@[simp] theorem State.setCore_core (s : State) (x : Core) : (s.setCore x).core = x := rfl

/-! ## setPiece -/

@[simp] theorem State.setPiece_cyc (s : State) (x : Piece) : (s.setPiece x).cyc = s.cyc := rfl
@[simp] theorem State.setPiece_nonce (s : State) (x : Piece) : (s.setPiece x).nonce = s.nonce := rfl
@[simp] theorem State.setPiece_nextId (s : State) (x : Piece) : (s.setPiece x).nextId = s.nextId := rfl
@[simp] theorem State.setPiece_k (s : State) (x : Piece) : (s.setPiece x).k = s.k := rfl
@[simp] theorem State.setPiece_others (s : State) (x : Piece) : (s.setPiece x).others = s.others := rfl
@[simp] theorem State.setPiece_agenda (s : State) (x : Piece) : (s.setPiece x).agenda = s.agenda := rfl
@[simp] theorem State.setPiece_rota (s : State) (x : Piece) : (s.setPiece x).rota = s.rota := rfl
@[simp] theorem State.setPiece_mem (s : State) (x : Piece) : (s.setPiece x).mem = s.mem := rfl
@[simp] theorem State.setPiece_tags (s : State) (x : Piece) : (s.setPiece x).tags = s.tags := rfl
@[simp] theorem State.setPiece_pois (s : State) (x : Piece) : (s.setPiece x).pois = s.pois := rfl
@[simp] theorem State.setPiece_frames (s : State) (x : Piece) : (s.setPiece x).frames = s.frames := rfl
@[simp] theorem State.setPiece_leafTag (s : State) (x : Piece) : (s.setPiece x).leafTag = s.leafTag := rfl
@[simp] theorem State.setPiece_walks (s : State) (x : Piece) : (s.setPiece x).walks = s.walks := rfl
@[simp] theorem State.setPiece_shr (s : State) (x : Piece) : (s.setPiece x).shr = s.shr := rfl
@[simp] theorem State.setPiece_die (s : State) (x : Piece) : (s.setPiece x).die = s.die := rfl
@[simp] theorem State.setPiece_ctxs (s : State) (x : Piece) : (s.setPiece x).ctxs = s.ctxs := rfl
@[simp] theorem State.setPiece_peer (s : State) (x : Piece) : (s.setPiece x).peer = s.peer := rfl
@[simp] theorem State.setPiece_pkg (s : State) (x : Piece) : (s.setPiece x).pkg = s.pkg := rfl
@[simp] theorem State.setPiece_fab (s : State) (x : Piece) : (s.setPiece x).fab = s.fab := rfl
@[simp] theorem State.setPiece_past (s : State) (x : Piece) : (s.setPiece x).past = s.past := rfl
@[simp] theorem State.setPiece_turns (s : State) (x : Piece) : (s.setPiece x).turns = s.turns := rfl
@[simp] theorem State.setPiece_core_pc (s : State) (x : Piece) : (s.setPiece x).core.pc = x := rfl
@[simp] theorem State.setPiece_core_cs (s : State) (x : Piece) : (s.setPiece x).core.cs = s.core.cs := rfl
@[simp] theorem State.setPiece_core_ca (s : State) (x : Piece) : (s.setPiece x).core.ca = s.core.ca := rfl
@[simp] theorem State.setPiece_core_cv (s : State) (x : Piece) : (s.setPiece x).core.cv = s.core.cv := rfl
@[simp] theorem State.setPiece_core_cm (s : State) (x : Piece) : (s.setPiece x).core.cm = s.core.cm := rfl
@[simp] theorem State.setPiece_core_g (s : State) (x : Piece) : (s.setPiece x).core.g = s.core.g := rfl
@[simp] theorem State.setPiece_core_a (s : State) (x : Piece) : (s.setPiece x).core.a = s.core.a := rfl
@[simp] theorem State.setPiece_core_m (s : State) (x : Piece) : (s.setPiece x).core.m = s.core.m := rfl
@[simp] theorem State.setPiece_core_i (s : State) (x : Piece) : (s.setPiece x).core.i = s.core.i := rfl
@[simp] theorem State.setPiece_core_tiles (s : State) (x : Piece) : (s.setPiece x).core.tiles = s.core.tiles := rfl
@[simp] theorem State.setPiece_core_hold (s : State) (x : Piece) : (s.setPiece x).core.hold = s.core.hold := rfl
@[simp] theorem State.setPiece_core_qs (s : State) (x : Piece) : (s.setPiece x).core.qs = s.core.qs := rfl
@[simp] theorem State.setPiece_core_qr (s : State) (x : Piece) : (s.setPiece x).core.qr = s.core.qr := rfl
@[simp] theorem State.setPiece_core_shape (s : State) (x : Piece) : (s.setPiece x).core.shape = s.core.shape := rfl
@[simp] theorem State.setPiece_core_slot (s : State) (x : Piece) : (s.setPiece x).core.slot = s.core.slot := rfl
@[simp] theorem State.setPiece_core_slotPois (s : State) (x : Piece) : (s.setPiece x).core.slotPois = s.core.slotPois := rfl
@[simp] theorem State.setPiece_core_slotSeed (s : State) (x : Piece) : (s.setPiece x).core.slotSeed = s.core.slotSeed := rfl
@[simp] theorem State.setPiece_core_use (s : State) (x : Piece) : (s.setPiece x).core.use = s.core.use := rfl
@[simp] theorem State.setPiece_core_usePend (s : State) (x : Piece) : (s.setPiece x).core.usePend = s.core.usePend := rfl
@[simp] theorem State.setPiece_core_array (s : State) (x : Piece) : (s.setPiece x).core.array = s.core.array := rfl
@[simp] theorem State.setPiece_core_epiUnit (s : State) (x : Piece) : (s.setPiece x).core.epiUnit = s.core.epiUnit := rfl
@[simp] theorem State.setPiece_core_permute (s : State) (x : Piece) : (s.setPiece x).core.permute = s.core.permute := rfl
@[simp] theorem State.setPiece_core_land (s : State) (x : Piece) : (s.setPiece x).core.land = s.core.land := rfl
@[simp] theorem State.setPiece_core_shown (s : State) (x : Piece) : (s.setPiece x).core.shown = s.core.shown := rfl
@[simp] theorem State.setPiece_core_epir (s : State) (x : Piece) : (s.setPiece x).core.epir = s.core.epir := rfl
@[simp] theorem State.setPiece_core_route (s : State) (x : Piece) : (s.setPiece x).core.route = s.core.route := rfl
@[simp] theorem State.setPiece_core_routePend (s : State) (x : Piece) : (s.setPiece x).core.routePend = s.core.routePend := rfl
@[simp] theorem State.setPiece_core_pend (s : State) (x : Piece) : (s.setPiece x).core.pend = s.core.pend := rfl
@[simp] theorem State.setPiece_core_stk (s : State) (x : Piece) : (s.setPiece x).core.stk = s.core.stk := rfl
@[simp] theorem State.setPiece_core_spOld (s : State) (x : Piece) : (s.setPiece x).core.spOld = s.core.spOld := rfl
@[simp] theorem State.setPiece_core_arm (s : State) (x : Piece) : (s.setPiece x).core.arm = s.core.arm := rfl
@[simp] theorem State.setPiece_core_engq (s : State) (x : Piece) : (s.setPiece x).core.engq = s.core.engq := rfl
@[simp] theorem State.setPiece_core_started (s : State) (x : Piece) : (s.setPiece x).core.started = s.core.started := rfl
@[simp] theorem State.setPiece_core_vcWait (s : State) (x : Piece) : (s.setPiece x).core.vcWait = s.core.vcWait := rfl
@[simp] theorem State.setPiece_core_lastCopy (s : State) (x : Piece) : (s.setPiece x).core.lastCopy = s.core.lastCopy := rfl
@[simp] theorem State.setPiece_core_copies (s : State) (x : Piece) : (s.setPiece x).core.copies = s.core.copies := rfl
@[simp] theorem State.setPiece_core_ga (s : State) (x : Piece) : (s.setPiece x).core.ga = s.core.ga := rfl
@[simp] theorem State.setPiece_core_res (s : State) (x : Piece) : (s.setPiece x).core.res = s.core.res := rfl
@[simp] theorem State.setPiece_core_bundle (s : State) (x : Piece) : (s.setPiece x).core.bundle = s.core.bundle := rfl
@[simp] theorem State.setPiece_core_failed (s : State) (x : Piece) : (s.setPiece x).core.failed = s.core.failed := rfl
@[simp] theorem State.setPiece_core_halt (s : State) (x : Piece) : (s.setPiece x).core.halt = s.core.halt := rfl
@[simp] theorem State.setPiece_core_debugger (s : State) (x : Piece) : (s.setPiece x).core.debugger = s.core.debugger := rfl
@[simp] theorem State.setPiece_core_newc (s : State) (x : Piece) : (s.setPiece x).core.newc = s.core.newc := rfl

/-! ## setShr -/

@[simp] theorem State.setShr_cyc (s : State) (x : Shared) : (s.setShr x).cyc = s.cyc := rfl
@[simp] theorem State.setShr_nonce (s : State) (x : Shared) : (s.setShr x).nonce = s.nonce := rfl
@[simp] theorem State.setShr_nextId (s : State) (x : Shared) : (s.setShr x).nextId = s.nextId := rfl
@[simp] theorem State.setShr_k (s : State) (x : Shared) : (s.setShr x).k = s.k := rfl
@[simp] theorem State.setShr_core (s : State) (x : Shared) : (s.setShr x).core = s.core := rfl
@[simp] theorem State.setShr_others (s : State) (x : Shared) : (s.setShr x).others = s.others := rfl
@[simp] theorem State.setShr_agenda (s : State) (x : Shared) : (s.setShr x).agenda = s.agenda := rfl
@[simp] theorem State.setShr_rota (s : State) (x : Shared) : (s.setShr x).rota = s.rota := rfl
@[simp] theorem State.setShr_mem (s : State) (x : Shared) : (s.setShr x).mem = s.mem := rfl
@[simp] theorem State.setShr_tags (s : State) (x : Shared) : (s.setShr x).tags = s.tags := rfl
@[simp] theorem State.setShr_pois (s : State) (x : Shared) : (s.setShr x).pois = s.pois := rfl
@[simp] theorem State.setShr_frames (s : State) (x : Shared) : (s.setShr x).frames = s.frames := rfl
@[simp] theorem State.setShr_leafTag (s : State) (x : Shared) : (s.setShr x).leafTag = s.leafTag := rfl
@[simp] theorem State.setShr_walks (s : State) (x : Shared) : (s.setShr x).walks = s.walks := rfl
@[simp] theorem State.setShr_die (s : State) (x : Shared) : (s.setShr x).die = s.die := rfl
@[simp] theorem State.setShr_ctxs (s : State) (x : Shared) : (s.setShr x).ctxs = s.ctxs := rfl
@[simp] theorem State.setShr_peer (s : State) (x : Shared) : (s.setShr x).peer = s.peer := rfl
@[simp] theorem State.setShr_pkg (s : State) (x : Shared) : (s.setShr x).pkg = s.pkg := rfl
@[simp] theorem State.setShr_fab (s : State) (x : Shared) : (s.setShr x).fab = s.fab := rfl
@[simp] theorem State.setShr_past (s : State) (x : Shared) : (s.setShr x).past = s.past := rfl
@[simp] theorem State.setShr_turns (s : State) (x : Shared) : (s.setShr x).turns = s.turns := rfl
@[simp] theorem State.setShr_shr (s : State) (x : Shared) : (s.setShr x).shr = x := rfl

/-! ## setDie -/

@[simp] theorem State.setDie_cyc (s : State) (x : Die) : (s.setDie x).cyc = s.cyc := rfl
@[simp] theorem State.setDie_nonce (s : State) (x : Die) : (s.setDie x).nonce = s.nonce := rfl
@[simp] theorem State.setDie_nextId (s : State) (x : Die) : (s.setDie x).nextId = s.nextId := rfl
@[simp] theorem State.setDie_k (s : State) (x : Die) : (s.setDie x).k = s.k := rfl
@[simp] theorem State.setDie_core (s : State) (x : Die) : (s.setDie x).core = s.core := rfl
@[simp] theorem State.setDie_others (s : State) (x : Die) : (s.setDie x).others = s.others := rfl
@[simp] theorem State.setDie_agenda (s : State) (x : Die) : (s.setDie x).agenda = s.agenda := rfl
@[simp] theorem State.setDie_rota (s : State) (x : Die) : (s.setDie x).rota = s.rota := rfl
@[simp] theorem State.setDie_mem (s : State) (x : Die) : (s.setDie x).mem = s.mem := rfl
@[simp] theorem State.setDie_tags (s : State) (x : Die) : (s.setDie x).tags = s.tags := rfl
@[simp] theorem State.setDie_pois (s : State) (x : Die) : (s.setDie x).pois = s.pois := rfl
@[simp] theorem State.setDie_frames (s : State) (x : Die) : (s.setDie x).frames = s.frames := rfl
@[simp] theorem State.setDie_leafTag (s : State) (x : Die) : (s.setDie x).leafTag = s.leafTag := rfl
@[simp] theorem State.setDie_walks (s : State) (x : Die) : (s.setDie x).walks = s.walks := rfl
@[simp] theorem State.setDie_shr (s : State) (x : Die) : (s.setDie x).shr = s.shr := rfl
@[simp] theorem State.setDie_ctxs (s : State) (x : Die) : (s.setDie x).ctxs = s.ctxs := rfl
@[simp] theorem State.setDie_peer (s : State) (x : Die) : (s.setDie x).peer = s.peer := rfl
@[simp] theorem State.setDie_pkg (s : State) (x : Die) : (s.setDie x).pkg = s.pkg := rfl
@[simp] theorem State.setDie_fab (s : State) (x : Die) : (s.setDie x).fab = s.fab := rfl
@[simp] theorem State.setDie_past (s : State) (x : Die) : (s.setDie x).past = s.past := rfl
@[simp] theorem State.setDie_turns (s : State) (x : Die) : (s.setDie x).turns = s.turns := rfl
@[simp] theorem State.setDie_die (s : State) (x : Die) : (s.setDie x).die = x := rfl

/-! ## setPkg -/

@[simp] theorem State.setPkg_cyc (s : State) (x : Pkg) : (s.setPkg x).cyc = s.cyc := rfl
@[simp] theorem State.setPkg_nonce (s : State) (x : Pkg) : (s.setPkg x).nonce = s.nonce := rfl
@[simp] theorem State.setPkg_nextId (s : State) (x : Pkg) : (s.setPkg x).nextId = s.nextId := rfl
@[simp] theorem State.setPkg_k (s : State) (x : Pkg) : (s.setPkg x).k = s.k := rfl
@[simp] theorem State.setPkg_core (s : State) (x : Pkg) : (s.setPkg x).core = s.core := rfl
@[simp] theorem State.setPkg_others (s : State) (x : Pkg) : (s.setPkg x).others = s.others := rfl
@[simp] theorem State.setPkg_agenda (s : State) (x : Pkg) : (s.setPkg x).agenda = s.agenda := rfl
@[simp] theorem State.setPkg_rota (s : State) (x : Pkg) : (s.setPkg x).rota = s.rota := rfl
@[simp] theorem State.setPkg_mem (s : State) (x : Pkg) : (s.setPkg x).mem = s.mem := rfl
@[simp] theorem State.setPkg_tags (s : State) (x : Pkg) : (s.setPkg x).tags = s.tags := rfl
@[simp] theorem State.setPkg_pois (s : State) (x : Pkg) : (s.setPkg x).pois = s.pois := rfl
@[simp] theorem State.setPkg_frames (s : State) (x : Pkg) : (s.setPkg x).frames = s.frames := rfl
@[simp] theorem State.setPkg_leafTag (s : State) (x : Pkg) : (s.setPkg x).leafTag = s.leafTag := rfl
@[simp] theorem State.setPkg_walks (s : State) (x : Pkg) : (s.setPkg x).walks = s.walks := rfl
@[simp] theorem State.setPkg_shr (s : State) (x : Pkg) : (s.setPkg x).shr = s.shr := rfl
@[simp] theorem State.setPkg_die (s : State) (x : Pkg) : (s.setPkg x).die = s.die := rfl
@[simp] theorem State.setPkg_ctxs (s : State) (x : Pkg) : (s.setPkg x).ctxs = s.ctxs := rfl
@[simp] theorem State.setPkg_peer (s : State) (x : Pkg) : (s.setPkg x).peer = s.peer := rfl
@[simp] theorem State.setPkg_fab (s : State) (x : Pkg) : (s.setPkg x).fab = s.fab := rfl
@[simp] theorem State.setPkg_past (s : State) (x : Pkg) : (s.setPkg x).past = s.past := rfl
@[simp] theorem State.setPkg_turns (s : State) (x : Pkg) : (s.setPkg x).turns = s.turns := rfl
@[simp] theorem State.setPkg_pkg (s : State) (x : Pkg) : (s.setPkg x).pkg = x := rfl

/-! ## setFab -/

@[simp] theorem State.setFab_cyc (s : State) (x : Fab) : (s.setFab x).cyc = s.cyc := rfl
@[simp] theorem State.setFab_nonce (s : State) (x : Fab) : (s.setFab x).nonce = s.nonce := rfl
@[simp] theorem State.setFab_nextId (s : State) (x : Fab) : (s.setFab x).nextId = s.nextId := rfl
@[simp] theorem State.setFab_k (s : State) (x : Fab) : (s.setFab x).k = s.k := rfl
@[simp] theorem State.setFab_core (s : State) (x : Fab) : (s.setFab x).core = s.core := rfl
@[simp] theorem State.setFab_others (s : State) (x : Fab) : (s.setFab x).others = s.others := rfl
@[simp] theorem State.setFab_agenda (s : State) (x : Fab) : (s.setFab x).agenda = s.agenda := rfl
@[simp] theorem State.setFab_rota (s : State) (x : Fab) : (s.setFab x).rota = s.rota := rfl
@[simp] theorem State.setFab_mem (s : State) (x : Fab) : (s.setFab x).mem = s.mem := rfl
@[simp] theorem State.setFab_tags (s : State) (x : Fab) : (s.setFab x).tags = s.tags := rfl
@[simp] theorem State.setFab_pois (s : State) (x : Fab) : (s.setFab x).pois = s.pois := rfl
@[simp] theorem State.setFab_frames (s : State) (x : Fab) : (s.setFab x).frames = s.frames := rfl
@[simp] theorem State.setFab_leafTag (s : State) (x : Fab) : (s.setFab x).leafTag = s.leafTag := rfl
@[simp] theorem State.setFab_walks (s : State) (x : Fab) : (s.setFab x).walks = s.walks := rfl
@[simp] theorem State.setFab_shr (s : State) (x : Fab) : (s.setFab x).shr = s.shr := rfl
@[simp] theorem State.setFab_die (s : State) (x : Fab) : (s.setFab x).die = s.die := rfl
@[simp] theorem State.setFab_ctxs (s : State) (x : Fab) : (s.setFab x).ctxs = s.ctxs := rfl
@[simp] theorem State.setFab_peer (s : State) (x : Fab) : (s.setFab x).peer = s.peer := rfl
@[simp] theorem State.setFab_pkg (s : State) (x : Fab) : (s.setFab x).pkg = s.pkg := rfl
@[simp] theorem State.setFab_past (s : State) (x : Fab) : (s.setFab x).past = s.past := rfl
@[simp] theorem State.setFab_turns (s : State) (x : Fab) : (s.setFab x).turns = s.turns := rfl
@[simp] theorem State.setFab_fab (s : State) (x : Fab) : (s.setFab x).fab = x := rfl

/-! ## setCtx -/

@[simp] theorem State.setCtx_cyc (s : State) (c : Ctx) (x : CtxRec) : (s.setCtx c x).cyc = s.cyc := rfl
@[simp] theorem State.setCtx_nonce (s : State) (c : Ctx) (x : CtxRec) : (s.setCtx c x).nonce = s.nonce := rfl
@[simp] theorem State.setCtx_nextId (s : State) (c : Ctx) (x : CtxRec) : (s.setCtx c x).nextId = s.nextId := rfl
@[simp] theorem State.setCtx_k (s : State) (c : Ctx) (x : CtxRec) : (s.setCtx c x).k = s.k := rfl
@[simp] theorem State.setCtx_core (s : State) (c : Ctx) (x : CtxRec) : (s.setCtx c x).core = s.core := rfl
@[simp] theorem State.setCtx_others (s : State) (c : Ctx) (x : CtxRec) : (s.setCtx c x).others = s.others := rfl
@[simp] theorem State.setCtx_agenda (s : State) (c : Ctx) (x : CtxRec) : (s.setCtx c x).agenda = s.agenda := rfl
@[simp] theorem State.setCtx_rota (s : State) (c : Ctx) (x : CtxRec) : (s.setCtx c x).rota = s.rota := rfl
@[simp] theorem State.setCtx_mem (s : State) (c : Ctx) (x : CtxRec) : (s.setCtx c x).mem = s.mem := rfl
@[simp] theorem State.setCtx_tags (s : State) (c : Ctx) (x : CtxRec) : (s.setCtx c x).tags = s.tags := rfl
@[simp] theorem State.setCtx_pois (s : State) (c : Ctx) (x : CtxRec) : (s.setCtx c x).pois = s.pois := rfl
@[simp] theorem State.setCtx_frames (s : State) (c : Ctx) (x : CtxRec) : (s.setCtx c x).frames = s.frames := rfl
@[simp] theorem State.setCtx_leafTag (s : State) (c : Ctx) (x : CtxRec) : (s.setCtx c x).leafTag = s.leafTag := rfl
@[simp] theorem State.setCtx_walks (s : State) (c : Ctx) (x : CtxRec) : (s.setCtx c x).walks = s.walks := rfl
@[simp] theorem State.setCtx_shr (s : State) (c : Ctx) (x : CtxRec) : (s.setCtx c x).shr = s.shr := rfl
@[simp] theorem State.setCtx_die (s : State) (c : Ctx) (x : CtxRec) : (s.setCtx c x).die = s.die := rfl
@[simp] theorem State.setCtx_peer (s : State) (c : Ctx) (x : CtxRec) : (s.setCtx c x).peer = s.peer := rfl
@[simp] theorem State.setCtx_pkg (s : State) (c : Ctx) (x : CtxRec) : (s.setCtx c x).pkg = s.pkg := rfl
@[simp] theorem State.setCtx_fab (s : State) (c : Ctx) (x : CtxRec) : (s.setCtx c x).fab = s.fab := rfl
@[simp] theorem State.setCtx_past (s : State) (c : Ctx) (x : CtxRec) : (s.setCtx c x).past = s.past := rfl
@[simp] theorem State.setCtx_turns (s : State) (c : Ctx) (x : CtxRec) : (s.setCtx c x).turns = s.turns := rfl

/-! ## setPc -/

@[simp] theorem State.setPc_cyc (s : State) (k : Cl) (x : W64) : (s.setPc k x).cyc = s.cyc := rfl
@[simp] theorem State.setPc_nonce (s : State) (k : Cl) (x : W64) : (s.setPc k x).nonce = s.nonce := rfl
@[simp] theorem State.setPc_nextId (s : State) (k : Cl) (x : W64) : (s.setPc k x).nextId = s.nextId := rfl
@[simp] theorem State.setPc_k (s : State) (k : Cl) (x : W64) : (s.setPc k x).k = s.k := rfl
@[simp] theorem State.setPc_others (s : State) (k : Cl) (x : W64) : (s.setPc k x).others = s.others := rfl
@[simp] theorem State.setPc_agenda (s : State) (k : Cl) (x : W64) : (s.setPc k x).agenda = s.agenda := rfl
@[simp] theorem State.setPc_rota (s : State) (k : Cl) (x : W64) : (s.setPc k x).rota = s.rota := rfl
@[simp] theorem State.setPc_mem (s : State) (k : Cl) (x : W64) : (s.setPc k x).mem = s.mem := rfl
@[simp] theorem State.setPc_tags (s : State) (k : Cl) (x : W64) : (s.setPc k x).tags = s.tags := rfl
@[simp] theorem State.setPc_pois (s : State) (k : Cl) (x : W64) : (s.setPc k x).pois = s.pois := rfl
@[simp] theorem State.setPc_frames (s : State) (k : Cl) (x : W64) : (s.setPc k x).frames = s.frames := rfl
@[simp] theorem State.setPc_leafTag (s : State) (k : Cl) (x : W64) : (s.setPc k x).leafTag = s.leafTag := rfl
@[simp] theorem State.setPc_walks (s : State) (k : Cl) (x : W64) : (s.setPc k x).walks = s.walks := rfl
@[simp] theorem State.setPc_shr (s : State) (k : Cl) (x : W64) : (s.setPc k x).shr = s.shr := rfl
@[simp] theorem State.setPc_die (s : State) (k : Cl) (x : W64) : (s.setPc k x).die = s.die := rfl
@[simp] theorem State.setPc_ctxs (s : State) (k : Cl) (x : W64) : (s.setPc k x).ctxs = s.ctxs := rfl
@[simp] theorem State.setPc_peer (s : State) (k : Cl) (x : W64) : (s.setPc k x).peer = s.peer := rfl
@[simp] theorem State.setPc_pkg (s : State) (k : Cl) (x : W64) : (s.setPc k x).pkg = s.pkg := rfl
@[simp] theorem State.setPc_fab (s : State) (k : Cl) (x : W64) : (s.setPc k x).fab = s.fab := rfl
@[simp] theorem State.setPc_past (s : State) (k : Cl) (x : W64) : (s.setPc k x).past = s.past := rfl
@[simp] theorem State.setPc_turns (s : State) (k : Cl) (x : W64) : (s.setPc k x).turns = s.turns := rfl
@[simp] theorem State.setPc_core_pc (s : State) (k : Cl) (x : W64) : (s.setPc k x).core.pc = s.core.pc := by cases k <;> rfl
@[simp] theorem State.setPc_core_g (s : State) (k : Cl) (x : W64) : (s.setPc k x).core.g = s.core.g := by cases k <;> rfl
@[simp] theorem State.setPc_core_a (s : State) (k : Cl) (x : W64) : (s.setPc k x).core.a = s.core.a := by cases k <;> rfl
@[simp] theorem State.setPc_core_m (s : State) (k : Cl) (x : W64) : (s.setPc k x).core.m = s.core.m := by cases k <;> rfl
@[simp] theorem State.setPc_core_i (s : State) (k : Cl) (x : W64) : (s.setPc k x).core.i = s.core.i := by cases k <;> rfl
@[simp] theorem State.setPc_core_tiles (s : State) (k : Cl) (x : W64) : (s.setPc k x).core.tiles = s.core.tiles := by cases k <;> rfl
@[simp] theorem State.setPc_core_hold (s : State) (k : Cl) (x : W64) : (s.setPc k x).core.hold = s.core.hold := by cases k <;> rfl
@[simp] theorem State.setPc_core_qs (s : State) (k : Cl) (x : W64) : (s.setPc k x).core.qs = s.core.qs := by cases k <;> rfl
@[simp] theorem State.setPc_core_qr (s : State) (k : Cl) (x : W64) : (s.setPc k x).core.qr = s.core.qr := by cases k <;> rfl
@[simp] theorem State.setPc_core_shape (s : State) (k : Cl) (x : W64) : (s.setPc k x).core.shape = s.core.shape := by cases k <;> rfl
@[simp] theorem State.setPc_core_slot (s : State) (k : Cl) (x : W64) : (s.setPc k x).core.slot = s.core.slot := by cases k <;> rfl
@[simp] theorem State.setPc_core_slotPois (s : State) (k : Cl) (x : W64) : (s.setPc k x).core.slotPois = s.core.slotPois := by cases k <;> rfl
@[simp] theorem State.setPc_core_slotSeed (s : State) (k : Cl) (x : W64) : (s.setPc k x).core.slotSeed = s.core.slotSeed := by cases k <;> rfl
@[simp] theorem State.setPc_core_use (s : State) (k : Cl) (x : W64) : (s.setPc k x).core.use = s.core.use := by cases k <;> rfl
@[simp] theorem State.setPc_core_usePend (s : State) (k : Cl) (x : W64) : (s.setPc k x).core.usePend = s.core.usePend := by cases k <;> rfl
@[simp] theorem State.setPc_core_array (s : State) (k : Cl) (x : W64) : (s.setPc k x).core.array = s.core.array := by cases k <;> rfl
@[simp] theorem State.setPc_core_epiUnit (s : State) (k : Cl) (x : W64) : (s.setPc k x).core.epiUnit = s.core.epiUnit := by cases k <;> rfl
@[simp] theorem State.setPc_core_permute (s : State) (k : Cl) (x : W64) : (s.setPc k x).core.permute = s.core.permute := by cases k <;> rfl
@[simp] theorem State.setPc_core_land (s : State) (k : Cl) (x : W64) : (s.setPc k x).core.land = s.core.land := by cases k <;> rfl
@[simp] theorem State.setPc_core_shown (s : State) (k : Cl) (x : W64) : (s.setPc k x).core.shown = s.core.shown := by cases k <;> rfl
@[simp] theorem State.setPc_core_epir (s : State) (k : Cl) (x : W64) : (s.setPc k x).core.epir = s.core.epir := by cases k <;> rfl
@[simp] theorem State.setPc_core_route (s : State) (k : Cl) (x : W64) : (s.setPc k x).core.route = s.core.route := by cases k <;> rfl
@[simp] theorem State.setPc_core_routePend (s : State) (k : Cl) (x : W64) : (s.setPc k x).core.routePend = s.core.routePend := by cases k <;> rfl
@[simp] theorem State.setPc_core_pend (s : State) (k : Cl) (x : W64) : (s.setPc k x).core.pend = s.core.pend := by cases k <;> rfl
@[simp] theorem State.setPc_core_stk (s : State) (k : Cl) (x : W64) : (s.setPc k x).core.stk = s.core.stk := by cases k <;> rfl
@[simp] theorem State.setPc_core_spOld (s : State) (k : Cl) (x : W64) : (s.setPc k x).core.spOld = s.core.spOld := by cases k <;> rfl
@[simp] theorem State.setPc_core_arm (s : State) (k : Cl) (x : W64) : (s.setPc k x).core.arm = s.core.arm := by cases k <;> rfl
@[simp] theorem State.setPc_core_engq (s : State) (k : Cl) (x : W64) : (s.setPc k x).core.engq = s.core.engq := by cases k <;> rfl
@[simp] theorem State.setPc_core_started (s : State) (k : Cl) (x : W64) : (s.setPc k x).core.started = s.core.started := by cases k <;> rfl
@[simp] theorem State.setPc_core_vcWait (s : State) (k : Cl) (x : W64) : (s.setPc k x).core.vcWait = s.core.vcWait := by cases k <;> rfl
@[simp] theorem State.setPc_core_lastCopy (s : State) (k : Cl) (x : W64) : (s.setPc k x).core.lastCopy = s.core.lastCopy := by cases k <;> rfl
@[simp] theorem State.setPc_core_copies (s : State) (k : Cl) (x : W64) : (s.setPc k x).core.copies = s.core.copies := by cases k <;> rfl
@[simp] theorem State.setPc_core_ga (s : State) (k : Cl) (x : W64) : (s.setPc k x).core.ga = s.core.ga := by cases k <;> rfl
@[simp] theorem State.setPc_core_res (s : State) (k : Cl) (x : W64) : (s.setPc k x).core.res = s.core.res := by cases k <;> rfl
@[simp] theorem State.setPc_core_bundle (s : State) (k : Cl) (x : W64) : (s.setPc k x).core.bundle = s.core.bundle := by cases k <;> rfl
@[simp] theorem State.setPc_core_failed (s : State) (k : Cl) (x : W64) : (s.setPc k x).core.failed = s.core.failed := by cases k <;> rfl
@[simp] theorem State.setPc_core_halt (s : State) (k : Cl) (x : W64) : (s.setPc k x).core.halt = s.core.halt := by cases k <;> rfl
@[simp] theorem State.setPc_core_debugger (s : State) (k : Cl) (x : W64) : (s.setPc k x).core.debugger = s.core.debugger := by cases k <;> rfl
@[simp] theorem State.setPc_core_newc (s : State) (k : Cl) (x : W64) : (s.setPc k x).core.newc = s.core.newc := by cases k <;> rfl
@[simp] theorem State.setPc_pc (s : State) (k : Cl) (x : W64) : ((s.setPc k x).core.strm k).pc = x := by cases k <;> rfl
@[simp] theorem State.setPc_other (s : State) (k j : Cl) (x : W64) (h : j ≠ k) : (s.setPc k x).core.strm j = s.core.strm j := by cases k <;> cases j <;> first | rfl | exact absurd rfl h

/-! ## stalled -/

@[simp] theorem State.stalled_cyc (s : State) (q : Bool) (x : BitVec 6) : (s.stalled q x).cyc = s.cyc := rfl
@[simp] theorem State.stalled_nonce (s : State) (q : Bool) (x : BitVec 6) : (s.stalled q x).nonce = s.nonce := rfl
@[simp] theorem State.stalled_nextId (s : State) (q : Bool) (x : BitVec 6) : (s.stalled q x).nextId = s.nextId := rfl
@[simp] theorem State.stalled_k (s : State) (q : Bool) (x : BitVec 6) : (s.stalled q x).k = s.k := rfl
@[simp] theorem State.stalled_others (s : State) (q : Bool) (x : BitVec 6) : (s.stalled q x).others = s.others := rfl
@[simp] theorem State.stalled_agenda (s : State) (q : Bool) (x : BitVec 6) : (s.stalled q x).agenda = s.agenda := rfl
@[simp] theorem State.stalled_rota (s : State) (q : Bool) (x : BitVec 6) : (s.stalled q x).rota = s.rota := rfl
@[simp] theorem State.stalled_mem (s : State) (q : Bool) (x : BitVec 6) : (s.stalled q x).mem = s.mem := rfl
@[simp] theorem State.stalled_tags (s : State) (q : Bool) (x : BitVec 6) : (s.stalled q x).tags = s.tags := rfl
@[simp] theorem State.stalled_pois (s : State) (q : Bool) (x : BitVec 6) : (s.stalled q x).pois = s.pois := rfl
@[simp] theorem State.stalled_frames (s : State) (q : Bool) (x : BitVec 6) : (s.stalled q x).frames = s.frames := rfl
@[simp] theorem State.stalled_leafTag (s : State) (q : Bool) (x : BitVec 6) : (s.stalled q x).leafTag = s.leafTag := rfl
@[simp] theorem State.stalled_walks (s : State) (q : Bool) (x : BitVec 6) : (s.stalled q x).walks = s.walks := rfl
@[simp] theorem State.stalled_shr (s : State) (q : Bool) (x : BitVec 6) : (s.stalled q x).shr = s.shr := rfl
@[simp] theorem State.stalled_die (s : State) (q : Bool) (x : BitVec 6) : (s.stalled q x).die = s.die := rfl
@[simp] theorem State.stalled_ctxs (s : State) (q : Bool) (x : BitVec 6) : (s.stalled q x).ctxs = s.ctxs := rfl
@[simp] theorem State.stalled_peer (s : State) (q : Bool) (x : BitVec 6) : (s.stalled q x).peer = s.peer := rfl
@[simp] theorem State.stalled_pkg (s : State) (q : Bool) (x : BitVec 6) : (s.stalled q x).pkg = s.pkg := rfl
@[simp] theorem State.stalled_fab (s : State) (q : Bool) (x : BitVec 6) : (s.stalled q x).fab = s.fab := rfl
@[simp] theorem State.stalled_past (s : State) (q : Bool) (x : BitVec 6) : (s.stalled q x).past = s.past := rfl
@[simp] theorem State.stalled_turns (s : State) (q : Bool) (x : BitVec 6) : (s.stalled q x).turns = s.turns := rfl
@[simp] theorem State.stalled_core_res (s : State) (q : Bool) (x : BitVec 6) : (s.stalled q x).core.res = .stalled q x := rfl
@[simp] theorem State.stalled_core_pc (s : State) (q : Bool) (x : BitVec 6) : (s.stalled q x).core.pc = s.core.pc := rfl
@[simp] theorem State.stalled_core_cs (s : State) (q : Bool) (x : BitVec 6) : (s.stalled q x).core.cs = s.core.cs := rfl
@[simp] theorem State.stalled_core_ca (s : State) (q : Bool) (x : BitVec 6) : (s.stalled q x).core.ca = s.core.ca := rfl
@[simp] theorem State.stalled_core_cv (s : State) (q : Bool) (x : BitVec 6) : (s.stalled q x).core.cv = s.core.cv := rfl
@[simp] theorem State.stalled_core_cm (s : State) (q : Bool) (x : BitVec 6) : (s.stalled q x).core.cm = s.core.cm := rfl
@[simp] theorem State.stalled_core_g (s : State) (q : Bool) (x : BitVec 6) : (s.stalled q x).core.g = s.core.g := rfl
@[simp] theorem State.stalled_core_a (s : State) (q : Bool) (x : BitVec 6) : (s.stalled q x).core.a = s.core.a := rfl
@[simp] theorem State.stalled_core_m (s : State) (q : Bool) (x : BitVec 6) : (s.stalled q x).core.m = s.core.m := rfl
@[simp] theorem State.stalled_core_i (s : State) (q : Bool) (x : BitVec 6) : (s.stalled q x).core.i = s.core.i := rfl
@[simp] theorem State.stalled_core_tiles (s : State) (q : Bool) (x : BitVec 6) : (s.stalled q x).core.tiles = s.core.tiles := rfl
@[simp] theorem State.stalled_core_hold (s : State) (q : Bool) (x : BitVec 6) : (s.stalled q x).core.hold = s.core.hold := rfl
@[simp] theorem State.stalled_core_qs (s : State) (q : Bool) (x : BitVec 6) : (s.stalled q x).core.qs = s.core.qs := rfl
@[simp] theorem State.stalled_core_qr (s : State) (q : Bool) (x : BitVec 6) : (s.stalled q x).core.qr = s.core.qr := rfl
@[simp] theorem State.stalled_core_shape (s : State) (q : Bool) (x : BitVec 6) : (s.stalled q x).core.shape = s.core.shape := rfl
@[simp] theorem State.stalled_core_slot (s : State) (q : Bool) (x : BitVec 6) : (s.stalled q x).core.slot = s.core.slot := rfl
@[simp] theorem State.stalled_core_slotPois (s : State) (q : Bool) (x : BitVec 6) : (s.stalled q x).core.slotPois = s.core.slotPois := rfl
@[simp] theorem State.stalled_core_slotSeed (s : State) (q : Bool) (x : BitVec 6) : (s.stalled q x).core.slotSeed = s.core.slotSeed := rfl
@[simp] theorem State.stalled_core_use (s : State) (q : Bool) (x : BitVec 6) : (s.stalled q x).core.use = s.core.use := rfl
@[simp] theorem State.stalled_core_usePend (s : State) (q : Bool) (x : BitVec 6) : (s.stalled q x).core.usePend = s.core.usePend := rfl
@[simp] theorem State.stalled_core_array (s : State) (q : Bool) (x : BitVec 6) : (s.stalled q x).core.array = s.core.array := rfl
@[simp] theorem State.stalled_core_epiUnit (s : State) (q : Bool) (x : BitVec 6) : (s.stalled q x).core.epiUnit = s.core.epiUnit := rfl
@[simp] theorem State.stalled_core_permute (s : State) (q : Bool) (x : BitVec 6) : (s.stalled q x).core.permute = s.core.permute := rfl
@[simp] theorem State.stalled_core_land (s : State) (q : Bool) (x : BitVec 6) : (s.stalled q x).core.land = s.core.land := rfl
@[simp] theorem State.stalled_core_shown (s : State) (q : Bool) (x : BitVec 6) : (s.stalled q x).core.shown = s.core.shown := rfl
@[simp] theorem State.stalled_core_epir (s : State) (q : Bool) (x : BitVec 6) : (s.stalled q x).core.epir = s.core.epir := rfl
@[simp] theorem State.stalled_core_route (s : State) (q : Bool) (x : BitVec 6) : (s.stalled q x).core.route = s.core.route := rfl
@[simp] theorem State.stalled_core_routePend (s : State) (q : Bool) (x : BitVec 6) : (s.stalled q x).core.routePend = s.core.routePend := rfl
@[simp] theorem State.stalled_core_pend (s : State) (q : Bool) (x : BitVec 6) : (s.stalled q x).core.pend = s.core.pend := rfl
@[simp] theorem State.stalled_core_stk (s : State) (q : Bool) (x : BitVec 6) : (s.stalled q x).core.stk = s.core.stk := rfl
@[simp] theorem State.stalled_core_spOld (s : State) (q : Bool) (x : BitVec 6) : (s.stalled q x).core.spOld = s.core.spOld := rfl
@[simp] theorem State.stalled_core_arm (s : State) (q : Bool) (x : BitVec 6) : (s.stalled q x).core.arm = s.core.arm := rfl
@[simp] theorem State.stalled_core_engq (s : State) (q : Bool) (x : BitVec 6) : (s.stalled q x).core.engq = s.core.engq := rfl
@[simp] theorem State.stalled_core_started (s : State) (q : Bool) (x : BitVec 6) : (s.stalled q x).core.started = s.core.started := rfl
@[simp] theorem State.stalled_core_vcWait (s : State) (q : Bool) (x : BitVec 6) : (s.stalled q x).core.vcWait = s.core.vcWait := rfl
@[simp] theorem State.stalled_core_lastCopy (s : State) (q : Bool) (x : BitVec 6) : (s.stalled q x).core.lastCopy = s.core.lastCopy := rfl
@[simp] theorem State.stalled_core_copies (s : State) (q : Bool) (x : BitVec 6) : (s.stalled q x).core.copies = s.core.copies := rfl
@[simp] theorem State.stalled_core_ga (s : State) (q : Bool) (x : BitVec 6) : (s.stalled q x).core.ga = s.core.ga := rfl
@[simp] theorem State.stalled_core_bundle (s : State) (q : Bool) (x : BitVec 6) : (s.stalled q x).core.bundle = s.core.bundle := rfl
@[simp] theorem State.stalled_core_failed (s : State) (q : Bool) (x : BitVec 6) : (s.stalled q x).core.failed = s.core.failed := rfl
@[simp] theorem State.stalled_core_halt (s : State) (q : Bool) (x : BitVec 6) : (s.stalled q x).core.halt = s.core.halt := rfl
@[simp] theorem State.stalled_core_debugger (s : State) (q : Bool) (x : BitVec 6) : (s.stalled q x).core.debugger = s.core.debugger := rfl
@[simp] theorem State.stalled_core_newc (s : State) (q : Bool) (x : BitVec 6) : (s.stalled q x).core.newc = s.core.newc := rfl

/-! ## bump -/

@[simp] theorem State.bump_cyc (s : State) : (s.bump).cyc = s.cyc := rfl
@[simp] theorem State.bump_nextId (s : State) : (s.bump).nextId = s.nextId := rfl
@[simp] theorem State.bump_k (s : State) : (s.bump).k = s.k := rfl
@[simp] theorem State.bump_core (s : State) : (s.bump).core = s.core := rfl
@[simp] theorem State.bump_others (s : State) : (s.bump).others = s.others := rfl
@[simp] theorem State.bump_agenda (s : State) : (s.bump).agenda = s.agenda := rfl
@[simp] theorem State.bump_rota (s : State) : (s.bump).rota = s.rota := rfl
@[simp] theorem State.bump_mem (s : State) : (s.bump).mem = s.mem := rfl
@[simp] theorem State.bump_tags (s : State) : (s.bump).tags = s.tags := rfl
@[simp] theorem State.bump_pois (s : State) : (s.bump).pois = s.pois := rfl
@[simp] theorem State.bump_frames (s : State) : (s.bump).frames = s.frames := rfl
@[simp] theorem State.bump_leafTag (s : State) : (s.bump).leafTag = s.leafTag := rfl
@[simp] theorem State.bump_walks (s : State) : (s.bump).walks = s.walks := rfl
@[simp] theorem State.bump_shr (s : State) : (s.bump).shr = s.shr := rfl
@[simp] theorem State.bump_die (s : State) : (s.bump).die = s.die := rfl
@[simp] theorem State.bump_ctxs (s : State) : (s.bump).ctxs = s.ctxs := rfl
@[simp] theorem State.bump_peer (s : State) : (s.bump).peer = s.peer := rfl
@[simp] theorem State.bump_pkg (s : State) : (s.bump).pkg = s.pkg := rfl
@[simp] theorem State.bump_fab (s : State) : (s.bump).fab = s.fab := rfl
@[simp] theorem State.bump_past (s : State) : (s.bump).past = s.past := rfl
@[simp] theorem State.bump_turns (s : State) : (s.bump).turns = s.turns := rfl

/-! ## fresh -/

@[simp] theorem State.fresh_cyc (s : State) : (s.fresh).cyc = s.cyc := rfl
@[simp] theorem State.fresh_nonce (s : State) : (s.fresh).nonce = s.nonce := rfl
@[simp] theorem State.fresh_k (s : State) : (s.fresh).k = s.k := rfl
@[simp] theorem State.fresh_core (s : State) : (s.fresh).core = s.core := rfl
@[simp] theorem State.fresh_others (s : State) : (s.fresh).others = s.others := rfl
@[simp] theorem State.fresh_agenda (s : State) : (s.fresh).agenda = s.agenda := rfl
@[simp] theorem State.fresh_rota (s : State) : (s.fresh).rota = s.rota := rfl
@[simp] theorem State.fresh_mem (s : State) : (s.fresh).mem = s.mem := rfl
@[simp] theorem State.fresh_tags (s : State) : (s.fresh).tags = s.tags := rfl
@[simp] theorem State.fresh_pois (s : State) : (s.fresh).pois = s.pois := rfl
@[simp] theorem State.fresh_frames (s : State) : (s.fresh).frames = s.frames := rfl
@[simp] theorem State.fresh_leafTag (s : State) : (s.fresh).leafTag = s.leafTag := rfl
@[simp] theorem State.fresh_walks (s : State) : (s.fresh).walks = s.walks := rfl
@[simp] theorem State.fresh_shr (s : State) : (s.fresh).shr = s.shr := rfl
@[simp] theorem State.fresh_die (s : State) : (s.fresh).die = s.die := rfl
@[simp] theorem State.fresh_ctxs (s : State) : (s.fresh).ctxs = s.ctxs := rfl
@[simp] theorem State.fresh_peer (s : State) : (s.fresh).peer = s.peer := rfl
@[simp] theorem State.fresh_pkg (s : State) : (s.fresh).pkg = s.pkg := rfl
@[simp] theorem State.fresh_fab (s : State) : (s.fresh).fab = s.fab := rfl
@[simp] theorem State.fresh_past (s : State) : (s.fresh).past = s.past := rfl
@[simp] theorem State.fresh_turns (s : State) : (s.fresh).turns = s.turns := rfl

/-! ## Cores and clusters -/

@[simp] theorem Core.setStrm_pc (c : Core) (k : Cl) (x : Strm) : (c.setStrm k x).pc = c.pc := by cases k <;> rfl
@[simp] theorem Core.setStrm_g (c : Core) (k : Cl) (x : Strm) : (c.setStrm k x).g = c.g := by cases k <;> rfl
@[simp] theorem Core.setStrm_a (c : Core) (k : Cl) (x : Strm) : (c.setStrm k x).a = c.a := by cases k <;> rfl
@[simp] theorem Core.setStrm_m (c : Core) (k : Cl) (x : Strm) : (c.setStrm k x).m = c.m := by cases k <;> rfl
@[simp] theorem Core.setStrm_i (c : Core) (k : Cl) (x : Strm) : (c.setStrm k x).i = c.i := by cases k <;> rfl
@[simp] theorem Core.setStrm_tiles (c : Core) (k : Cl) (x : Strm) : (c.setStrm k x).tiles = c.tiles := by cases k <;> rfl
@[simp] theorem Core.setStrm_hold (c : Core) (k : Cl) (x : Strm) : (c.setStrm k x).hold = c.hold := by cases k <;> rfl
@[simp] theorem Core.setStrm_qs (c : Core) (k : Cl) (x : Strm) : (c.setStrm k x).qs = c.qs := by cases k <;> rfl
@[simp] theorem Core.setStrm_qr (c : Core) (k : Cl) (x : Strm) : (c.setStrm k x).qr = c.qr := by cases k <;> rfl
@[simp] theorem Core.setStrm_shape (c : Core) (k : Cl) (x : Strm) : (c.setStrm k x).shape = c.shape := by cases k <;> rfl
@[simp] theorem Core.setStrm_slot (c : Core) (k : Cl) (x : Strm) : (c.setStrm k x).slot = c.slot := by cases k <;> rfl
@[simp] theorem Core.setStrm_slotPois (c : Core) (k : Cl) (x : Strm) : (c.setStrm k x).slotPois = c.slotPois := by cases k <;> rfl
@[simp] theorem Core.setStrm_slotSeed (c : Core) (k : Cl) (x : Strm) : (c.setStrm k x).slotSeed = c.slotSeed := by cases k <;> rfl
@[simp] theorem Core.setStrm_use (c : Core) (k : Cl) (x : Strm) : (c.setStrm k x).use = c.use := by cases k <;> rfl
@[simp] theorem Core.setStrm_usePend (c : Core) (k : Cl) (x : Strm) : (c.setStrm k x).usePend = c.usePend := by cases k <;> rfl
@[simp] theorem Core.setStrm_array (c : Core) (k : Cl) (x : Strm) : (c.setStrm k x).array = c.array := by cases k <;> rfl
@[simp] theorem Core.setStrm_epiUnit (c : Core) (k : Cl) (x : Strm) : (c.setStrm k x).epiUnit = c.epiUnit := by cases k <;> rfl
@[simp] theorem Core.setStrm_permute (c : Core) (k : Cl) (x : Strm) : (c.setStrm k x).permute = c.permute := by cases k <;> rfl
@[simp] theorem Core.setStrm_land (c : Core) (k : Cl) (x : Strm) : (c.setStrm k x).land = c.land := by cases k <;> rfl
@[simp] theorem Core.setStrm_shown (c : Core) (k : Cl) (x : Strm) : (c.setStrm k x).shown = c.shown := by cases k <;> rfl
@[simp] theorem Core.setStrm_epir (c : Core) (k : Cl) (x : Strm) : (c.setStrm k x).epir = c.epir := by cases k <;> rfl
@[simp] theorem Core.setStrm_route (c : Core) (k : Cl) (x : Strm) : (c.setStrm k x).route = c.route := by cases k <;> rfl
@[simp] theorem Core.setStrm_routePend (c : Core) (k : Cl) (x : Strm) : (c.setStrm k x).routePend = c.routePend := by cases k <;> rfl
@[simp] theorem Core.setStrm_pend (c : Core) (k : Cl) (x : Strm) : (c.setStrm k x).pend = c.pend := by cases k <;> rfl
@[simp] theorem Core.setStrm_stk (c : Core) (k : Cl) (x : Strm) : (c.setStrm k x).stk = c.stk := by cases k <;> rfl
@[simp] theorem Core.setStrm_spOld (c : Core) (k : Cl) (x : Strm) : (c.setStrm k x).spOld = c.spOld := by cases k <;> rfl
@[simp] theorem Core.setStrm_arm (c : Core) (k : Cl) (x : Strm) : (c.setStrm k x).arm = c.arm := by cases k <;> rfl
@[simp] theorem Core.setStrm_engq (c : Core) (k : Cl) (x : Strm) : (c.setStrm k x).engq = c.engq := by cases k <;> rfl
@[simp] theorem Core.setStrm_started (c : Core) (k : Cl) (x : Strm) : (c.setStrm k x).started = c.started := by cases k <;> rfl
@[simp] theorem Core.setStrm_vcWait (c : Core) (k : Cl) (x : Strm) : (c.setStrm k x).vcWait = c.vcWait := by cases k <;> rfl
@[simp] theorem Core.setStrm_lastCopy (c : Core) (k : Cl) (x : Strm) : (c.setStrm k x).lastCopy = c.lastCopy := by cases k <;> rfl
@[simp] theorem Core.setStrm_copies (c : Core) (k : Cl) (x : Strm) : (c.setStrm k x).copies = c.copies := by cases k <;> rfl
@[simp] theorem Core.setStrm_ga (c : Core) (k : Cl) (x : Strm) : (c.setStrm k x).ga = c.ga := by cases k <;> rfl
@[simp] theorem Core.setStrm_res (c : Core) (k : Cl) (x : Strm) : (c.setStrm k x).res = c.res := by cases k <;> rfl
@[simp] theorem Core.setStrm_bundle (c : Core) (k : Cl) (x : Strm) : (c.setStrm k x).bundle = c.bundle := by cases k <;> rfl
@[simp] theorem Core.setStrm_failed (c : Core) (k : Cl) (x : Strm) : (c.setStrm k x).failed = c.failed := by cases k <;> rfl
@[simp] theorem Core.setStrm_halt (c : Core) (k : Cl) (x : Strm) : (c.setStrm k x).halt = c.halt := by cases k <;> rfl
@[simp] theorem Core.setStrm_debugger (c : Core) (k : Cl) (x : Strm) : (c.setStrm k x).debugger = c.debugger := by cases k <;> rfl
@[simp] theorem Core.setStrm_newc (c : Core) (k : Cl) (x : Strm) : (c.setStrm k x).newc = c.newc := by cases k <;> rfl
@[simp] theorem Core.strm_setStrm (c : Core) (k : Cl) (x : Strm) : (c.setStrm k x).strm k = x := by cases k <;> rfl
@[simp] theorem Core.strm_setStrm_other (c : Core) (k j : Cl) (x : Strm) (h : j ≠ k) : (c.setStrm k x).strm j = c.strm j := by cases k <;> cases j <;> first | rfl | exact absurd rfl h

end Sys2Proof.Machine
end

