-- ==== Sys2Proof/Laws/Ops.lean ====
section
/-! SUPPORT. What each shared operation can do: issuing a word, reading and writing registers, queues, the end of a word, taking a
trap and returning from one. -/
namespace Sys2Proof.Machine

/-! ## Issuing -/

/-- A word always answers a next state. -/
theorem issue_next (k : Cl) (s : State) (r : Chk State) : ∃ t, issue k s r = .next t := by
  unfold issue
  split <;> exact ⟨_, rfl⟩

theorem word_next (k : Cl) (s : State) (r : Chk State) : ∃ t, word k s r = .next t := issue_next k s _

/-- What an attempt to issue answers: the word's effect, a stall, a page walk asked for, or a trap. -/
theorem issue_cases {k : Cl} {s t : State} {r : Chk State} (h : issue k s r = .next t) :
    r = .ok t ∨ (∃ c, r = .error (.queue c) ∧ t = s.stalled true c) ∨ (r = .error .wait ∧ t = s.stalled false 0) ∨
    (∃ va, r = .error (.walk va) ∧ t = (s.walkFor va).stalled false 0) ∨
    (∃ w pa, r = .error (.ask w pa) ∧ t = s.stalled false 0) ∨
    (∃ x, r = .error (.trap x) ∧ t = s.takeTrap k x) := by
  unfold issue at h
  split at h <;> cases h
  · exact .inl rfl
  · exact .inr (.inl ⟨_, rfl, rfl⟩)
  · exact .inr (.inr (.inl ⟨rfl, rfl⟩))
  · exact .inr (.inr (.inr (.inl ⟨_, rfl, rfl⟩)))
  · exact .inr (.inr (.inr (.inr (.inl ⟨_, _, rfl, rfl⟩))))
  · exact .inr (.inr (.inr (.inr (.inr ⟨_, rfl, rfl⟩))))

@[simp] theorem issue_ok (k : Cl) (s t : State) : issue k s (.ok t) = .next t := rfl
@[simp] theorem issue_trap (k : Cl) (s : State) (x : Trap) : issue k s (.error (.trap x)) = .next (s.takeTrap k x) := rfl
@[simp] theorem issue_wait (k : Cl) (s : State) : issue k s (.error .wait) = .next (s.stalled false 0) := rfl
@[simp] theorem issue_queue (k : Cl) (s : State) (c : BitVec 6) : issue k s (.error (.queue c)) = .next (s.stalled true c) := rfl
@[simp] theorem issue_raise (k : Cl) (s : State) (c : Cause) (sub : Nat) (a : W64) :
    issue k s (raise c sub a) = .next (s.takeTrap k ⟨c, BitVec.ofNat 16 sub, a⟩) := rfl
@[simp] theorem word_ok (k : Cl) (s t : State) : word k s (.ok t) = .next (t.retire k) := rfl

/-! ## General registers (01 R13, R38) -/

@[simp] theorem State.gRaw_zero (s : State) (k : Nat) : s.gRaw 0 k = .ok (0, false) := rfl
@[simp] theorem State.gVal_zero (s : State) (k : Nat) : s.gVal 0 k = .ok 0 := rfl

/-- A register whose bound has passed reads as it stands. -/
theorem State.gRaw_ready (s : State) (r : BitVec 5) (k : Nat) (h0 : r ≠ 0) (h : (s.core.g[r.toNat]'(r.isLt)).rdy ≤ s.cyc) :
    s.gRaw r k = .ok ((s.core.g[r.toNat]'(r.isLt)).v, (s.core.g[r.toNat]'(r.isLt)).p) := by
  unfold State.gRaw
  rw [if_neg h0, if_neg (Nat.not_lt.2 h)]

/-- A clean one can be computed on. -/
theorem State.gVal_ready (s : State) (r : BitVec 5) (k : Nat) (h0 : r ≠ 0) (h : (s.core.g[r.toNat]'(r.isLt)).rdy ≤ s.cyc)
    (hp : (s.core.g[r.toNat]'(r.isLt)).p = false) : s.gVal r k = .ok (s.core.g[r.toNat]'(r.isLt)).v := by
  simp [State.gVal, State.gRaw_ready s r k h0 h, hp, bind, Except.bind]

@[simp] theorem State.putGP_zero (s : State) (v : W64) (p : Bool) (l : Nat) : s.putGP 0 v p l = s := rfl
@[simp] theorem State.putG_zero (s : State) (v : W64) (l : Nat) : s.putG 0 v l = s := rfl

theorem State.putGP_core (s : State) (d : BitVec 5) (v : W64) (p : Bool) (l : Nat) (h : d ≠ 0) :
    (s.putGP d v p l).core = { s.core with g := s.core.g.set d.toNat ⟨v, p, s.cyc + l⟩ d.isLt } := by
  unfold State.putGP
  rw [if_neg h]
  rfl

@[simp] theorem State.putGP_mem (s : State) (d : BitVec 5) (v : W64) (p : Bool) (l : Nat) : (s.putGP d v p l).mem = s.mem := by
  unfold State.putGP; split <;> rfl

@[simp] theorem State.putGP_cyc (s : State) (d : BitVec 5) (v : W64) (p : Bool) (l : Nat) : (s.putGP d v p l).cyc = s.cyc := by
  unfold State.putGP; split <;> rfl

/-- The register written reads back once its bound has passed. -/
theorem State.putGP_get (s : State) (d : BitVec 5) (v : W64) (p : Bool) (l : Nat) (h : d ≠ 0) :
    (s.putGP d v p l).core.g[d.toNat]'(d.isLt) = ⟨v, p, s.cyc + l⟩ := by
  have e := congrArg Core.g (State.putGP_core s d v p l h)
  simp [e]

/-- Every other register is unchanged. -/
theorem State.putGP_get_other (s : State) (d r : BitVec 5) (v : W64) (p : Bool) (l : Nat) (h : r ≠ d) :
    (s.putGP d v p l).core.g[r.toNat]'(r.isLt) = s.core.g[r.toNat]'(r.isLt) := by
  by_cases hd : d = 0
  · subst hd; rfl
  · have e := congrArg Core.g (State.putGP_core s d v p l hd)
    have hn : d.toNat ≠ r.toNat := fun e => h (BitVec.eq_of_toNat_eq e.symm)
    simp [e, Vector.getElem_set_ne, hn]

/-! ## Capability registers (01 R13, 04 R117) -/

@[simp] theorem State.aRaw_zero (s : State) (k : Nat) : s.aRaw 0 k = .ok (nullCap, false) := rfl
@[simp] theorem State.aVal_zero (s : State) (k : Nat) : s.aVal 0 k = .ok nullCap := rfl

theorem State.aRaw_ready (s : State) (r : BitVec 5) (k : Nat) (h0 : r ≠ 0) (h : (s.core.a[r.toNat]'(r.isLt)).rdy ≤ s.cyc) :
    s.aRaw r k = .ok ((s.core.a[r.toNat]'(r.isLt)).c, (s.core.a[r.toNat]'(r.isLt)).p) := by
  unfold State.aRaw
  rw [if_neg h0, if_neg (Nat.not_lt.2 h)]

theorem State.aVal_ready (s : State) (r : BitVec 5) (k : Nat) (h0 : r ≠ 0) (h : (s.core.a[r.toNat]'(r.isLt)).rdy ≤ s.cyc)
    (hp : (s.core.a[r.toNat]'(r.isLt)).p = false) : s.aVal r k = .ok (s.core.a[r.toNat]'(r.isLt)).c := by
  simp [State.aVal, State.aRaw_ready s r k h0 h, hp, bind, Except.bind]

@[simp] theorem State.putAP_zero (s : State) (c : Cap) (p : Bool) (l : Nat) : s.putAP 0 c p l = s := rfl
@[simp] theorem State.putAP_mem (s : State) (d : BitVec 5) (c : Cap) (p : Bool) (l : Nat) : (s.putAP d c p l).mem = s.mem := by
  unfold State.putAP; split <;> rfl

/-! ## Indices and masks -/

@[simp] theorem State.iVal_zero (s : State) (k : Nat) : s.iVal 0 k = .ok 0 := rfl
@[simp] theorem State.mVal_zero (s : State) (k : Nat) : s.mVal 0 k = .ok (BitVec.allOnes 256) := rfl
@[simp] theorem State.putI_zero (s : State) (v : BitVec 16) : s.putI 0 v = s := rfl
@[simp] theorem State.putM_zero (s : State) (v : BitVec 256) (l : Nat) : s.putM 0 v l = s := rfl

/-! ## The end of a word -/

/-- Outside a loop the cursor of S moves on by one word. -/
theorem State.retire_s (s : State) (h : s.core.pc.lc = 0) :
    s.retire .s = (s.setCore { s.core with res := .issued }).setPc .s (s.core.cs.pc + 4) := by
  simp [State.retire, h, Core.strm]

/-- The end of a word changes no memory. -/
@[simp] theorem State.retire_mem (s : State) (k : Cl) (n : Nat) : (s.retire k n).mem = s.mem := by
  unfold State.retire
  cases k
  · dsimp only
    split <;> simp
  · rfl
  · dsimp only
    split
    · split
      · simp [State.looprStep]
      · simp
    · simp
  · dsimp only
    split
    · split <;> simp
    · simp

@[simp] theorem State.retire_cyc (s : State) (k : Cl) (n : Nat) : (s.retire k n).cyc = s.cyc := by
  unfold State.retire
  cases k
  · dsimp only
    split <;> simp
  · rfl
  · dsimp only
    split
    · split
      · simp [State.looprStep]
      · simp
    · simp
  · dsimp only
    split
    · split <;> simp
    · simp

/-! ## Traps (09 R273 to R278) -/

/-- The end of a piece changes no memory. -/
@[simp] theorem State.endPiece_mem (s : State) (f : Bool) : (s.endPiece f).mem = s.mem := by
  simp only [State.endPiece]
  split <;> rfl

@[simp] theorem State.veto_mem (s : State) (c : Ctx) (f : BitVec 5) : (s.veto c f).mem = s.mem := rfl

@[simp] theorem State.nameTrap_mem (s : State) (li : Nat) (t : Trap) : (s.nameTrap li t).mem = s.mem := rfl

@[simp] theorem State.faultPiece_mem (s : State) (t : Option Trap) : (s.faultPiece t).mem = s.mem := by
  simp only [State.faultPiece]
  cases t <;> by_cases h : s.core.pc.stepIn = true <;> simp [h]

/-- Taking a trap changes no memory. -/
@[simp] theorem State.takeTrap_mem (s : State) (k : Cl) (t : Trap) (a i : Bool) : (s.takeTrap k t a i).mem = s.mem := by
  simp only [State.takeTrap]
  repeat' split
  all_goals simp

/-- Returning from a trap changes no memory. -/
@[simp] theorem State.trapReturn_mem (s : State) : s.trapReturn.mem = s.mem := rfl

@[simp] theorem State.walkFor_mem (s : State) (va : Nat) : (s.walkFor va).mem = s.mem := by
  simp only [State.walkFor]
  split <;> rfl

/-- An attempt to issue changes memory only as the word's effect does. -/
theorem issue_mem {k : Cl} {s t : State} {r : Chk State} (h : issue k s r = .next t) (hr : ∀ u, r = .ok u → u.mem = s.mem) :
    t.mem = s.mem := by
  rcases issue_cases h with h | ⟨c, _, rfl⟩ | ⟨_, rfl⟩ | ⟨va, _, rfl⟩ | ⟨_, _, _, rfl⟩ | ⟨x, _, rfl⟩
  · exact hr t h
  all_goals simp

end Sys2Proof.Machine
end

