-- ==== Sys2Proof/Laws/PerInstr.lean ====
section
/-! SUPPORT. For every instruction: its first word leaves the sync bit free (01 R19). -/
namespace Sys2Proof.Laws

/-- The code of an instruction, without its sync bit, has 31 bits. -/
def CodeBound.Statement (i : Instr) : Prop := i.code < 2 ^ 31

theorem zeroBound : (0 : Nat) < 2 ^ 31 := by decide
theorem boolBound (b : Bool) : b.toNat < 2 := Bool.toNat_lt b

theorem CodeBound.add (d : BitVec 5) (a : BitVec 5) (b : BitVec 5) : CodeBound.Statement (.add d a b) := by have h0 := d.isLt; have h1 := a.isLt; have h2 := b.isLt; show 0x02000000 + d.toNat * 524288 + a.toNat * 8192 + b.toNat * 128 < 2 ^ 31; omega
theorem CodeBound.sub (d : BitVec 5) (a : BitVec 5) (b : BitVec 5) : CodeBound.Statement (.sub d a b) := by have h0 := d.isLt; have h1 := a.isLt; have h2 := b.isLt; show 0x02000001 + d.toNat * 524288 + a.toNat * 8192 + b.toNat * 128 < 2 ^ 31; omega
theorem CodeBound.and (d : BitVec 5) (a : BitVec 5) (b : BitVec 5) : CodeBound.Statement (.and d a b) := by have h0 := d.isLt; have h1 := a.isLt; have h2 := b.isLt; show 0x02000002 + d.toNat * 524288 + a.toNat * 8192 + b.toNat * 128 < 2 ^ 31; omega
theorem CodeBound.or (d : BitVec 5) (a : BitVec 5) (b : BitVec 5) : CodeBound.Statement (.or d a b) := by have h0 := d.isLt; have h1 := a.isLt; have h2 := b.isLt; show 0x02000003 + d.toNat * 524288 + a.toNat * 8192 + b.toNat * 128 < 2 ^ 31; omega
theorem CodeBound.xor (d : BitVec 5) (a : BitVec 5) (b : BitVec 5) : CodeBound.Statement (.xor d a b) := by have h0 := d.isLt; have h1 := a.isLt; have h2 := b.isLt; show 0x02000004 + d.toNat * 524288 + a.toNat * 8192 + b.toNat * 128 < 2 ^ 31; omega
theorem CodeBound.andn (d : BitVec 5) (a : BitVec 5) (b : BitVec 5) : CodeBound.Statement (.andn d a b) := by have h0 := d.isLt; have h1 := a.isLt; have h2 := b.isLt; show 0x02000005 + d.toNat * 524288 + a.toNat * 8192 + b.toNat * 128 < 2 ^ 31; omega
theorem CodeBound.sll (d : BitVec 5) (a : BitVec 5) (b : BitVec 5) : CodeBound.Statement (.sll d a b) := by have h0 := d.isLt; have h1 := a.isLt; have h2 := b.isLt; show 0x02000006 + d.toNat * 524288 + a.toNat * 8192 + b.toNat * 128 < 2 ^ 31; omega
theorem CodeBound.srl (d : BitVec 5) (a : BitVec 5) (b : BitVec 5) : CodeBound.Statement (.srl d a b) := by have h0 := d.isLt; have h1 := a.isLt; have h2 := b.isLt; show 0x02000007 + d.toNat * 524288 + a.toNat * 8192 + b.toNat * 128 < 2 ^ 31; omega
theorem CodeBound.sra (d : BitVec 5) (a : BitVec 5) (b : BitVec 5) : CodeBound.Statement (.sra d a b) := by have h0 := d.isLt; have h1 := a.isLt; have h2 := b.isLt; show 0x02000008 + d.toNat * 524288 + a.toNat * 8192 + b.toNat * 128 < 2 ^ 31; omega
theorem CodeBound.rotr (d : BitVec 5) (a : BitVec 5) (b : BitVec 5) : CodeBound.Statement (.rotr d a b) := by have h0 := d.isLt; have h1 := a.isLt; have h2 := b.isLt; show 0x02000009 + d.toNat * 524288 + a.toNat * 8192 + b.toNat * 128 < 2 ^ 31; omega
theorem CodeBound.slt (d : BitVec 5) (a : BitVec 5) (b : BitVec 5) : CodeBound.Statement (.slt d a b) := by have h0 := d.isLt; have h1 := a.isLt; have h2 := b.isLt; show 0x0200000A + d.toNat * 524288 + a.toNat * 8192 + b.toNat * 128 < 2 ^ 31; omega
theorem CodeBound.sltz (d : BitVec 5) (a : BitVec 5) (b : BitVec 5) : CodeBound.Statement (.sltz d a b) := by have h0 := d.isLt; have h1 := a.isLt; have h2 := b.isLt; show 0x0200000B + d.toNat * 524288 + a.toNat * 8192 + b.toNat * 128 < 2 ^ 31; omega
theorem CodeBound.min (d : BitVec 5) (a : BitVec 5) (b : BitVec 5) : CodeBound.Statement (.min d a b) := by have h0 := d.isLt; have h1 := a.isLt; have h2 := b.isLt; show 0x0200000C + d.toNat * 524288 + a.toNat * 8192 + b.toNat * 128 < 2 ^ 31; omega
theorem CodeBound.max (d : BitVec 5) (a : BitVec 5) (b : BitVec 5) : CodeBound.Statement (.max d a b) := by have h0 := d.isLt; have h1 := a.isLt; have h2 := b.isLt; show 0x0200000D + d.toNat * 524288 + a.toNat * 8192 + b.toNat * 128 < 2 ^ 31; omega
theorem CodeBound.minz (d : BitVec 5) (a : BitVec 5) (b : BitVec 5) : CodeBound.Statement (.minz d a b) := by have h0 := d.isLt; have h1 := a.isLt; have h2 := b.isLt; show 0x0200000E + d.toNat * 524288 + a.toNat * 8192 + b.toNat * 128 < 2 ^ 31; omega
theorem CodeBound.maxz (d : BitVec 5) (a : BitVec 5) (b : BitVec 5) : CodeBound.Statement (.maxz d a b) := by have h0 := d.isLt; have h1 := a.isLt; have h2 := b.isLt; show 0x0200000F + d.toNat * 524288 + a.toNat * 8192 + b.toNat * 128 < 2 ^ 31; omega
theorem CodeBound.mul (d : BitVec 5) (a : BitVec 5) (b : BitVec 5) : CodeBound.Statement (.mul d a b) := by have h0 := d.isLt; have h1 := a.isLt; have h2 := b.isLt; show 0x02000010 + d.toNat * 524288 + a.toNat * 8192 + b.toNat * 128 < 2 ^ 31; omega
theorem CodeBound.mulh (d : BitVec 5) (a : BitVec 5) (b : BitVec 5) : CodeBound.Statement (.mulh d a b) := by have h0 := d.isLt; have h1 := a.isLt; have h2 := b.isLt; show 0x02000011 + d.toNat * 524288 + a.toNat * 8192 + b.toNat * 128 < 2 ^ 31; omega
theorem CodeBound.mulhz (d : BitVec 5) (a : BitVec 5) (b : BitVec 5) : CodeBound.Statement (.mulhz d a b) := by have h0 := d.isLt; have h1 := a.isLt; have h2 := b.isLt; show 0x02000012 + d.toNat * 524288 + a.toNat * 8192 + b.toNat * 128 < 2 ^ 31; omega
theorem CodeBound.mulhsz (d : BitVec 5) (a : BitVec 5) (b : BitVec 5) : CodeBound.Statement (.mulhsz d a b) := by have h0 := d.isLt; have h1 := a.isLt; have h2 := b.isLt; show 0x02000013 + d.toNat * 524288 + a.toNat * 8192 + b.toNat * 128 < 2 ^ 31; omega
theorem CodeBound.div (d : BitVec 5) (a : BitVec 5) (b : BitVec 5) : CodeBound.Statement (.div d a b) := by have h0 := d.isLt; have h1 := a.isLt; have h2 := b.isLt; show 0x02000018 + d.toNat * 524288 + a.toNat * 8192 + b.toNat * 128 < 2 ^ 31; omega
theorem CodeBound.divz (d : BitVec 5) (a : BitVec 5) (b : BitVec 5) : CodeBound.Statement (.divz d a b) := by have h0 := d.isLt; have h1 := a.isLt; have h2 := b.isLt; show 0x02000019 + d.toNat * 524288 + a.toNat * 8192 + b.toNat * 128 < 2 ^ 31; omega
theorem CodeBound.rem (d : BitVec 5) (a : BitVec 5) (b : BitVec 5) : CodeBound.Statement (.rem d a b) := by have h0 := d.isLt; have h1 := a.isLt; have h2 := b.isLt; show 0x0200001A + d.toNat * 524288 + a.toNat * 8192 + b.toNat * 128 < 2 ^ 31; omega
theorem CodeBound.remz (d : BitVec 5) (a : BitVec 5) (b : BitVec 5) : CodeBound.Statement (.remz d a b) := by have h0 := d.isLt; have h1 := a.isLt; have h2 := b.isLt; show 0x0200001B + d.toNat * 524288 + a.toNat * 8192 + b.toNat * 128 < 2 ^ 31; omega
theorem CodeBound.clmul (d : BitVec 5) (a : BitVec 5) (b : BitVec 5) : CodeBound.Statement (.clmul d a b) := by have h0 := d.isLt; have h1 := a.isLt; have h2 := b.isLt; show 0x02000020 + d.toNat * 524288 + a.toNat * 8192 + b.toNat * 128 < 2 ^ 31; omega
theorem CodeBound.clmulh (d : BitVec 5) (a : BitVec 5) (b : BitVec 5) : CodeBound.Statement (.clmulh d a b) := by have h0 := d.isLt; have h1 := a.isLt; have h2 := b.isLt; show 0x02000021 + d.toNat * 524288 + a.toNat * 8192 + b.toNat * 128 < 2 ^ 31; omega
theorem CodeBound.clz (d : BitVec 5) (a : BitVec 5) : CodeBound.Statement (.clz d a) := by have h0 := d.isLt; have h1 := a.isLt; show 0x02000028 + d.toNat * 524288 + a.toNat * 8192 < 2 ^ 31; omega
theorem CodeBound.ctz (d : BitVec 5) (a : BitVec 5) : CodeBound.Statement (.ctz d a) := by have h0 := d.isLt; have h1 := a.isLt; show 0x02000029 + d.toNat * 524288 + a.toNat * 8192 < 2 ^ 31; omega
theorem CodeBound.popc (d : BitVec 5) (a : BitVec 5) : CodeBound.Statement (.popc d a) := by have h0 := d.isLt; have h1 := a.isLt; show 0x0200002A + d.toNat * 524288 + a.toNat * 8192 < 2 ^ 31; omega
theorem CodeBound.brev (d : BitVec 5) (a : BitVec 5) : CodeBound.Statement (.brev d a) := by have h0 := d.isLt; have h1 := a.isLt; show 0x0200002B + d.toNat * 524288 + a.toNat * 8192 < 2 ^ 31; omega
theorem CodeBound.bswap (d : BitVec 5) (a : BitVec 5) : CodeBound.Statement (.bswap d a) := by have h0 := d.isLt; have h1 := a.isLt; show 0x0200002C + d.toNat * 524288 + a.toNat * 8192 < 2 ^ 31; omega
theorem CodeBound.addi (d : BitVec 5) (a : BitVec 5) (i : BitVec 13) : CodeBound.Statement (.addi d a i) := by have h0 := d.isLt; have h1 := a.isLt; have h2 := i.isLt; show 0x04000000 + d.toNat * 524288 + a.toNat * 8192 + i.toNat < 2 ^ 31; omega
theorem CodeBound.andi (d : BitVec 5) (a : BitVec 5) (i : BitVec 13) : CodeBound.Statement (.andi d a i) := by have h0 := d.isLt; have h1 := a.isLt; have h2 := i.isLt; show 0x06000000 + d.toNat * 524288 + a.toNat * 8192 + i.toNat < 2 ^ 31; omega
theorem CodeBound.ori (d : BitVec 5) (a : BitVec 5) (i : BitVec 13) : CodeBound.Statement (.ori d a i) := by have h0 := d.isLt; have h1 := a.isLt; have h2 := i.isLt; show 0x08000000 + d.toNat * 524288 + a.toNat * 8192 + i.toNat < 2 ^ 31; omega
theorem CodeBound.xori (d : BitVec 5) (a : BitVec 5) (i : BitVec 13) : CodeBound.Statement (.xori d a i) := by have h0 := d.isLt; have h1 := a.isLt; have h2 := i.isLt; show 0x0A000000 + d.toNat * 524288 + a.toNat * 8192 + i.toNat < 2 ^ 31; omega
theorem CodeBound.slli (d : BitVec 5) (a : BitVec 5) (s : BitVec 6) : CodeBound.Statement (.slli d a s) := by have h0 := d.isLt; have h1 := a.isLt; have h2 := s.isLt; show 0x0C000000 + d.toNat * 524288 + a.toNat * 8192 + s.toNat < 2 ^ 31; omega
theorem CodeBound.srli (d : BitVec 5) (a : BitVec 5) (s : BitVec 6) : CodeBound.Statement (.srli d a s) := by have h0 := d.isLt; have h1 := a.isLt; have h2 := s.isLt; show 0x0C000040 + d.toNat * 524288 + a.toNat * 8192 + s.toNat < 2 ^ 31; omega
theorem CodeBound.srai (d : BitVec 5) (a : BitVec 5) (s : BitVec 6) : CodeBound.Statement (.srai d a s) := by have h0 := d.isLt; have h1 := a.isLt; have h2 := s.isLt; show 0x0C000080 + d.toNat * 524288 + a.toNat * 8192 + s.toNat < 2 ^ 31; omega
theorem CodeBound.rotri (d : BitVec 5) (a : BitVec 5) (s : BitVec 6) : CodeBound.Statement (.rotri d a s) := by have h0 := d.isLt; have h1 := a.isLt; have h2 := s.isLt; show 0x0C0000C0 + d.toNat * 524288 + a.toNat * 8192 + s.toNat < 2 ^ 31; omega
theorem CodeBound.slti (d : BitVec 5) (a : BitVec 5) (i : BitVec 13) : CodeBound.Statement (.slti d a i) := by have h0 := d.isLt; have h1 := a.isLt; have h2 := i.isLt; show 0x0E000000 + d.toNat * 524288 + a.toNat * 8192 + i.toNat < 2 ^ 31; omega
theorem CodeBound.sltiz (d : BitVec 5) (a : BitVec 5) (i : BitVec 13) : CodeBound.Statement (.sltiz d a i) := by have h0 := d.isLt; have h1 := a.isLt; have h2 := i.isLt; show 0x10000000 + d.toNat * 524288 + a.toNat * 8192 + i.toNat < 2 ^ 31; omega
theorem CodeBound.lih (d : BitVec 5) (i : BitVec 19) : CodeBound.Statement (.lih d i) := by have h0 := d.isLt; have h1 := i.isLt; show 0x12000000 + d.toNat * 524288 + i.toNat < 2 ^ 31; omega
theorem CodeBound.faddF32 (d : BitVec 5) (a : BitVec 5) (b : BitVec 5) : CodeBound.Statement (.faddF32 d a b) := by have h0 := d.isLt; have h1 := a.isLt; have h2 := b.isLt; show 0x14000000 + d.toNat * 524288 + a.toNat * 8192 + b.toNat * 128 < 2 ^ 31; omega
theorem CodeBound.fsubF32 (d : BitVec 5) (a : BitVec 5) (b : BitVec 5) : CodeBound.Statement (.fsubF32 d a b) := by have h0 := d.isLt; have h1 := a.isLt; have h2 := b.isLt; show 0x14000001 + d.toNat * 524288 + a.toNat * 8192 + b.toNat * 128 < 2 ^ 31; omega
theorem CodeBound.fmulF32 (d : BitVec 5) (a : BitVec 5) (b : BitVec 5) : CodeBound.Statement (.fmulF32 d a b) := by have h0 := d.isLt; have h1 := a.isLt; have h2 := b.isLt; show 0x14000002 + d.toNat * 524288 + a.toNat * 8192 + b.toNat * 128 < 2 ^ 31; omega
theorem CodeBound.fmaF32 (d : BitVec 5) (a : BitVec 5) (b : BitVec 5) : CodeBound.Statement (.fmaF32 d a b) := by have h0 := d.isLt; have h1 := a.isLt; have h2 := b.isLt; show 0x14000003 + d.toNat * 524288 + a.toNat * 8192 + b.toNat * 128 < 2 ^ 31; omega
theorem CodeBound.fdivF32 (d : BitVec 5) (a : BitVec 5) (b : BitVec 5) : CodeBound.Statement (.fdivF32 d a b) := by have h0 := d.isLt; have h1 := a.isLt; have h2 := b.isLt; show 0x14000004 + d.toNat * 524288 + a.toNat * 8192 + b.toNat * 128 < 2 ^ 31; omega
theorem CodeBound.fsqrtF32 (d : BitVec 5) (a : BitVec 5) : CodeBound.Statement (.fsqrtF32 d a) := by have h0 := d.isLt; have h1 := a.isLt; show 0x14000005 + d.toNat * 524288 + a.toNat * 8192 < 2 ^ 31; omega
theorem CodeBound.fminF32 (d : BitVec 5) (a : BitVec 5) (b : BitVec 5) : CodeBound.Statement (.fminF32 d a b) := by have h0 := d.isLt; have h1 := a.isLt; have h2 := b.isLt; show 0x14000006 + d.toNat * 524288 + a.toNat * 8192 + b.toNat * 128 < 2 ^ 31; omega
theorem CodeBound.fmaxF32 (d : BitVec 5) (a : BitVec 5) (b : BitVec 5) : CodeBound.Statement (.fmaxF32 d a b) := by have h0 := d.isLt; have h1 := a.isLt; have h2 := b.isLt; show 0x14000007 + d.toNat * 524288 + a.toNat * 8192 + b.toNat * 128 < 2 ^ 31; omega
theorem CodeBound.feqF32 (d : BitVec 5) (a : BitVec 5) (b : BitVec 5) : CodeBound.Statement (.feqF32 d a b) := by have h0 := d.isLt; have h1 := a.isLt; have h2 := b.isLt; show 0x14000008 + d.toNat * 524288 + a.toNat * 8192 + b.toNat * 128 < 2 ^ 31; omega
theorem CodeBound.fltF32 (d : BitVec 5) (a : BitVec 5) (b : BitVec 5) : CodeBound.Statement (.fltF32 d a b) := by have h0 := d.isLt; have h1 := a.isLt; have h2 := b.isLt; show 0x14000009 + d.toNat * 524288 + a.toNat * 8192 + b.toNat * 128 < 2 ^ 31; omega
theorem CodeBound.fleF32 (d : BitVec 5) (a : BitVec 5) (b : BitVec 5) : CodeBound.Statement (.fleF32 d a b) := by have h0 := d.isLt; have h1 := a.isLt; have h2 := b.isLt; show 0x1400000A + d.toNat * 524288 + a.toNat * 8192 + b.toNat * 128 < 2 ^ 31; omega
theorem CodeBound.fabsF32 (d : BitVec 5) (a : BitVec 5) : CodeBound.Statement (.fabsF32 d a) := by have h0 := d.isLt; have h1 := a.isLt; show 0x1400000B + d.toNat * 524288 + a.toNat * 8192 < 2 ^ 31; omega
theorem CodeBound.fnegF32 (d : BitVec 5) (a : BitVec 5) : CodeBound.Statement (.fnegF32 d a) := by have h0 := d.isLt; have h1 := a.isLt; show 0x1400000C + d.toNat * 524288 + a.toNat * 8192 < 2 ^ 31; omega
theorem CodeBound.fcvtS64F32 (d : BitVec 5) (a : BitVec 5) (m : BitVec 3) : CodeBound.Statement (.fcvtS64F32 d a m) := by have h0 := d.isLt; have h1 := a.isLt; have h2 := m.isLt; show 0x14000010 + d.toNat * 524288 + a.toNat * 8192 + m.toNat * 128 < 2 ^ 31; omega
theorem CodeBound.fcvtZ64F32 (d : BitVec 5) (a : BitVec 5) (m : BitVec 3) : CodeBound.Statement (.fcvtZ64F32 d a m) := by have h0 := d.isLt; have h1 := a.isLt; have h2 := m.isLt; show 0x14000011 + d.toNat * 524288 + a.toNat * 8192 + m.toNat * 128 < 2 ^ 31; omega
theorem CodeBound.fcvtF32S64 (d : BitVec 5) (a : BitVec 5) (m : BitVec 3) : CodeBound.Statement (.fcvtF32S64 d a m) := by have h0 := d.isLt; have h1 := a.isLt; have h2 := m.isLt; show 0x14000012 + d.toNat * 524288 + a.toNat * 8192 + m.toNat * 128 < 2 ^ 31; omega
theorem CodeBound.fcvtF32Z64 (d : BitVec 5) (a : BitVec 5) (m : BitVec 3) : CodeBound.Statement (.fcvtF32Z64 d a m) := by have h0 := d.isLt; have h1 := a.isLt; have h2 := m.isLt; show 0x14000013 + d.toNat * 524288 + a.toNat * 8192 + m.toNat * 128 < 2 ^ 31; omega
theorem CodeBound.fcvtF32Bf16 (d : BitVec 5) (a : BitVec 5) : CodeBound.Statement (.fcvtF32Bf16 d a) := by have h0 := d.isLt; have h1 := a.isLt; show 0x14000014 + d.toNat * 524288 + a.toNat * 8192 < 2 ^ 31; omega
theorem CodeBound.fcvtBf16F32 (d : BitVec 5) (a : BitVec 5) (m : BitVec 3) : CodeBound.Statement (.fcvtBf16F32 d a m) := by have h0 := d.isLt; have h1 := a.isLt; have h2 := m.isLt; show 0x14000015 + d.toNat * 524288 + a.toNat * 8192 + m.toNat * 128 < 2 ^ 31; omega
theorem CodeBound.fcvtF32F16 (d : BitVec 5) (a : BitVec 5) : CodeBound.Statement (.fcvtF32F16 d a) := by have h0 := d.isLt; have h1 := a.isLt; show 0x14000016 + d.toNat * 524288 + a.toNat * 8192 < 2 ^ 31; omega
theorem CodeBound.fcvtF16F32 (d : BitVec 5) (a : BitVec 5) (m : BitVec 3) : CodeBound.Statement (.fcvtF16F32 d a m) := by have h0 := d.isLt; have h1 := a.isLt; have h2 := m.isLt; show 0x14000017 + d.toNat * 524288 + a.toNat * 8192 + m.toNat * 128 < 2 ^ 31; omega
theorem CodeBound.losschk (d : BitVec 5) (a : BitVec 5) (w : BitVec 7) : CodeBound.Statement (.losschk d a w) := by have h0 := d.isLt; have h1 := a.isLt; have h2 := w.isLt; show 0x16000000 + d.toNat * 524288 + a.toNat * 8192 + w.toNat < 2 ^ 31; omega
theorem CodeBound.sBr (o : BitVec 19) : CodeBound.Statement (.sBr o) := by have h0 := o.isLt; show 0x20000000 + o.toNat < 2 ^ 31; omega
theorem CodeBound.call (o : BitVec 19) : CodeBound.Statement (.call o) := by have h0 := o.isLt; show 0x22000000 + o.toNat < 2 ^ 31; omega
theorem CodeBound.sBeqz (c : BitVec 5) (o : BitVec 19) : CodeBound.Statement (.sBeqz c o) := by have h0 := c.isLt; have h1 := o.isLt; show 0x24000000 + c.toNat * 524288 + o.toNat < 2 ^ 31; omega
theorem CodeBound.sBnez (c : BitVec 5) (o : BitVec 19) : CodeBound.Statement (.sBnez c o) := by have h0 := c.isLt; have h1 := o.isLt; show 0x26000000 + c.toNat * 524288 + o.toNat < 2 ^ 31; omega
theorem CodeBound.sBltz (c : BitVec 5) (o : BitVec 19) : CodeBound.Statement (.sBltz c o) := by have h0 := c.isLt; have h1 := o.isLt; show 0x28000000 + c.toNat * 524288 + o.toNat < 2 ^ 31; omega
theorem CodeBound.sBgez (c : BitVec 5) (o : BitVec 19) : CodeBound.Statement (.sBgez c o) := by have h0 := c.isLt; have h1 := o.isLt; show 0x2A000000 + c.toNat * 524288 + o.toNat < 2 ^ 31; omega
theorem CodeBound.sBfol (o : BitVec 19) : CodeBound.Statement (.sBfol o) := by have h0 := o.isLt; show 0x2C000000 + o.toNat < 2 ^ 31; omega
theorem CodeBound.sBqt (o : BitVec 19) : CodeBound.Statement (.sBqt o) := by have h0 := o.isLt; show 0x2E000000 + o.toNat < 2 ^ 31; omega
theorem CodeBound.sBqf (o : BitVec 19) : CodeBound.Statement (.sBqf o) := by have h0 := o.isLt; show 0x30000000 + o.toNat < 2 ^ 31; omega
theorem CodeBound.jalr (d : BitVec 5) (a : BitVec 5) : CodeBound.Statement (.jalr d a) := by have h0 := d.isLt; have h1 := a.isLt; show 0x32000000 + d.toNat * 524288 + a.toNat * 8192 < 2 ^ 31; omega
theorem CodeBound.sLoop (c : BitVec 5) (o : BitVec 19) : CodeBound.Statement (.sLoop c o) := by have h0 := c.isLt; have h1 := o.isLt; show 0x34000000 + c.toNat * 524288 + o.toNat < 2 ^ 31; omega
theorem CodeBound.trap (i : BitVec 13) : CodeBound.Statement (.trap i) := by have h0 := i.isLt; show 0x36000000 + i.toNat < 2 ^ 31; omega
theorem CodeBound.csrr (d : BitVec 5) (r : BitVec 12) : CodeBound.Statement (.csrr d r) := by have h0 := d.isLt; have h1 := r.isLt; show 0x40000000 + d.toNat * 524288 + r.toNat < 2 ^ 31; omega
theorem CodeBound.csrw (a : BitVec 5) (r : BitVec 12) : CodeBound.Statement (.csrw a r) := by have h0 := a.isLt; have h1 := r.isLt; show 0x42000000 + a.toNat * 8192 + r.toNat < 2 ^ 31; omega
theorem CodeBound.csrs (a : BitVec 5) (r : BitVec 12) : CodeBound.Statement (.csrs a r) := by have h0 := a.isLt; have h1 := r.isLt; show 0x44000000 + a.toNat * 8192 + r.toNat < 2 ^ 31; omega
theorem CodeBound.csrc (a : BitVec 5) (r : BitVec 12) : CodeBound.Statement (.csrc a r) := by have h0 := a.isLt; have h1 := r.isLt; show 0x46000000 + a.toNat * 8192 + r.toNat < 2 ^ 31; omega
theorem CodeBound.sQpush (q : BitVec 6) (a : BitVec 5) : CodeBound.Statement (.sQpush q a) := by have h0 := q.isLt; have h1 := a.isLt; show 0x48000000 + q.toNat * 524288 + a.toNat * 8192 < 2 ^ 31; omega
theorem CodeBound.sQpop (d : BitVec 5) (q : BitVec 6) : CodeBound.Statement (.sQpop d q) := by have h0 := d.isLt; have h1 := q.isLt; show 0x4A000000 + d.toNat * 524288 + q.toNat * 8192 < 2 ^ 31; omega
theorem CodeBound.fmtq (a : BitVec 5) : CodeBound.Statement (.fmtq a) := by have h0 := a.isLt; show 0x4C000000 + a.toNat * 8192 < 2 ^ 31; omega
theorem CodeBound.waitc (a : BitVec 5) : CodeBound.Statement (.waitc a) := by have h0 := a.isLt; show 0x4E000000 + a.toNat * 8192 < 2 ^ 31; omega
theorem CodeBound.waitg (d : BitVec 5) (a : BitVec 5) (e : Bool) (g : BitVec 8) : CodeBound.Statement (.waitg d a e g) := by have h0 := d.isLt; have h1 := a.isLt; have h2 := boolBound e; have h3 := g.isLt; show 0x50000000 + d.toNat * 524288 + a.toNat * 8192 + e.toNat * 256 + g.toNat < 2 ^ 31; omega
theorem CodeBound.bar (a : BitVec 5) (s : BitVec 2) (n : BitVec 6) : CodeBound.Statement (.bar a s n) := by have h0 := a.isLt; have h1 := s.isLt; have h2 := n.isLt; show 0x52000000 + a.toNat * 8192 + s.toNat * 128 + n.toNat < 2 ^ 31; omega
theorem CodeBound.barF (a : BitVec 5) (s : BitVec 2) (n : BitVec 6) : CodeBound.Statement (.barF a s n) := by have h0 := a.isLt; have h1 := s.isLt; have h2 := n.isLt; show 0x52000200 + a.toNat * 8192 + s.toNat * 128 + n.toNat < 2 ^ 31; omega
theorem CodeBound.stepbeg (d : BitVec 5) : CodeBound.Statement (.stepbeg d) := by have h0 := d.isLt; show 0x54000000 + d.toNat * 524288 < 2 ^ 31; omega
theorem CodeBound.stepvote (a : BitVec 5) (u : Bool) (f : BitVec 5) : CodeBound.Statement (.stepvote a u f) := by have h0 := a.isLt; have h1 := boolBound u; have h2 := f.isLt; show 0x56000000 + a.toNat * 8192 + u.toNat * 32 + f.toNat < 2 ^ 31; omega
theorem CodeBound.stepend (d : BitVec 5) : CodeBound.Statement (.stepend d) := by have h0 := d.isLt; show 0x58000000 + d.toNat * 524288 < 2 ^ 31; omega
theorem CodeBound.waitl (d : BitVec 5) : CodeBound.Statement (.waitl d) := by have h0 := d.isLt; show 0x40000016 + d.toNat * 524288 < 2 ^ 31; omega
theorem CodeBound.cadd (d : BitVec 5) (a : BitVec 5) (b : BitVec 5) : CodeBound.Statement (.cadd d a b) := by have h0 := d.isLt; have h1 := a.isLt; have h2 := b.isLt; show 0x02000000 + d.toNat * 524288 + a.toNat * 8192 + b.toNat * 128 < 2 ^ 31; omega
theorem CodeBound.csub (d : BitVec 5) (a : BitVec 5) (b : BitVec 5) : CodeBound.Statement (.csub d a b) := by have h0 := d.isLt; have h1 := a.isLt; have h2 := b.isLt; show 0x02000001 + d.toNat * 524288 + a.toNat * 8192 + b.toNat * 128 < 2 ^ 31; omega
theorem CodeBound.cmov (d : BitVec 5) (a : BitVec 5) : CodeBound.Statement (.cmov d a) := by have h0 := d.isLt; have h1 := a.isLt; show 0x02000002 + d.toNat * 524288 + a.toNat * 8192 < 2 ^ 31; omega
theorem CodeBound.cclr (d : BitVec 5) (a : BitVec 5) : CodeBound.Statement (.cclr d a) := by have h0 := d.isLt; have h1 := a.isLt; show 0x02000003 + d.toNat * 524288 + a.toNat * 8192 < 2 ^ 31; omega
theorem CodeBound.aIadd (d : BitVec 5) (a : BitVec 5) (b : BitVec 5) : CodeBound.Statement (.aIadd d a b) := by have h0 := d.isLt; have h1 := a.isLt; have h2 := b.isLt; show 0x02000008 + d.toNat * 524288 + a.toNat * 8192 + b.toNat * 128 < 2 ^ 31; omega
theorem CodeBound.isub (d : BitVec 5) (a : BitVec 5) (b : BitVec 5) : CodeBound.Statement (.isub d a b) := by have h0 := d.isLt; have h1 := a.isLt; have h2 := b.isLt; show 0x02000009 + d.toNat * 524288 + a.toNat * 8192 + b.toNat * 128 < 2 ^ 31; omega
theorem CodeBound.imul (d : BitVec 5) (a : BitVec 5) (b : BitVec 5) : CodeBound.Statement (.imul d a b) := by have h0 := d.isLt; have h1 := a.isLt; have h2 := b.isLt; show 0x0200000A + d.toNat * 524288 + a.toNat * 8192 + b.toNat * 128 < 2 ^ 31; omega
theorem CodeBound.iand (d : BitVec 5) (a : BitVec 5) (b : BitVec 5) : CodeBound.Statement (.iand d a b) := by have h0 := d.isLt; have h1 := a.isLt; have h2 := b.isLt; show 0x0200000B + d.toNat * 524288 + a.toNat * 8192 + b.toNat * 128 < 2 ^ 31; omega
theorem CodeBound.ior (d : BitVec 5) (a : BitVec 5) (b : BitVec 5) : CodeBound.Statement (.ior d a b) := by have h0 := d.isLt; have h1 := a.isLt; have h2 := b.isLt; show 0x0200000C + d.toNat * 524288 + a.toNat * 8192 + b.toNat * 128 < 2 ^ 31; omega
theorem CodeBound.ixor (d : BitVec 5) (a : BitVec 5) (b : BitVec 5) : CodeBound.Statement (.ixor d a b) := by have h0 := d.isLt; have h1 := a.isLt; have h2 := b.isLt; show 0x0200000D + d.toNat * 524288 + a.toNat * 8192 + b.toNat * 128 < 2 ^ 31; omega
theorem CodeBound.isll (d : BitVec 5) (a : BitVec 5) (b : BitVec 5) : CodeBound.Statement (.isll d a b) := by have h0 := d.isLt; have h1 := a.isLt; have h2 := b.isLt; show 0x0200000E + d.toNat * 524288 + a.toNat * 8192 + b.toNat * 128 < 2 ^ 31; omega
theorem CodeBound.isrl (d : BitVec 5) (a : BitVec 5) (b : BitVec 5) : CodeBound.Statement (.isrl d a b) := by have h0 := d.isLt; have h1 := a.isLt; have h2 := b.isLt; show 0x0200000F + d.toNat * 524288 + a.toNat * 8192 + b.toNat * 128 < 2 ^ 31; omega
theorem CodeBound.isra (d : BitVec 5) (a : BitVec 5) (b : BitVec 5) : CodeBound.Statement (.isra d a b) := by have h0 := d.isLt; have h1 := a.isLt; have h2 := b.isLt; show 0x02000010 + d.toNat * 524288 + a.toNat * 8192 + b.toNat * 128 < 2 ^ 31; omega
theorem CodeBound.islt (d : BitVec 5) (a : BitVec 5) (b : BitVec 5) : CodeBound.Statement (.islt d a b) := by have h0 := d.isLt; have h1 := a.isLt; have h2 := b.isLt; show 0x02000011 + d.toNat * 524288 + a.toNat * 8192 + b.toNat * 128 < 2 ^ 31; omega
theorem CodeBound.isltz (d : BitVec 5) (a : BitVec 5) (b : BitVec 5) : CodeBound.Statement (.isltz d a b) := by have h0 := d.isLt; have h1 := a.isLt; have h2 := b.isLt; show 0x02000012 + d.toNat * 524288 + a.toNat * 8192 + b.toNat * 128 < 2 ^ 31; omega
theorem CodeBound.aaddi (d : BitVec 5) (a : BitVec 5) (i : BitVec 13) : CodeBound.Statement (.aaddi d a i) := by have h0 := d.isLt; have h1 := a.isLt; have h2 := i.isLt; show 0x04000000 + d.toNat * 524288 + a.toNat * 8192 + i.toNat < 2 ^ 31; omega
theorem CodeBound.alih (d : BitVec 5) (i : BitVec 19) : CodeBound.Statement (.alih d i) := by have h0 := d.isLt; have h1 := i.isLt; show 0x06000000 + d.toNat * 524288 + i.toNat < 2 ^ 31; omega
theorem CodeBound.csetb (d : BitVec 5) (a : BitVec 5) (b : BitVec 5) : CodeBound.Statement (.csetb d a b) := by have h0 := d.isLt; have h1 := a.isLt; have h2 := b.isLt; show 0x08000000 + d.toNat * 524288 + a.toNat * 8192 + b.toNat * 128 < 2 ^ 31; omega
theorem CodeBound.csetbx (d : BitVec 5) (a : BitVec 5) (b : BitVec 5) : CodeBound.Statement (.csetbx d a b) := by have h0 := d.isLt; have h1 := a.isLt; have h2 := b.isLt; show 0x08000001 + d.toNat * 524288 + a.toNat * 8192 + b.toNat * 128 < 2 ^ 31; omega
theorem CodeBound.csetbi (d : BitVec 5) (a : BitVec 5) (i : BitVec 13) : CodeBound.Statement (.csetbi d a i) := by have h0 := d.isLt; have h1 := a.isLt; have h2 := i.isLt; show 0x0A000000 + d.toNat * 524288 + a.toNat * 8192 + i.toNat < 2 ^ 31; omega
theorem CodeBound.candp (d : BitVec 5) (a : BitVec 5) (p : BitVec 12) : CodeBound.Statement (.candp d a p) := by have h0 := d.isLt; have h1 := a.isLt; have h2 := p.isLt; show 0x0C000000 + d.toNat * 524288 + a.toNat * 8192 + p.toNat < 2 ^ 31; omega
theorem CodeBound.cget (d : BitVec 5) (a : BitVec 5) (f : BitVec 7) : CodeBound.Statement (.cget d a f) := by have h0 := d.isLt; have h1 := a.isLt; have h2 := f.isLt; show 0x0E000000 + d.toNat * 524288 + a.toNat * 8192 + f.toNat < 2 ^ 31; omega
theorem CodeBound.ctest (d : BitVec 5) (a : BitVec 5) (b : BitVec 5) : CodeBound.Statement (.ctest d a b) := by have h0 := d.isLt; have h1 := a.isLt; have h2 := b.isLt; show 0x10000000 + d.toNat * 524288 + a.toNat * 8192 + b.toNat * 128 < 2 ^ 31; omega
theorem CodeBound.cteq (d : BitVec 5) (a : BitVec 5) (b : BitVec 5) : CodeBound.Statement (.cteq d a b) := by have h0 := d.isLt; have h1 := a.isLt; have h2 := b.isLt; show 0x10000001 + d.toNat * 524288 + a.toNat * 8192 + b.toNat * 128 < 2 ^ 31; omega
theorem CodeBound.csets (d : BitVec 5) (a : BitVec 5) (s : BitVec 4) : CodeBound.Statement (.csets d a s) := by have h0 := d.isLt; have h1 := a.isLt; have h2 := s.isLt; show 0x12000000 + d.toNat * 524288 + a.toNat * 8192 + s.toNat < 2 ^ 31; omega
theorem CodeBound.ldS8 (b : BitVec 5) (q : BitVec 3) (c : BitVec 4) (i : BitVec 13) : CodeBound.Statement (.ldS8 b q c i) := by have h0 := b.isLt; have h1 := q.isLt; have h2 := c.isLt; have h3 := i.isLt; show 0x20000000 + b.toNat * 1048576 + q.toNat * 131072 + c.toNat * 8192 + i.toNat < 2 ^ 31; omega
theorem CodeBound.ldZ8 (b : BitVec 5) (q : BitVec 3) (c : BitVec 4) (i : BitVec 13) : CodeBound.Statement (.ldZ8 b q c i) := by have h0 := b.isLt; have h1 := q.isLt; have h2 := c.isLt; have h3 := i.isLt; show 0x22000000 + b.toNat * 1048576 + q.toNat * 131072 + c.toNat * 8192 + i.toNat < 2 ^ 31; omega
theorem CodeBound.ldS16 (b : BitVec 5) (q : BitVec 3) (c : BitVec 4) (i : BitVec 13) : CodeBound.Statement (.ldS16 b q c i) := by have h0 := b.isLt; have h1 := q.isLt; have h2 := c.isLt; have h3 := i.isLt; show 0x24000000 + b.toNat * 1048576 + q.toNat * 131072 + c.toNat * 8192 + i.toNat < 2 ^ 31; omega
theorem CodeBound.ldZ16 (b : BitVec 5) (q : BitVec 3) (c : BitVec 4) (i : BitVec 13) : CodeBound.Statement (.ldZ16 b q c i) := by have h0 := b.isLt; have h1 := q.isLt; have h2 := c.isLt; have h3 := i.isLt; show 0x26000000 + b.toNat * 1048576 + q.toNat * 131072 + c.toNat * 8192 + i.toNat < 2 ^ 31; omega
theorem CodeBound.ldS32 (b : BitVec 5) (q : BitVec 3) (c : BitVec 4) (i : BitVec 13) : CodeBound.Statement (.ldS32 b q c i) := by have h0 := b.isLt; have h1 := q.isLt; have h2 := c.isLt; have h3 := i.isLt; show 0x28000000 + b.toNat * 1048576 + q.toNat * 131072 + c.toNat * 8192 + i.toNat < 2 ^ 31; omega
theorem CodeBound.ldZ32 (b : BitVec 5) (q : BitVec 3) (c : BitVec 4) (i : BitVec 13) : CodeBound.Statement (.ldZ32 b q c i) := by have h0 := b.isLt; have h1 := q.isLt; have h2 := c.isLt; have h3 := i.isLt; show 0x2A000000 + b.toNat * 1048576 + q.toNat * 131072 + c.toNat * 8192 + i.toNat < 2 ^ 31; omega
theorem CodeBound.ld64 (b : BitVec 5) (q : BitVec 3) (c : BitVec 4) (i : BitVec 13) : CodeBound.Statement (.ld64 b q c i) := by have h0 := b.isLt; have h1 := q.isLt; have h2 := c.isLt; have h3 := i.isLt; show 0x2C000000 + b.toNat * 1048576 + q.toNat * 131072 + c.toNat * 8192 + i.toNat < 2 ^ 31; omega
theorem CodeBound.ldrow (b : BitVec 5) (c : BitVec 4) (i : BitVec 13) : CodeBound.Statement (.ldrow b c i) := by have h0 := b.isLt; have h1 := c.isLt; have h2 := i.isLt; show 0x2E0C0000 + b.toNat * 1048576 + c.toNat * 8192 + i.toNat < 2 ^ 31; omega
theorem CodeBound.st8 (b : BitVec 5) (q : BitVec 3) (c : BitVec 4) (i : BitVec 13) : CodeBound.Statement (.st8 b q c i) := by have h0 := b.isLt; have h1 := q.isLt; have h2 := c.isLt; have h3 := i.isLt; show 0x30000000 + b.toNat * 1048576 + q.toNat * 131072 + c.toNat * 8192 + i.toNat < 2 ^ 31; omega
theorem CodeBound.st16 (b : BitVec 5) (q : BitVec 3) (c : BitVec 4) (i : BitVec 13) : CodeBound.Statement (.st16 b q c i) := by have h0 := b.isLt; have h1 := q.isLt; have h2 := c.isLt; have h3 := i.isLt; show 0x32000000 + b.toNat * 1048576 + q.toNat * 131072 + c.toNat * 8192 + i.toNat < 2 ^ 31; omega
theorem CodeBound.st32 (b : BitVec 5) (q : BitVec 3) (c : BitVec 4) (i : BitVec 13) : CodeBound.Statement (.st32 b q c i) := by have h0 := b.isLt; have h1 := q.isLt; have h2 := c.isLt; have h3 := i.isLt; show 0x34000000 + b.toNat * 1048576 + q.toNat * 131072 + c.toNat * 8192 + i.toNat < 2 ^ 31; omega
theorem CodeBound.st64 (b : BitVec 5) (q : BitVec 3) (c : BitVec 4) (i : BitVec 13) : CodeBound.Statement (.st64 b q c i) := by have h0 := b.isLt; have h1 := q.isLt; have h2 := c.isLt; have h3 := i.isLt; show 0x36000000 + b.toNat * 1048576 + q.toNat * 131072 + c.toNat * 8192 + i.toNat < 2 ^ 31; omega
theorem CodeBound.strow (b : BitVec 5) (c : BitVec 4) (i : BitVec 13) : CodeBound.Statement (.strow b c i) := by have h0 := b.isLt; have h1 := c.isLt; have h2 := i.isLt; show 0x380E0000 + b.toNat * 1048576 + c.toNat * 8192 + i.toNat < 2 ^ 31; omega
theorem CodeBound.ldc (d : BitVec 5) (b : BitVec 5) (c : BitVec 4) (i : BitVec 11) : CodeBound.Statement (.ldc d b c i) := by have h0 := d.isLt; have h1 := b.isLt; have h2 := c.isLt; have h3 := i.isLt; show 0x3A000000 + d.toNat * 1048576 + b.toNat * 32768 + c.toNat * 2048 + i.toNat < 2 ^ 31; omega
theorem CodeBound.stc (d : BitVec 5) (b : BitVec 5) (c : BitVec 4) (i : BitVec 11) : CodeBound.Statement (.stc d b c i) := by have h0 := d.isLt; have h1 := b.isLt; have h2 := c.isLt; have h3 := i.isLt; show 0x3C000000 + d.toNat * 1048576 + b.toNat * 32768 + c.toNat * 2048 + i.toNat < 2 ^ 31; omega
theorem CodeBound.prefL1 (b : BitVec 5) (c : BitVec 4) (i : BitVec 13) : CodeBound.Statement (.prefL1 b c i) := by have h0 := b.isLt; have h1 := c.isLt; have h2 := i.isLt; show 0x3E000000 + b.toNat * 1048576 + c.toNat * 8192 + i.toNat < 2 ^ 31; omega
theorem CodeBound.prefCc (b : BitVec 5) (c : BitVec 4) (i : BitVec 13) : CodeBound.Statement (.prefCc b c i) := by have h0 := b.isLt; have h1 := c.isLt; have h2 := i.isLt; show 0x3E020000 + b.toNat * 1048576 + c.toNat * 8192 + i.toNat < 2 ^ 31; omega
theorem CodeBound.prefDc (b : BitVec 5) (c : BitVec 4) (i : BitVec 13) : CodeBound.Statement (.prefDc b c i) := by have h0 := b.isLt; have h1 := c.isLt; have h2 := i.isLt; show 0x3E040000 + b.toNat * 1048576 + c.toNat * 8192 + i.toNat < 2 ^ 31; omega
theorem CodeBound.atom (b : BitVec 5) (q : BitVec 3) (c : BitVec 4) (o : BitVec 5) (z : BitVec 2) (s : Bool) : CodeBound.Statement (.atom b q c o z s) := by have h0 := b.isLt; have h1 := q.isLt; have h2 := c.isLt; have h3 := o.isLt; have h4 := z.isLt; have h5 := boolBound s; show 0x40000000 + b.toNat * 1048576 + q.toNat * 131072 + c.toNat * 8192 + o.toNat * 256 + z.toNat * 64 + s.toNat * 32 < 2 ^ 31; omega
theorem CodeBound.ratom (b : BitVec 5) (q : BitVec 3) (c : BitVec 4) (o : BitVec 5) (z : BitVec 2) (s : Bool) : CodeBound.Statement (.ratom b q c o z s) := by have h0 := b.isLt; have h1 := q.isLt; have h2 := c.isLt; have h3 := o.isLt; have h4 := z.isLt; have h5 := boolBound s; show 0x42000000 + b.toNat * 1048576 + q.toNat * 131072 + c.toNat * 8192 + o.toNat * 256 + z.toNat * 64 + s.toNat * 32 < 2 ^ 31; omega
theorem CodeBound.ratomH (b : BitVec 5) (q : BitVec 3) (c : BitVec 4) (n : BitVec 5) (r : Bool) (s : Bool) : CodeBound.Statement (.ratomH b q c n r s) := by have h0 := b.isLt; have h1 := q.isLt; have h2 := c.isLt; have h3 := n.isLt; have h4 := boolBound r; have h5 := boolBound s; show 0x42000000 + b.toNat * 1048576 + q.toNat * 131072 + c.toNat * 8192 + n.toNat * 256 + r.toNat * 64 + s.toNat * 32 < 2 ^ 31; omega
theorem CodeBound.latom (b : BitVec 5) (c : BitVec 4) (z : BitVec 2) (s : Bool) : CodeBound.Statement (.latom b c z s) := by have h0 := b.isLt; have h1 := c.isLt; have h2 := z.isLt; have h3 := boolBound s; show 0x440E0000 + b.toNat * 1048576 + c.toNat * 8192 + z.toNat * 64 + s.toNat * 32 < 2 ^ 31; omega
theorem CodeBound.gath (b : BitVec 5) (c : BitVec 4) (i : BitVec 13) : CodeBound.Statement (.gath b c i) := by have h0 := b.isLt; have h1 := c.isLt; have h2 := i.isLt; show 0x460C0000 + b.toNat * 1048576 + c.toNat * 8192 + i.toNat < 2 ^ 31; omega
theorem CodeBound.scat (b : BitVec 5) (c : BitVec 4) (i : BitVec 13) : CodeBound.Statement (.scat b c i) := by have h0 := b.isLt; have h1 := c.isLt; have h2 := i.isLt; show 0x480E0000 + b.toNat * 1048576 + c.toNat * 8192 + i.toNat < 2 ^ 31; omega
theorem CodeBound.fenceC (s : BitVec 2) (m : BitVec 16) : CodeBound.Statement (.fenceC s m) := by have h0 := s.isLt; have h1 := m.isLt; show 0x4A000000 + s.toNat * 8388608 + m.toNat < 2 ^ 31; omega
theorem CodeBound.bankset (a : BitVec 5) (m : BitVec 2) (n : BitVec 6) : CodeBound.Statement (.bankset a m n) := by have h0 := a.isLt; have h1 := m.isLt; have h2 := n.isLt; show 0x4C000000 + a.toNat * 8192 + m.toNat * 64 + n.toNat < 2 ^ 31; omega
theorem CodeBound.busy (a : BitVec 5) (n : BitVec 13) : CodeBound.Statement (.busy a n) := by have h0 := a.isLt; have h1 := n.isLt; show 0x4E000000 + a.toNat * 8192 + n.toNat < 2 ^ 31; omega
theorem CodeBound.idle (a : BitVec 5) (n : BitVec 13) : CodeBound.Statement (.idle a n) := by have h0 := a.isLt; have h1 := n.isLt; show 0x50000000 + a.toNat * 8192 + n.toNat < 2 ^ 31; omega
theorem CodeBound.aBr (o : BitVec 19) : CodeBound.Statement (.aBr o) := by have h0 := o.isLt; show 0x52000000 + o.toNat < 2 ^ 31; omega
theorem CodeBound.aBeqz (c : BitVec 5) (o : BitVec 19) : CodeBound.Statement (.aBeqz c o) := by have h0 := c.isLt; have h1 := o.isLt; show 0x54000000 + c.toNat * 524288 + o.toNat < 2 ^ 31; omega
theorem CodeBound.aBnez (c : BitVec 5) (o : BitVec 19) : CodeBound.Statement (.aBnez c o) := by have h0 := c.isLt; have h1 := o.isLt; show 0x56000000 + c.toNat * 524288 + o.toNat < 2 ^ 31; omega
theorem CodeBound.aBltz (c : BitVec 5) (o : BitVec 19) : CodeBound.Statement (.aBltz c o) := by have h0 := c.isLt; have h1 := o.isLt; show 0x58000000 + c.toNat * 524288 + o.toNat < 2 ^ 31; omega
theorem CodeBound.aBgez (c : BitVec 5) (o : BitVec 19) : CodeBound.Statement (.aBgez c o) := by have h0 := c.isLt; have h1 := o.isLt; show 0x5A000000 + c.toNat * 524288 + o.toNat < 2 ^ 31; omega
theorem CodeBound.aBfol (o : BitVec 19) : CodeBound.Statement (.aBfol o) := by have h0 := o.isLt; show 0x5C000000 + o.toNat < 2 ^ 31; omega
theorem CodeBound.bpub (c : BitVec 5) (o : BitVec 19) : CodeBound.Statement (.bpub c o) := by have h0 := c.isLt; have h1 := o.isLt; show 0x5E000000 + c.toNat * 524288 + o.toNat < 2 ^ 31; omega
theorem CodeBound.aLoop (c : BitVec 5) (o : BitVec 19) : CodeBound.Statement (.aLoop c o) := by have h0 := c.isLt; have h1 := o.isLt; show 0x60000000 + c.toNat * 524288 + o.toNat < 2 ^ 31; omega
theorem CodeBound.eng (sel : BitVec 3) (ew0 : BitVec 16) (ew1 : BitVec 16) : CodeBound.Statement (.eng sel ew0 ew1) := by have h0 := sel.isLt; have h1 := ew0.isLt; have h2 := ew1.isLt; show 0x62000000 + sel.toNat * 4194304 < 2 ^ 31; omega
theorem CodeBound.aQpush (q : BitVec 6) (a : BitVec 5) : CodeBound.Statement (.aQpush q a) := by have h0 := q.isLt; have h1 := a.isLt; show 0x64000000 + q.toNat * 524288 + a.toNat * 8192 < 2 ^ 31; omega
theorem CodeBound.aQpop (d : BitVec 5) (q : BitVec 6) : CodeBound.Statement (.aQpop d q) := by have h0 := d.isLt; have h1 := q.isLt; show 0x66000000 + d.toNat * 524288 + q.toNat * 8192 < 2 ^ 31; omega
theorem CodeBound.vsett (t : BitVec 16) : CodeBound.Statement (.vsett t) := by have h0 := t.isLt; show 0x02000000 + t.toNat < 2 ^ 31; omega
theorem CodeBound.vfadd (d : BitVec 6) (a : BitVec 6) (b : BitVec 6) (p : BitVec 4) (k : BitVec 3) : CodeBound.Statement (.vfadd d a b p k) := by have h0 := d.isLt; have h1 := a.isLt; have h2 := b.isLt; have h3 := p.isLt; have h4 := k.isLt; show 0x04000000 + d.toNat * 524288 + a.toNat * 8192 + b.toNat * 128 + p.toNat * 8 + k.toNat < 2 ^ 31; omega
theorem CodeBound.vfaddVa (d : BitVec 6) (a : BitVec 6) (b : BitVec 6) (p : BitVec 4) (k : BitVec 3) : CodeBound.Statement (.vfaddVa d a b p k) := by have h0 := d.isLt; have h1 := a.isLt; have h2 := b.isLt; have h3 := p.isLt; have h4 := k.isLt; show 0x06000000 + d.toNat * 524288 + a.toNat * 8192 + b.toNat * 128 + p.toNat * 8 + k.toNat < 2 ^ 31; omega
theorem CodeBound.vfsub (d : BitVec 6) (a : BitVec 6) (b : BitVec 6) (p : BitVec 4) (k : BitVec 3) : CodeBound.Statement (.vfsub d a b p k) := by have h0 := d.isLt; have h1 := a.isLt; have h2 := b.isLt; have h3 := p.isLt; have h4 := k.isLt; show 0x08000000 + d.toNat * 524288 + a.toNat * 8192 + b.toNat * 128 + p.toNat * 8 + k.toNat < 2 ^ 31; omega
theorem CodeBound.vfsubVa (d : BitVec 6) (a : BitVec 6) (b : BitVec 6) (p : BitVec 4) (k : BitVec 3) : CodeBound.Statement (.vfsubVa d a b p k) := by have h0 := d.isLt; have h1 := a.isLt; have h2 := b.isLt; have h3 := p.isLt; have h4 := k.isLt; show 0x0A000000 + d.toNat * 524288 + a.toNat * 8192 + b.toNat * 128 + p.toNat * 8 + k.toNat < 2 ^ 31; omega
theorem CodeBound.vfmul (d : BitVec 6) (a : BitVec 6) (b : BitVec 6) (p : BitVec 4) (k : BitVec 3) : CodeBound.Statement (.vfmul d a b p k) := by have h0 := d.isLt; have h1 := a.isLt; have h2 := b.isLt; have h3 := p.isLt; have h4 := k.isLt; show 0x0C000000 + d.toNat * 524288 + a.toNat * 8192 + b.toNat * 128 + p.toNat * 8 + k.toNat < 2 ^ 31; omega
theorem CodeBound.vfmulVa (d : BitVec 6) (a : BitVec 6) (b : BitVec 6) (p : BitVec 4) (k : BitVec 3) : CodeBound.Statement (.vfmulVa d a b p k) := by have h0 := d.isLt; have h1 := a.isLt; have h2 := b.isLt; have h3 := p.isLt; have h4 := k.isLt; show 0x0E000000 + d.toNat * 524288 + a.toNat * 8192 + b.toNat * 128 + p.toNat * 8 + k.toNat < 2 ^ 31; omega
theorem CodeBound.vfma (d : BitVec 6) (a : BitVec 6) (b : BitVec 6) (p : BitVec 4) (k : BitVec 3) : CodeBound.Statement (.vfma d a b p k) := by have h0 := d.isLt; have h1 := a.isLt; have h2 := b.isLt; have h3 := p.isLt; have h4 := k.isLt; show 0x10000000 + d.toNat * 524288 + a.toNat * 8192 + b.toNat * 128 + p.toNat * 8 + k.toNat < 2 ^ 31; omega
theorem CodeBound.vfmaVa (d : BitVec 6) (a : BitVec 6) (b : BitVec 6) (p : BitVec 4) (k : BitVec 3) : CodeBound.Statement (.vfmaVa d a b p k) := by have h0 := d.isLt; have h1 := a.isLt; have h2 := b.isLt; have h3 := p.isLt; have h4 := k.isLt; show 0x12000000 + d.toNat * 524288 + a.toNat * 8192 + b.toNat * 128 + p.toNat * 8 + k.toNat < 2 ^ 31; omega
theorem CodeBound.vfmin (d : BitVec 6) (a : BitVec 6) (b : BitVec 6) (p : BitVec 4) (k : BitVec 3) : CodeBound.Statement (.vfmin d a b p k) := by have h0 := d.isLt; have h1 := a.isLt; have h2 := b.isLt; have h3 := p.isLt; have h4 := k.isLt; show 0x14000000 + d.toNat * 524288 + a.toNat * 8192 + b.toNat * 128 + p.toNat * 8 + k.toNat < 2 ^ 31; omega
theorem CodeBound.vfminVa (d : BitVec 6) (a : BitVec 6) (b : BitVec 6) (p : BitVec 4) (k : BitVec 3) : CodeBound.Statement (.vfminVa d a b p k) := by have h0 := d.isLt; have h1 := a.isLt; have h2 := b.isLt; have h3 := p.isLt; have h4 := k.isLt; show 0x16000000 + d.toNat * 524288 + a.toNat * 8192 + b.toNat * 128 + p.toNat * 8 + k.toNat < 2 ^ 31; omega
theorem CodeBound.vfmax (d : BitVec 6) (a : BitVec 6) (b : BitVec 6) (p : BitVec 4) (k : BitVec 3) : CodeBound.Statement (.vfmax d a b p k) := by have h0 := d.isLt; have h1 := a.isLt; have h2 := b.isLt; have h3 := p.isLt; have h4 := k.isLt; show 0x18000000 + d.toNat * 524288 + a.toNat * 8192 + b.toNat * 128 + p.toNat * 8 + k.toNat < 2 ^ 31; omega
theorem CodeBound.vfmaxVa (d : BitVec 6) (a : BitVec 6) (b : BitVec 6) (p : BitVec 4) (k : BitVec 3) : CodeBound.Statement (.vfmaxVa d a b p k) := by have h0 := d.isLt; have h1 := a.isLt; have h2 := b.isLt; have h3 := p.isLt; have h4 := k.isLt; show 0x1A000000 + d.toNat * 524288 + a.toNat * 8192 + b.toNat * 128 + p.toNat * 8 + k.toNat < 2 ^ 31; omega
theorem CodeBound.vfcmp (c : BitVec 2) (m : BitVec 4) (a : BitVec 6) (b : BitVec 6) (p : BitVec 4) (k : BitVec 3) : CodeBound.Statement (.vfcmp c m a b p k) := by have h0 := c.isLt; have h1 := m.isLt; have h2 := a.isLt; have h3 := b.isLt; have h4 := p.isLt; have h5 := k.isLt; show 0x1C000000 + c.toNat * 8388608 + m.toNat * 524288 + a.toNat * 8192 + b.toNat * 128 + p.toNat * 8 + k.toNat < 2 ^ 31; omega
theorem CodeBound.vfcmpVa (c : BitVec 2) (m : BitVec 4) (a : BitVec 6) (b : BitVec 6) (p : BitVec 4) (k : BitVec 3) : CodeBound.Statement (.vfcmpVa c m a b p k) := by have h0 := c.isLt; have h1 := m.isLt; have h2 := a.isLt; have h3 := b.isLt; have h4 := p.isLt; have h5 := k.isLt; show 0x1E000000 + c.toNat * 8388608 + m.toNat * 524288 + a.toNat * 8192 + b.toNat * 128 + p.toNat * 8 + k.toNat < 2 ^ 31; omega
theorem CodeBound.vadd (d : BitVec 6) (a : BitVec 6) (b : BitVec 6) (p : BitVec 4) (k : BitVec 3) : CodeBound.Statement (.vadd d a b p k) := by have h0 := d.isLt; have h1 := a.isLt; have h2 := b.isLt; have h3 := p.isLt; have h4 := k.isLt; show 0x20000000 + d.toNat * 524288 + a.toNat * 8192 + b.toNat * 128 + p.toNat * 8 + k.toNat < 2 ^ 31; omega
theorem CodeBound.vaddVa (d : BitVec 6) (a : BitVec 6) (b : BitVec 6) (p : BitVec 4) (k : BitVec 3) : CodeBound.Statement (.vaddVa d a b p k) := by have h0 := d.isLt; have h1 := a.isLt; have h2 := b.isLt; have h3 := p.isLt; have h4 := k.isLt; show 0x22000000 + d.toNat * 524288 + a.toNat * 8192 + b.toNat * 128 + p.toNat * 8 + k.toNat < 2 ^ 31; omega
theorem CodeBound.vsub (d : BitVec 6) (a : BitVec 6) (b : BitVec 6) (p : BitVec 4) (k : BitVec 3) : CodeBound.Statement (.vsub d a b p k) := by have h0 := d.isLt; have h1 := a.isLt; have h2 := b.isLt; have h3 := p.isLt; have h4 := k.isLt; show 0x24000000 + d.toNat * 524288 + a.toNat * 8192 + b.toNat * 128 + p.toNat * 8 + k.toNat < 2 ^ 31; omega
theorem CodeBound.vsubVa (d : BitVec 6) (a : BitVec 6) (b : BitVec 6) (p : BitVec 4) (k : BitVec 3) : CodeBound.Statement (.vsubVa d a b p k) := by have h0 := d.isLt; have h1 := a.isLt; have h2 := b.isLt; have h3 := p.isLt; have h4 := k.isLt; show 0x26000000 + d.toNat * 524288 + a.toNat * 8192 + b.toNat * 128 + p.toNat * 8 + k.toNat < 2 ^ 31; omega
theorem CodeBound.vmul (d : BitVec 6) (a : BitVec 6) (b : BitVec 6) (p : BitVec 4) (k : BitVec 3) : CodeBound.Statement (.vmul d a b p k) := by have h0 := d.isLt; have h1 := a.isLt; have h2 := b.isLt; have h3 := p.isLt; have h4 := k.isLt; show 0x28000000 + d.toNat * 524288 + a.toNat * 8192 + b.toNat * 128 + p.toNat * 8 + k.toNat < 2 ^ 31; omega
theorem CodeBound.vmulVa (d : BitVec 6) (a : BitVec 6) (b : BitVec 6) (p : BitVec 4) (k : BitVec 3) : CodeBound.Statement (.vmulVa d a b p k) := by have h0 := d.isLt; have h1 := a.isLt; have h2 := b.isLt; have h3 := p.isLt; have h4 := k.isLt; show 0x2A000000 + d.toNat * 524288 + a.toNat * 8192 + b.toNat * 128 + p.toNat * 8 + k.toNat < 2 ^ 31; omega
theorem CodeBound.vmulh (d : BitVec 6) (a : BitVec 6) (b : BitVec 6) (p : BitVec 4) (k : BitVec 3) : CodeBound.Statement (.vmulh d a b p k) := by have h0 := d.isLt; have h1 := a.isLt; have h2 := b.isLt; have h3 := p.isLt; have h4 := k.isLt; show 0x2C000000 + d.toNat * 524288 + a.toNat * 8192 + b.toNat * 128 + p.toNat * 8 + k.toNat < 2 ^ 31; omega
theorem CodeBound.vmulhVa (d : BitVec 6) (a : BitVec 6) (b : BitVec 6) (p : BitVec 4) (k : BitVec 3) : CodeBound.Statement (.vmulhVa d a b p k) := by have h0 := d.isLt; have h1 := a.isLt; have h2 := b.isLt; have h3 := p.isLt; have h4 := k.isLt; show 0x2E000000 + d.toNat * 524288 + a.toNat * 8192 + b.toNat * 128 + p.toNat * 8 + k.toNat < 2 ^ 31; omega
theorem CodeBound.vmin (d : BitVec 6) (a : BitVec 6) (b : BitVec 6) (p : BitVec 4) (k : BitVec 3) : CodeBound.Statement (.vmin d a b p k) := by have h0 := d.isLt; have h1 := a.isLt; have h2 := b.isLt; have h3 := p.isLt; have h4 := k.isLt; show 0x30000000 + d.toNat * 524288 + a.toNat * 8192 + b.toNat * 128 + p.toNat * 8 + k.toNat < 2 ^ 31; omega
theorem CodeBound.vminVa (d : BitVec 6) (a : BitVec 6) (b : BitVec 6) (p : BitVec 4) (k : BitVec 3) : CodeBound.Statement (.vminVa d a b p k) := by have h0 := d.isLt; have h1 := a.isLt; have h2 := b.isLt; have h3 := p.isLt; have h4 := k.isLt; show 0x32000000 + d.toNat * 524288 + a.toNat * 8192 + b.toNat * 128 + p.toNat * 8 + k.toNat < 2 ^ 31; omega
theorem CodeBound.vmax (d : BitVec 6) (a : BitVec 6) (b : BitVec 6) (p : BitVec 4) (k : BitVec 3) : CodeBound.Statement (.vmax d a b p k) := by have h0 := d.isLt; have h1 := a.isLt; have h2 := b.isLt; have h3 := p.isLt; have h4 := k.isLt; show 0x34000000 + d.toNat * 524288 + a.toNat * 8192 + b.toNat * 128 + p.toNat * 8 + k.toNat < 2 ^ 31; omega
theorem CodeBound.vmaxVa (d : BitVec 6) (a : BitVec 6) (b : BitVec 6) (p : BitVec 4) (k : BitVec 3) : CodeBound.Statement (.vmaxVa d a b p k) := by have h0 := d.isLt; have h1 := a.isLt; have h2 := b.isLt; have h3 := p.isLt; have h4 := k.isLt; show 0x36000000 + d.toNat * 524288 + a.toNat * 8192 + b.toNat * 128 + p.toNat * 8 + k.toNat < 2 ^ 31; omega
theorem CodeBound.vadds (d : BitVec 6) (a : BitVec 6) (b : BitVec 6) (p : BitVec 4) (k : BitVec 3) : CodeBound.Statement (.vadds d a b p k) := by have h0 := d.isLt; have h1 := a.isLt; have h2 := b.isLt; have h3 := p.isLt; have h4 := k.isLt; show 0x38000000 + d.toNat * 524288 + a.toNat * 8192 + b.toNat * 128 + p.toNat * 8 + k.toNat < 2 ^ 31; omega
theorem CodeBound.vaddsVa (d : BitVec 6) (a : BitVec 6) (b : BitVec 6) (p : BitVec 4) (k : BitVec 3) : CodeBound.Statement (.vaddsVa d a b p k) := by have h0 := d.isLt; have h1 := a.isLt; have h2 := b.isLt; have h3 := p.isLt; have h4 := k.isLt; show 0x3A000000 + d.toNat * 524288 + a.toNat * 8192 + b.toNat * 128 + p.toNat * 8 + k.toNat < 2 ^ 31; omega
theorem CodeBound.vsubs (d : BitVec 6) (a : BitVec 6) (b : BitVec 6) (p : BitVec 4) (k : BitVec 3) : CodeBound.Statement (.vsubs d a b p k) := by have h0 := d.isLt; have h1 := a.isLt; have h2 := b.isLt; have h3 := p.isLt; have h4 := k.isLt; show 0x3C000000 + d.toNat * 524288 + a.toNat * 8192 + b.toNat * 128 + p.toNat * 8 + k.toNat < 2 ^ 31; omega
theorem CodeBound.vsubsVa (d : BitVec 6) (a : BitVec 6) (b : BitVec 6) (p : BitVec 4) (k : BitVec 3) : CodeBound.Statement (.vsubsVa d a b p k) := by have h0 := d.isLt; have h1 := a.isLt; have h2 := b.isLt; have h3 := p.isLt; have h4 := k.isLt; show 0x3E000000 + d.toNat * 524288 + a.toNat * 8192 + b.toNat * 128 + p.toNat * 8 + k.toNat < 2 ^ 31; omega
theorem CodeBound.vand (d : BitVec 6) (a : BitVec 6) (b : BitVec 6) (p : BitVec 4) (k : BitVec 3) : CodeBound.Statement (.vand d a b p k) := by have h0 := d.isLt; have h1 := a.isLt; have h2 := b.isLt; have h3 := p.isLt; have h4 := k.isLt; show 0x40000000 + d.toNat * 524288 + a.toNat * 8192 + b.toNat * 128 + p.toNat * 8 + k.toNat < 2 ^ 31; omega
theorem CodeBound.vandVa (d : BitVec 6) (a : BitVec 6) (b : BitVec 6) (p : BitVec 4) (k : BitVec 3) : CodeBound.Statement (.vandVa d a b p k) := by have h0 := d.isLt; have h1 := a.isLt; have h2 := b.isLt; have h3 := p.isLt; have h4 := k.isLt; show 0x42000000 + d.toNat * 524288 + a.toNat * 8192 + b.toNat * 128 + p.toNat * 8 + k.toNat < 2 ^ 31; omega
theorem CodeBound.vor (d : BitVec 6) (a : BitVec 6) (b : BitVec 6) (p : BitVec 4) (k : BitVec 3) : CodeBound.Statement (.vor d a b p k) := by have h0 := d.isLt; have h1 := a.isLt; have h2 := b.isLt; have h3 := p.isLt; have h4 := k.isLt; show 0x44000000 + d.toNat * 524288 + a.toNat * 8192 + b.toNat * 128 + p.toNat * 8 + k.toNat < 2 ^ 31; omega
theorem CodeBound.vorVa (d : BitVec 6) (a : BitVec 6) (b : BitVec 6) (p : BitVec 4) (k : BitVec 3) : CodeBound.Statement (.vorVa d a b p k) := by have h0 := d.isLt; have h1 := a.isLt; have h2 := b.isLt; have h3 := p.isLt; have h4 := k.isLt; show 0x46000000 + d.toNat * 524288 + a.toNat * 8192 + b.toNat * 128 + p.toNat * 8 + k.toNat < 2 ^ 31; omega
theorem CodeBound.vxor (d : BitVec 6) (a : BitVec 6) (b : BitVec 6) (p : BitVec 4) (k : BitVec 3) : CodeBound.Statement (.vxor d a b p k) := by have h0 := d.isLt; have h1 := a.isLt; have h2 := b.isLt; have h3 := p.isLt; have h4 := k.isLt; show 0x48000000 + d.toNat * 524288 + a.toNat * 8192 + b.toNat * 128 + p.toNat * 8 + k.toNat < 2 ^ 31; omega
theorem CodeBound.vxorVa (d : BitVec 6) (a : BitVec 6) (b : BitVec 6) (p : BitVec 4) (k : BitVec 3) : CodeBound.Statement (.vxorVa d a b p k) := by have h0 := d.isLt; have h1 := a.isLt; have h2 := b.isLt; have h3 := p.isLt; have h4 := k.isLt; show 0x4A000000 + d.toNat * 524288 + a.toNat * 8192 + b.toNat * 128 + p.toNat * 8 + k.toNat < 2 ^ 31; omega
theorem CodeBound.vshl (d : BitVec 6) (a : BitVec 6) (b : BitVec 6) (p : BitVec 4) (k : BitVec 3) : CodeBound.Statement (.vshl d a b p k) := by have h0 := d.isLt; have h1 := a.isLt; have h2 := b.isLt; have h3 := p.isLt; have h4 := k.isLt; show 0x4C000000 + d.toNat * 524288 + a.toNat * 8192 + b.toNat * 128 + p.toNat * 8 + k.toNat < 2 ^ 31; omega
theorem CodeBound.vshlVa (d : BitVec 6) (a : BitVec 6) (b : BitVec 6) (p : BitVec 4) (k : BitVec 3) : CodeBound.Statement (.vshlVa d a b p k) := by have h0 := d.isLt; have h1 := a.isLt; have h2 := b.isLt; have h3 := p.isLt; have h4 := k.isLt; show 0x4E000000 + d.toNat * 524288 + a.toNat * 8192 + b.toNat * 128 + p.toNat * 8 + k.toNat < 2 ^ 31; omega
theorem CodeBound.vshr (d : BitVec 6) (a : BitVec 6) (b : BitVec 6) (p : BitVec 4) (k : BitVec 3) : CodeBound.Statement (.vshr d a b p k) := by have h0 := d.isLt; have h1 := a.isLt; have h2 := b.isLt; have h3 := p.isLt; have h4 := k.isLt; show 0x50000000 + d.toNat * 524288 + a.toNat * 8192 + b.toNat * 128 + p.toNat * 8 + k.toNat < 2 ^ 31; omega
theorem CodeBound.vshrVa (d : BitVec 6) (a : BitVec 6) (b : BitVec 6) (p : BitVec 4) (k : BitVec 3) : CodeBound.Statement (.vshrVa d a b p k) := by have h0 := d.isLt; have h1 := a.isLt; have h2 := b.isLt; have h3 := p.isLt; have h4 := k.isLt; show 0x52000000 + d.toNat * 524288 + a.toNat * 8192 + b.toNat * 128 + p.toNat * 8 + k.toNat < 2 ^ 31; omega
theorem CodeBound.vcmp (c : BitVec 2) (m : BitVec 4) (a : BitVec 6) (b : BitVec 6) (p : BitVec 4) (k : BitVec 3) : CodeBound.Statement (.vcmp c m a b p k) := by have h0 := c.isLt; have h1 := m.isLt; have h2 := a.isLt; have h3 := b.isLt; have h4 := p.isLt; have h5 := k.isLt; show 0x54000000 + c.toNat * 8388608 + m.toNat * 524288 + a.toNat * 8192 + b.toNat * 128 + p.toNat * 8 + k.toNat < 2 ^ 31; omega
theorem CodeBound.vcmpVa (c : BitVec 2) (m : BitVec 4) (a : BitVec 6) (b : BitVec 6) (p : BitVec 4) (k : BitVec 3) : CodeBound.Statement (.vcmpVa c m a b p k) := by have h0 := c.isLt; have h1 := m.isLt; have h2 := a.isLt; have h3 := b.isLt; have h4 := p.isLt; have h5 := k.isLt; show 0x56000000 + c.toNat * 8388608 + m.toNat * 524288 + a.toNat * 8192 + b.toNat * 128 + p.toNat * 8 + k.toNat < 2 ^ 31; omega
theorem CodeBound.vclmul (d : BitVec 6) (a : BitVec 6) (b : BitVec 6) (p : BitVec 4) : CodeBound.Statement (.vclmul d a b p) := by have h0 := d.isLt; have h1 := a.isLt; have h2 := b.isLt; have h3 := p.isLt; show 0x58000000 + d.toNat * 524288 + a.toNat * 8192 + b.toNat * 128 + p.toNat * 8 < 2 ^ 31; omega
theorem CodeBound.vclmulVa (d : BitVec 6) (a : BitVec 6) (b : BitVec 6) (p : BitVec 4) : CodeBound.Statement (.vclmulVa d a b p) := by have h0 := d.isLt; have h1 := a.isLt; have h2 := b.isLt; have h3 := p.isLt; show 0x5A000000 + d.toNat * 524288 + a.toNat * 8192 + b.toNat * 128 + p.toNat * 8 < 2 ^ 31; omega
theorem CodeBound.vclmulh (d : BitVec 6) (a : BitVec 6) (b : BitVec 6) (p : BitVec 4) : CodeBound.Statement (.vclmulh d a b p) := by have h0 := d.isLt; have h1 := a.isLt; have h2 := b.isLt; have h3 := p.isLt; show 0x58000001 + d.toNat * 524288 + a.toNat * 8192 + b.toNat * 128 + p.toNat * 8 < 2 ^ 31; omega
theorem CodeBound.vclmulhVa (d : BitVec 6) (a : BitVec 6) (b : BitVec 6) (p : BitVec 4) : CodeBound.Statement (.vclmulhVa d a b p) := by have h0 := d.isLt; have h1 := a.isLt; have h2 := b.isLt; have h3 := p.isLt; show 0x5A000001 + d.toNat * 524288 + a.toNat * 8192 + b.toNat * 128 + p.toNat * 8 < 2 ^ 31; omega
theorem CodeBound.vsel (d : BitVec 6) (a : BitVec 6) (b : BitVec 6) (p : BitVec 4) (k : BitVec 3) : CodeBound.Statement (.vsel d a b p k) := by have h0 := d.isLt; have h1 := a.isLt; have h2 := b.isLt; have h3 := p.isLt; have h4 := k.isLt; show 0x5C000000 + d.toNat * 524288 + a.toNat * 8192 + b.toNat * 128 + p.toNat * 8 + k.toNat < 2 ^ 31; omega
theorem CodeBound.vselVa (d : BitVec 6) (a : BitVec 6) (b : BitVec 6) (p : BitVec 4) (k : BitVec 3) : CodeBound.Statement (.vselVa d a b p k) := by have h0 := d.isLt; have h1 := a.isLt; have h2 := b.isLt; have h3 := p.isLt; have h4 := k.isLt; show 0x5E000000 + d.toNat * 524288 + a.toNat * 8192 + b.toNat * 128 + p.toNat * 8 + k.toNat < 2 ^ 31; omega
theorem CodeBound.vcvtF2n (d : BitVec 6) (a : BitVec 6) (r : BitVec 3) (p : BitVec 4) (h : BitVec 3) : CodeBound.Statement (.vcvtF2n d a r p h) := by have h0 := d.isLt; have h1 := a.isLt; have h2 := r.isLt; have h3 := p.isLt; have h4 := h.isLt; show 0x60000000 + d.toNat * 524288 + a.toNat * 8192 + r.toNat * 1024 + p.toNat * 8 + h.toNat < 2 ^ 31; omega
theorem CodeBound.vcvtF2ns (d : BitVec 6) (a : BitVec 6) (r : BitVec 3) (p : BitVec 4) (h : BitVec 3) : CodeBound.Statement (.vcvtF2ns d a r p h) := by have h0 := d.isLt; have h1 := a.isLt; have h2 := r.isLt; have h3 := p.isLt; have h4 := h.isLt; show 0x60000080 + d.toNat * 524288 + a.toNat * 8192 + r.toNat * 1024 + p.toNat * 8 + h.toNat < 2 ^ 31; omega
theorem CodeBound.vcvtN2f (d : BitVec 6) (a : BitVec 6) (r : BitVec 3) (p : BitVec 4) (h : BitVec 3) : CodeBound.Statement (.vcvtN2f d a r p h) := by have h0 := d.isLt; have h1 := a.isLt; have h2 := r.isLt; have h3 := p.isLt; have h4 := h.isLt; show 0x60000100 + d.toNat * 524288 + a.toNat * 8192 + r.toNat * 1024 + p.toNat * 8 + h.toNat < 2 ^ 31; omega
theorem CodeBound.vcvtF2i (d : BitVec 6) (a : BitVec 6) (r : BitVec 3) (p : BitVec 4) (h : BitVec 3) : CodeBound.Statement (.vcvtF2i d a r p h) := by have h0 := d.isLt; have h1 := a.isLt; have h2 := r.isLt; have h3 := p.isLt; have h4 := h.isLt; show 0x60000180 + d.toNat * 524288 + a.toNat * 8192 + r.toNat * 1024 + p.toNat * 8 + h.toNat < 2 ^ 31; omega
theorem CodeBound.vcvtI2f (d : BitVec 6) (a : BitVec 6) (r : BitVec 3) (p : BitVec 4) (h : BitVec 3) : CodeBound.Statement (.vcvtI2f d a r p h) := by have h0 := d.isLt; have h1 := a.isLt; have h2 := r.isLt; have h3 := p.isLt; have h4 := h.isLt; show 0x60000200 + d.toNat * 524288 + a.toNat * 8192 + r.toNat * 1024 + p.toNat * 8 + h.toNat < 2 ^ 31; omega
theorem CodeBound.vcvtI32n (d : BitVec 6) (a : BitVec 6) (p : BitVec 4) (h : BitVec 3) : CodeBound.Statement (.vcvtI32n d a p h) := by have h0 := d.isLt; have h1 := a.isLt; have h2 := p.isLt; have h3 := h.isLt; show 0x60000280 + d.toNat * 524288 + a.toNat * 8192 + p.toNat * 8 + h.toNat < 2 ^ 31; omega
theorem CodeBound.vcvtI32ns (d : BitVec 6) (a : BitVec 6) (p : BitVec 4) (h : BitVec 3) : CodeBound.Statement (.vcvtI32ns d a p h) := by have h0 := d.isLt; have h1 := a.isLt; have h2 := p.isLt; have h3 := h.isLt; show 0x60000300 + d.toNat * 524288 + a.toNat * 8192 + p.toNat * 8 + h.toNat < 2 ^ 31; omega
theorem CodeBound.vcvtIw32 (d : BitVec 6) (a : BitVec 6) (p : BitVec 4) (h : BitVec 3) : CodeBound.Statement (.vcvtIw32 d a p h) := by have h0 := d.isLt; have h1 := a.isLt; have h2 := p.isLt; have h3 := h.isLt; show 0x60000380 + d.toNat * 524288 + a.toNat * 8192 + p.toNat * 8 + h.toNat < 2 ^ 31; omega
theorem CodeBound.vsfExp2 (d : BitVec 6) (a : BitVec 6) (p : BitVec 4) (k : BitVec 3) : CodeBound.Statement (.vsfExp2 d a p k) := by have h0 := d.isLt; have h1 := a.isLt; have h2 := p.isLt; have h3 := k.isLt; show 0x62000000 + d.toNat * 524288 + a.toNat * 8192 + p.toNat * 8 + k.toNat < 2 ^ 31; omega
theorem CodeBound.vsfLog2 (d : BitVec 6) (a : BitVec 6) (p : BitVec 4) (k : BitVec 3) : CodeBound.Statement (.vsfLog2 d a p k) := by have h0 := d.isLt; have h1 := a.isLt; have h2 := p.isLt; have h3 := k.isLt; show 0x62000080 + d.toNat * 524288 + a.toNat * 8192 + p.toNat * 8 + k.toNat < 2 ^ 31; omega
theorem CodeBound.vsfRcp (d : BitVec 6) (a : BitVec 6) (p : BitVec 4) (k : BitVec 3) : CodeBound.Statement (.vsfRcp d a p k) := by have h0 := d.isLt; have h1 := a.isLt; have h2 := p.isLt; have h3 := k.isLt; show 0x62000100 + d.toNat * 524288 + a.toNat * 8192 + p.toNat * 8 + k.toNat < 2 ^ 31; omega
theorem CodeBound.vsfRsqrt (d : BitVec 6) (a : BitVec 6) (p : BitVec 4) (k : BitVec 3) : CodeBound.Statement (.vsfRsqrt d a p k) := by have h0 := d.isLt; have h1 := a.isLt; have h2 := p.isLt; have h3 := k.isLt; show 0x62000180 + d.toNat * 524288 + a.toNat * 8192 + p.toNat * 8 + k.toNat < 2 ^ 31; omega
theorem CodeBound.vsfTanh (d : BitVec 6) (a : BitVec 6) (p : BitVec 4) (k : BitVec 3) : CodeBound.Statement (.vsfTanh d a p k) := by have h0 := d.isLt; have h1 := a.isLt; have h2 := p.isLt; have h3 := k.isLt; show 0x62000200 + d.toNat * 524288 + a.toNat * 8192 + p.toNat * 8 + k.toNat < 2 ^ 31; omega
theorem CodeBound.vsfSigm (d : BitVec 6) (a : BitVec 6) (p : BitVec 4) (k : BitVec 3) : CodeBound.Statement (.vsfSigm d a p k) := by have h0 := d.isLt; have h1 := a.isLt; have h2 := p.isLt; have h3 := k.isLt; show 0x62000280 + d.toNat * 524288 + a.toNat * 8192 + p.toNat * 8 + k.toNat < 2 ^ 31; omega
theorem CodeBound.vredFadd (d : BitVec 6) (a : BitVec 6) (s : BitVec 2) (p : BitVec 4) (k : BitVec 3) : CodeBound.Statement (.vredFadd d a s p k) := by have h0 := d.isLt; have h1 := a.isLt; have h2 := s.isLt; have h3 := p.isLt; have h4 := k.isLt; show 0x64000000 + d.toNat * 524288 + a.toNat * 8192 + s.toNat * 128 + p.toNat * 8 + k.toNat < 2 ^ 31; omega
theorem CodeBound.vredFmin (d : BitVec 6) (a : BitVec 6) (s : BitVec 2) (p : BitVec 4) (k : BitVec 3) : CodeBound.Statement (.vredFmin d a s p k) := by have h0 := d.isLt; have h1 := a.isLt; have h2 := s.isLt; have h3 := p.isLt; have h4 := k.isLt; show 0x64000200 + d.toNat * 524288 + a.toNat * 8192 + s.toNat * 128 + p.toNat * 8 + k.toNat < 2 ^ 31; omega
theorem CodeBound.vredFmax (d : BitVec 6) (a : BitVec 6) (s : BitVec 2) (p : BitVec 4) (k : BitVec 3) : CodeBound.Statement (.vredFmax d a s p k) := by have h0 := d.isLt; have h1 := a.isLt; have h2 := s.isLt; have h3 := p.isLt; have h4 := k.isLt; show 0x64000400 + d.toNat * 524288 + a.toNat * 8192 + s.toNat * 128 + p.toNat * 8 + k.toNat < 2 ^ 31; omega
theorem CodeBound.vredAdd (d : BitVec 6) (a : BitVec 6) (s : BitVec 2) (p : BitVec 4) (k : BitVec 3) : CodeBound.Statement (.vredAdd d a s p k) := by have h0 := d.isLt; have h1 := a.isLt; have h2 := s.isLt; have h3 := p.isLt; have h4 := k.isLt; show 0x64000600 + d.toNat * 524288 + a.toNat * 8192 + s.toNat * 128 + p.toNat * 8 + k.toNat < 2 ^ 31; omega
theorem CodeBound.vredMin (d : BitVec 6) (a : BitVec 6) (s : BitVec 2) (p : BitVec 4) (k : BitVec 3) : CodeBound.Statement (.vredMin d a s p k) := by have h0 := d.isLt; have h1 := a.isLt; have h2 := s.isLt; have h3 := p.isLt; have h4 := k.isLt; show 0x64000800 + d.toNat * 524288 + a.toNat * 8192 + s.toNat * 128 + p.toNat * 8 + k.toNat < 2 ^ 31; omega
theorem CodeBound.vredMax (d : BitVec 6) (a : BitVec 6) (s : BitVec 2) (p : BitVec 4) (k : BitVec 3) : CodeBound.Statement (.vredMax d a s p k) := by have h0 := d.isLt; have h1 := a.isLt; have h2 := s.isLt; have h3 := p.isLt; have h4 := k.isLt; show 0x64000A00 + d.toNat * 524288 + a.toNat * 8192 + s.toNat * 128 + p.toNat * 8 + k.toNat < 2 ^ 31; omega
theorem CodeBound.vredAnd (d : BitVec 6) (a : BitVec 6) (s : BitVec 2) (p : BitVec 4) (k : BitVec 3) : CodeBound.Statement (.vredAnd d a s p k) := by have h0 := d.isLt; have h1 := a.isLt; have h2 := s.isLt; have h3 := p.isLt; have h4 := k.isLt; show 0x64000C00 + d.toNat * 524288 + a.toNat * 8192 + s.toNat * 128 + p.toNat * 8 + k.toNat < 2 ^ 31; omega
theorem CodeBound.vredOr (d : BitVec 6) (a : BitVec 6) (s : BitVec 2) (p : BitVec 4) (k : BitVec 3) : CodeBound.Statement (.vredOr d a s p k) := by have h0 := d.isLt; have h1 := a.isLt; have h2 := s.isLt; have h3 := p.isLt; have h4 := k.isLt; show 0x64000E00 + d.toNat * 524288 + a.toNat * 8192 + s.toNat * 128 + p.toNat * 8 + k.toNat < 2 ^ 31; omega
theorem CodeBound.vredXor (d : BitVec 6) (a : BitVec 6) (s : BitVec 2) (p : BitVec 4) (k : BitVec 3) : CodeBound.Statement (.vredXor d a s p k) := by have h0 := d.isLt; have h1 := a.isLt; have h2 := s.isLt; have h3 := p.isLt; have h4 := k.isLt; show 0x64001000 + d.toNat * 524288 + a.toNat * 8192 + s.toNat * 128 + p.toNat * 8 + k.toNat < 2 ^ 31; omega
theorem CodeBound.vrng (d : BitVec 6) (k : BitVec 3) : CodeBound.Statement (.vrng d k) := by have h0 := d.isLt; have h1 := k.isLt; show 0x66000000 + d.toNat * 524288 + k.toNat < 2 ^ 31; omega
theorem CodeBound.vmov (d : BitVec 6) (a : BitVec 6) (p : BitVec 4) (k : BitVec 3) : CodeBound.Statement (.vmov d a p k) := by have h0 := d.isLt; have h1 := a.isLt; have h2 := p.isLt; have h3 := k.isLt; show 0x68000000 + d.toNat * 524288 + a.toNat * 8192 + p.toNat * 8 + k.toNat < 2 ^ 31; omega
theorem CodeBound.vmand (d : BitVec 4) (a : BitVec 4) (b : BitVec 4) : CodeBound.Statement (.vmand d a b) := by have h0 := d.isLt; have h1 := a.isLt; have h2 := b.isLt; show 0x6A000000 + d.toNat * 524288 + a.toNat * 8192 + b.toNat * 128 < 2 ^ 31; omega
theorem CodeBound.vmor (d : BitVec 4) (a : BitVec 4) (b : BitVec 4) : CodeBound.Statement (.vmor d a b) := by have h0 := d.isLt; have h1 := a.isLt; have h2 := b.isLt; show 0x6A000008 + d.toNat * 524288 + a.toNat * 8192 + b.toNat * 128 < 2 ^ 31; omega
theorem CodeBound.vmxor (d : BitVec 4) (a : BitVec 4) (b : BitVec 4) : CodeBound.Statement (.vmxor d a b) := by have h0 := d.isLt; have h1 := a.isLt; have h2 := b.isLt; show 0x6A000010 + d.toNat * 524288 + a.toNat * 8192 + b.toNat * 128 < 2 ^ 31; omega
theorem CodeBound.vmandn (d : BitVec 4) (a : BitVec 4) (b : BitVec 4) : CodeBound.Statement (.vmandn d a b) := by have h0 := d.isLt; have h1 := a.isLt; have h2 := b.isLt; show 0x6A000018 + d.toNat * 524288 + a.toNat * 8192 + b.toNat * 128 < 2 ^ 31; omega
theorem CodeBound.vmnot (d : BitVec 4) (a : BitVec 4) : CodeBound.Statement (.vmnot d a) := by have h0 := d.isLt; have h1 := a.isLt; show 0x6A000020 + d.toNat * 524288 + a.toNat * 8192 < 2 ^ 31; omega
theorem CodeBound.vmmov (d : BitVec 4) (a : BitVec 4) : CodeBound.Statement (.vmmov d a) := by have h0 := d.isLt; have h1 := a.isLt; show 0x6A000028 + d.toNat * 524288 + a.toNat * 8192 < 2 ^ 31; omega
theorem CodeBound.vmfirst (d : BitVec 4) (n : BitVec 12) : CodeBound.Statement (.vmfirst d n) := by have h0 := d.isLt; have h1 := n.isLt; show 0x6A000030 + d.toNat * 524288 + n.toNat * 128 < 2 ^ 31; omega
theorem CodeBound.vpop (d : BitVec 6) (q : BitVec 6) (k : BitVec 3) : CodeBound.Statement (.vpop d q k) := by have h0 := d.isLt; have h1 := q.isLt; have h2 := k.isLt; show 0x6C000000 + d.toNat * 524288 + q.toNat * 8192 + k.toNat < 2 ^ 31; omega
theorem CodeBound.vpush (q : BitVec 6) (a : BitVec 6) (p : BitVec 4) : CodeBound.Statement (.vpush q a p) := by have h0 := q.isLt; have h1 := a.isLt; have h2 := p.isLt; show 0x6E000000 + q.toNat * 524288 + a.toNat * 8192 + p.toNat * 8 < 2 ^ 31; omega
theorem CodeBound.loopr (s : BitVec 2) (r : Bool) (g : BitVec 3) (o : BitVec 19) : CodeBound.Statement (.loopr s r g o) := by have h0 := s.isLt; have h1 := boolBound r; have h2 := g.isLt; have h3 := o.isLt; show 0x70000000 + s.toNat * 8388608 + r.toNat * 4194304 + g.toNat * 524288 + o.toNat < 2 ^ 31; omega
theorem CodeBound.vBr (o : BitVec 19) : CodeBound.Statement (.vBr o) := by have h0 := o.isLt; show 0x72000000 + o.toNat < 2 ^ 31; omega
theorem CodeBound.vBfol (o : BitVec 19) : CodeBound.Statement (.vBfol o) := by have h0 := o.isLt; show 0x74000000 + o.toNat < 2 ^ 31; omega
theorem CodeBound.vBqt (o : BitVec 19) : CodeBound.Statement (.vBqt o) := by have h0 := o.isLt; show 0x76000000 + o.toNat < 2 ^ 31; omega
theorem CodeBound.vBqf (o : BitVec 19) : CodeBound.Statement (.vBqf o) := by have h0 := o.isLt; show 0x78000000 + o.toNat < 2 ^ 31; omega
theorem CodeBound.clamp (a : BitVec 4) (i : BitVec 3) : CodeBound.Statement (.clamp a i) := by have h0 := a.isLt; have h1 := i.isLt; show 0x02000000 + a.toNat * 524288 + i.toNat * 4096 < 2 ^ 31; omega
theorem CodeBound.free (a : BitVec 4) (i : BitVec 3) : CodeBound.Statement (.free a i) := by have h0 := a.isLt; have h1 := i.isLt; show 0x04000000 + a.toNat * 524288 + i.toNat * 4096 < 2 ^ 31; omega
theorem CodeBound.mma (t : BitVec 2) (a : BitVec 4) (b : BitVec 4) (i : BitVec 3) (j : BitVec 3) (z : Bool) : CodeBound.Statement (.mma t a b i j z) := by have h0 := t.isLt; have h1 := a.isLt; have h2 := b.isLt; have h3 := i.isLt; have h4 := j.isLt; have h5 := boolBound z; show 0x06000000 + t.toNat * 8388608 + a.toNat * 524288 + b.toNat * 32768 + i.toNat * 4096 + j.toNat * 512 + z.toNat < 2 ^ 31; omega
theorem CodeBound.mmas (t : BitVec 2) (a : BitVec 4) (b : BitVec 4) (i : BitVec 3) (j : BitVec 3) (z : Bool) : CodeBound.Statement (.mmas t a b i j z) := by have h0 := t.isLt; have h1 := a.isLt; have h2 := b.isLt; have h3 := i.isLt; have h4 := j.isLt; have h5 := boolBound z; show 0x08000000 + t.toNat * 8388608 + a.toNat * 524288 + b.toNat * 32768 + i.toNat * 4096 + j.toNat * 512 + z.toNat < 2 ^ 31; omega
theorem CodeBound.rep (b : Bool) (a : Bool) (n : BitVec 12) : CodeBound.Statement (.rep b a n) := by have h0 := boolBound b; have h1 := boolBound a; have h2 := n.isLt; show 0x0A000000 + b.toNat * 8192 + a.toNat * 4096 + n.toNat < 2 ^ 31; omega
theorem CodeBound.shape (i : BitVec 3) (j : BitVec 3) (k : BitVec 3) : CodeBound.Statement (.shape i j k) := by have h0 := i.isLt; have h1 := j.isLt; have h2 := k.isLt; show 0x0C000000 + i.toNat * 4096 + j.toNat * 512 + k.toNat < 2 ^ 31; omega
theorem CodeBound.xpose (a : BitVec 4) (b : BitVec 4) (i : BitVec 3) (j : BitVec 3) : CodeBound.Statement (.xpose a b i j) := by have h0 := a.isLt; have h1 := b.isLt; have h2 := i.isLt; have h3 := j.isLt; show 0x0E000000 + a.toNat * 524288 + b.toNat * 32768 + i.toNat * 4096 + j.toNat * 512 < 2 ^ 31; omega
theorem CodeBound.epi (t : BitVec 2) (b : BitVec 4) (j : BitVec 3) (r : Bool) (e : Bool) (g : BitVec 6) : CodeBound.Statement (.epi t b j r e g) := by have h0 := t.isLt; have h1 := b.isLt; have h2 := j.isLt; have h3 := boolBound r; have h4 := boolBound e; have h5 := g.isLt; show 0x10000000 + t.toNat * 8388608 + b.toNat * 32768 + j.toNat * 512 + r.toNat * 256 + e.toNat * 128 + g.toNat * 2 < 2 ^ 31; omega
theorem CodeBound.epir (t : BitVec 2) (n : BitVec 2) (r : Bool) (e : Bool) (g : BitVec 6) : CodeBound.Statement (.epir t n r e g) := by have h0 := t.isLt; have h1 := n.isLt; have h2 := boolBound r; have h3 := boolBound e; have h4 := g.isLt; show 0x12000000 + t.toNat * 8388608 + n.toNat * 32768 + r.toNat * 256 + e.toNat * 128 + g.toNat * 2 < 2 ^ 31; omega
theorem CodeBound.tzero (t : BitVec 2) : CodeBound.Statement (.tzero t) := by have h0 := t.isLt; show 0x14000000 + t.toNat * 8388608 < 2 ^ 31; omega
theorem CodeBound.tmov (t : BitVec 2) (s : BitVec 2) : CodeBound.Statement (.tmov t s) := by have h0 := t.isLt; have h1 := s.isLt; show 0x16000000 + t.toNat * 8388608 + s.toNat * 32768 < 2 ^ 31; omega
theorem CodeBound.iset (i : BitVec 3) (v : BitVec 16) : CodeBound.Statement (.iset i v) := by have h0 := i.isLt; have h1 := v.isLt; show 0x1A000000 + i.toNat * 4194304 + v.toNat < 2 ^ 31; omega
theorem CodeBound.mIadd (i : BitVec 3) (v : BitVec 16) : CodeBound.Statement (.mIadd i v) := by have h0 := i.isLt; have h1 := v.isLt; show 0x1C000000 + i.toNat * 4194304 + v.toNat < 2 ^ 31; omega
theorem CodeBound.mBr (o : BitVec 19) : CodeBound.Statement (.mBr o) := by have h0 := o.isLt; show 0x20000000 + o.toNat < 2 ^ 31; omega
theorem CodeBound.mBfol (o : BitVec 19) : CodeBound.Statement (.mBfol o) := by have h0 := o.isLt; show 0x22000000 + o.toNat < 2 ^ 31; omega
theorem CodeBound.mBqt (o : BitVec 19) : CodeBound.Statement (.mBqt o) := by have h0 := o.isLt; show 0x24000000 + o.toNat < 2 ^ 31; omega
theorem CodeBound.mBqf (o : BitVec 19) : CodeBound.Statement (.mBqf o) := by have h0 := o.isLt; show 0x26000000 + o.toNat < 2 ^ 31; omega
theorem CodeBound.mLoop (k : BitVec 3) (o : BitVec 19) : CodeBound.Statement (.mLoop k o) := by have h0 := k.isLt; have h1 := o.isLt; show 0x28000000 + k.toNat * 524288 + o.toNat < 2 ^ 31; omega
theorem CodeBound.lcWrite (v : W64) : CodeBound.Statement (.lcWrite v) := zeroBound
theorem CodeBound.gaugeWrite (dev : Bool) (n : BitVec 8) (v : BitVec 32) : CodeBound.Statement (.gaugeWrite dev n v) := zeroBound
theorem CodeBound.molagMoicurWrite (icur : Bool) (v : W64) : CodeBound.Statement (.molagMoicurWrite icur v) := zeroBound
theorem CodeBound.ethdbWrite (x : HostWrite) : CodeBound.Statement (.ethdbWrite x) := zeroBound
theorem CodeBound.dwloadWrite (v : W64) : CodeBound.Statement (.dwloadWrite v) := zeroBound
theorem CodeBound.collgrpWrite (n : BitVec 4) (v : W64) : CodeBound.Statement (.collgrpWrite n v) := zeroBound
theorem CodeBound.glucfgWrite (fillb : Bool) (v : W64) : CodeBound.Statement (.glucfgWrite fillb v) := zeroBound
theorem CodeBound.scrcfgWrite (scrr : Bool) (v : W64) : CodeBound.Statement (.scrcfgWrite scrr v) := zeroBound
theorem CodeBound.scrhWrite (v : W64) : CodeBound.Statement (.scrhWrite v) := zeroBound
theorem CodeBound.copyStart (q : MemQ) : CodeBound.Statement (.copyStart q) := zeroBound
theorem CodeBound.copyChunkSeen (q : MemQ) : CodeBound.Statement (.copyChunkSeen q) := zeroBound
theorem CodeBound.promiseSectorPerform (id : Nat) (sec : Nat) : CodeBound.Statement (.promiseSectorPerform id sec) := zeroBound
theorem CodeBound.promiseMiss (q : MemQ) : CodeBound.Statement (.promiseMiss q) := zeroBound
theorem CodeBound.gatherRowLand (id : Nat) (row : Nat) : CodeBound.Statement (.gatherRowLand id row) := zeroBound
theorem CodeBound.gaddApply (e : Eng) : CodeBound.Statement (.gaddApply e) := zeroBound
theorem CodeBound.stopFire (dev : Bool) (n : BitVec 6) : CodeBound.Statement (.stopFire dev n) := zeroBound
theorem CodeBound.mmaComplete (t : BitVec 2) : CodeBound.Statement (.mmaComplete t) := zeroBound
theorem CodeBound.epirRowPerform (id : Nat) : CodeBound.Statement (.epirRowPerform id) := zeroBound
theorem CodeBound.bankSwitchBegin (n : BitVec 6) : CodeBound.Statement (.bankSwitchBegin n) := zeroBound
theorem CodeBound.bankSwitchEnd (n : BitVec 6) : CodeBound.Statement (.bankSwitchEnd n) := zeroBound
theorem CodeBound.earlyReached (li : Nat) (q : Nat) : CodeBound.Statement (.earlyReached li q) := zeroBound
theorem CodeBound.translationStallTimeout (e : Eng) : CodeBound.Statement (.translationStallTimeout e) := zeroBound
theorem CodeBound.remoteAccessTimeout (rid : Nat) : CodeBound.Statement (.remoteAccessTimeout rid) := zeroBound
theorem CodeBound.launch (n : BitVec 6) (ra : W64) : CodeBound.Statement (.launch n ra) := zeroBound
theorem CodeBound.launchi (n : BitVec 6) (msk : BitVec 6) (ra : W64) (xa : W64) : CodeBound.Statement (.launchi n msk ra xa) := zeroBound
theorem CodeBound.cmdLoop (n : BitVec 6) (cnt : W64) : CodeBound.Statement (.cmdLoop n cnt) := zeroBound
theorem CodeBound.endLoop (n : BitVec 6) : CodeBound.Statement (.endLoop n) := zeroBound
theorem CodeBound.cmdIf (n : BitVec 6) (neg : Bool) (tau : BitVec 32) (g : BitVec 8) : CodeBound.Statement (.cmdIf n neg tau g) := zeroBound
theorem CodeBound.cmdElse (n : BitVec 6) : CodeBound.Statement (.cmdElse n) := zeroBound
theorem CodeBound.endIf (n : BitVec 6) : CodeBound.Statement (.endIf n) := zeroBound
theorem CodeBound.cmdWaitg (n : BitVec 6) (tau : BitVec 32) (g : BitVec 8) : CodeBound.Statement (.cmdWaitg n tau g) := zeroBound
theorem CodeBound.signalImmediate (n : BitVec 6) (h : Bool) (amt : BitVec 32) (g : BitVec 8) : CodeBound.Statement (.signalImmediate n h amt g) := zeroBound
theorem CodeBound.signalDeferred (n : BitVec 6) (h : Bool) (amt : BitVec 32) (g : BitVec 8) : CodeBound.Statement (.signalDeferred n h amt g) := zeroBound
theorem CodeBound.signalDeferredApply (n : BitVec 6) : CodeBound.Statement (.signalDeferredApply n) := zeroBound
theorem CodeBound.stepopen (n : BitVec 6) (k : W64) (stok : BitVec 8) (f : BitVec 8) (m : BitVec 9) : CodeBound.Statement (.stepopen n k stok f m) := zeroBound
theorem CodeBound.stepclose (n : BitVec 6) : CodeBound.Statement (.stepclose n) := zeroBound
theorem CodeBound.cmdFence (n : BitVec 6) (fab : Bool) : CodeBound.Statement (.cmdFence n fab) := zeroBound
theorem CodeBound.write (n : BitVec 6) (v : W64) (ad : W64) : CodeBound.Statement (.write n v ad) := zeroBound
theorem CodeBound.writeGauge (n : BitVec 6) (v : W64) (g : BitVec 8) : CodeBound.Statement (.writeGauge n v g) := zeroBound
theorem CodeBound.halt (n : BitVec 6) (h : Bool) : CodeBound.Statement (.halt n h) := zeroBound
theorem CodeBound.launchReady (li : Nat) : CodeBound.Statement (.launchReady li) := zeroBound
theorem CodeBound.launchRetire (li : Nat) : CodeBound.Statement (.launchRetire li) := zeroBound
theorem CodeBound.launchFaulted (li : Nat) : CodeBound.Statement (.launchFaulted li) := zeroBound
theorem CodeBound.promotion (li : Nat) : CodeBound.Statement (.promotion li) := zeroBound
theorem CodeBound.preemption (li : Nat) : CodeBound.Statement (.preemption li) := zeroBound
theorem CodeBound.sramScrub (clu : Nat) (fnd : ScrubFind) : CodeBound.Statement (.sramScrub clu fnd) := zeroBound
theorem CodeBound.pageRetirement (x : HbmFind) : CodeBound.Statement (.pageRetirement x) := zeroBound
theorem CodeBound.versionScrubVisit (line : Nat) : CodeBound.Statement (.versionScrubVisit line) := zeroBound
theorem CodeBound.poisonRepair (ctx : Ctx) (line : Nat) (data : BitVec 1024) (pois : BitVec 4) (tg : LineTags) : CodeBound.Statement (.poisonRepair ctx line data pois tg) := zeroBound
theorem CodeBound.rewardArrival (tid : W64) (t : BitVec 12) (r : BitVec 32) (term : Bool) : CodeBound.Statement (.rewardArrival tid t r term) := zeroBound
theorem CodeBound.episodeTimeout (tid : W64) : CodeBound.Statement (.episodeTimeout tid) := zeroBound
theorem CodeBound.freeSlotsArrival (pk : Packet) : CodeBound.Statement (.freeSlotsArrival pk) := zeroBound
theorem CodeBound.collectiveChunkRead (id : Nat) : CodeBound.Statement (.collectiveChunkRead id) := zeroBound
theorem CodeBound.collectivePacketArrival (pk : Packet) : CodeBound.Statement (.collectivePacketArrival pk) := zeroBound
theorem CodeBound.collectiveAckArrival (pk : Packet) : CodeBound.Statement (.collectiveAckArrival pk) := zeroBound
theorem CodeBound.collectiveComplete (id : Nat) : CodeBound.Statement (.collectiveComplete id) := zeroBound
theorem CodeBound.collectiveTimeout (id : Nat) : CodeBound.Statement (.collectiveTimeout id) := zeroBound
theorem CodeBound.veneerPlaneSend (id : Nat) : CodeBound.Statement (.veneerPlaneSend id) := zeroBound
theorem CodeBound.veneerPlaneArrival (pk : Packet) : CodeBound.Statement (.veneerPlaneArrival pk) := zeroBound
theorem CodeBound.veneerCancelArrival (pk : Packet) : CodeBound.Statement (.veneerCancelArrival pk) := zeroBound
theorem CodeBound.veneerAckArrival (pk : Packet) : CodeBound.Statement (.veneerAckArrival pk) := zeroBound
theorem CodeBound.veneerFirstPlaneTimeout (pk : Packet) : CodeBound.Statement (.veneerFirstPlaneTimeout pk) := zeroBound
theorem CodeBound.remoteLoadArrival (pk : Packet) : CodeBound.Statement (.remoteLoadArrival pk) := zeroBound
theorem CodeBound.remoteStoreArrival (pk : Packet) : CodeBound.Statement (.remoteStoreArrival pk) := zeroBound
theorem CodeBound.answerArrival (pk : Packet) : CodeBound.Statement (.answerArrival pk) := zeroBound
theorem CodeBound.dowelOperation (stack : BitVec 4) : CodeBound.Statement (.dowelOperation stack) := zeroBound
theorem CodeBound.dowelHandler (stack : BitVec 4) : CodeBound.Statement (.dowelHandler stack) := zeroBound
theorem CodeBound.handlerLoadComplete (ctx : Ctx) : CodeBound.Statement (.handlerLoadComplete ctx) := zeroBound
theorem CodeBound.flitReplay (glob : Bool) (n : BitVec 7) : CodeBound.Statement (.flitReplay glob n) := zeroBound
theorem CodeBound.laneSwap (glob : Bool) (n : BitVec 7) (part : LinkPart) : CodeBound.Statement (.laneSwap glob n part) := zeroBound
theorem CodeBound.linkDown (glob : Bool) (n : BitVec 7) : CodeBound.Statement (.linkDown glob n) := zeroBound
theorem CodeBound.voteSend (ctx : Ctx) : CodeBound.Statement (.voteSend ctx) := zeroBound
theorem CodeBound.vetoVote (ctx : Ctx) : CodeBound.Statement (.vetoVote ctx) := zeroBound
theorem CodeBound.voteArrival (pk : Packet) : CodeBound.Statement (.voteArrival pk) := zeroBound
theorem CodeBound.rootDecision (ctx : Ctx) : CodeBound.Statement (.rootDecision ctx) := zeroBound
theorem CodeBound.applyDecision (pk : Packet) : CodeBound.Statement (.applyDecision pk) := zeroBound
theorem CodeBound.decidedStateExit (ctx : Ctx) : CodeBound.Statement (.decidedStateExit ctx) := zeroBound
theorem CodeBound.voteWaitTimeout (ctx : Ctx) : CodeBound.Statement (.voteWaitTimeout ctx) := zeroBound
theorem CodeBound.keepAliveSend (ctx : Ctx) : CodeBound.Statement (.keepAliveSend ctx) := zeroBound
theorem CodeBound.declareLost (ctx : Ctx) (rank : BitVec 12) : CodeBound.Statement (.declareLost ctx rank) := zeroBound
theorem CodeBound.lostNoticeArrival (pk : Packet) : CodeBound.Statement (.lostNoticeArrival pk) := zeroBound
theorem CodeBound.ancestorSilenceHalt (ctx : Ctx) : CodeBound.Statement (.ancestorSilenceHalt ctx) := zeroBound
theorem CodeBound.fillAssignmentArrival (pk : Packet) : CodeBound.Statement (.fillAssignmentArrival pk) := zeroBound
theorem CodeBound.fillComplete (ctx : Ctx) : CodeBound.Statement (.fillComplete ctx) := zeroBound
theorem CodeBound.fillDoneArrival (pk : Packet) : CodeBound.Statement (.fillDoneArrival pk) := zeroBound
theorem CodeBound.checkpointPathHalt (ctx : Ctx) : CodeBound.Statement (.checkpointPathHalt ctx) := zeroBound
theorem CodeBound.fabricBarrierArrival (pk : Packet) : CodeBound.Statement (.fabricBarrierArrival pk) := zeroBound
theorem CodeBound.fabricBarrierRelease (pk : Packet) : CodeBound.Statement (.fabricBarrierRelease pk) := zeroBound
theorem CodeBound.scribeDivergence (ctx : Ctx) (kind : BitVec 8) (unit : BitVec 8) : CodeBound.Statement (.scribeDivergence ctx kind unit) := zeroBound
theorem CodeBound.ethTxFrame (port : BitVec 4) : CodeBound.Statement (.ethTxFrame port) := zeroBound
theorem CodeBound.ethTxComplete (ring : BitVec 7) : CodeBound.Statement (.ethTxComplete ring) := zeroBound
theorem CodeBound.ethRxFrame (port : BitVec 4) (addrs : BitVec 96) (rest fcs : Bytes) :
    CodeBound.Statement (.ethRxFrame port addrs rest fcs) := zeroBound
theorem CodeBound.powerCapThrottle (mhz : BitVec 16) (x : Measured) : CodeBound.Statement (.powerCapThrottle mhz x) := zeroBound
theorem CodeBound.thermalShutdown (k : Nat) : CodeBound.Statement (.thermalShutdown k) := zeroBound
theorem CodeBound.deviceReset (b : BootImages) : CodeBound.Statement (.deviceReset b) := zeroBound
theorem CodeBound.ownerLinkDown (w : Nat) : CodeBound.Statement (.ownerLinkDown w) := zeroBound
theorem CodeBound.claim (w : Nat) : CodeBound.Statement (.claim w) := zeroBound
theorem CodeBound.give (w : Nat) (tgt : BitVec 8) : CodeBound.Statement (.give w tgt) := zeroBound
theorem CodeBound.accept (w : Nat) : CodeBound.Statement (.accept w) := zeroBound
theorem CodeBound.release (w : Nat) : CodeBound.Statement (.release w) := zeroBound
theorem CodeBound.installTensorHandle (w : Nat) (ctx : Ctx) (idx : BitVec 12) (rec : BitVec 512) : CodeBound.Statement (.installTensorHandle w ctx idx rec) := zeroBound
theorem CodeBound.markVersioned (w : Nat) (ctx : Ctx) (va : W64) : CodeBound.Statement (.markVersioned w ctx va) := zeroBound
theorem CodeBound.unmarkVersioned (w : Nat) (ctx : Ctx) (va : W64) : CodeBound.Statement (.unmarkVersioned w ctx va) := zeroBound
theorem CodeBound.setCoreSet (w : Nat) (ctx : Ctx) (cores : BitVec 384) (stk : Cap) (sz : W64) : CodeBound.Statement (.setCoreSet w ctx cores stk sz) := zeroBound
theorem CodeBound.assignUnit (w : Nat) (dove : Bool) (ctx : Ctx) (cfg : W64) : CodeBound.Statement (.assignUnit w dove ctx cfg) := zeroBound
theorem CodeBound.restoreStepPosition (w : Nat) (ctx : Ctx) (ra : W64) : CodeBound.Statement (.restoreStepPosition w ctx ra) := zeroBound
theorem CodeBound.debugHaltDrain (w : Nat) (tgt : DebugTarget) : CodeBound.Statement (.debugHaltDrain w tgt) := zeroBound
theorem CodeBound.debugHaltFreeze (w : Nat) (tgt : DebugTarget) : CodeBound.Statement (.debugHaltFreeze w tgt) := zeroBound
theorem CodeBound.debugResume (w : Nat) (tgt : DebugTarget) : CodeBound.Statement (.debugResume w tgt) := zeroBound
theorem CodeBound.debugWrite (w : Nat) (dw : DebugWrite) : CodeBound.Statement (.debugWrite w dw) := zeroBound
theorem CodeBound.repairMapUpdate (w : Nat) (img : RepairImage) : CodeBound.Statement (.repairMapUpdate w img) := zeroBound
theorem CodeBound.quote (w : Nat) (nonce : BitVec 256) : CodeBound.Statement (.quote w nonce) := zeroBound
theorem CodeBound.setPowerCap (w : Nat) (cap : BitVec 16) : CodeBound.Statement (.setPowerCap w cap) := zeroBound
theorem CodeBound.assignEthernetRing (w : Nat) (ring : BitVec 7) (d : BitVec 256) : CodeBound.Statement (.assignEthernetRing w ring d) := zeroBound
theorem CodeBound.accessPerformed (n : Nat) : CodeBound.Statement (.accessPerformed n) := zeroBound
theorem CodeBound.engineTakesOperation (e : Eng) : CodeBound.Statement (.engineTakesOperation e) := zeroBound
theorem CodeBound.streamDescriptorWrite (w : Nat) (n : BitVec 6) (d : BitVec 256) : CodeBound.Statement (.streamDescriptorWrite w n d) := zeroBound
theorem CodeBound.ethLinkChange (port : BitVec 4) (up : Bool) : CodeBound.Statement (.ethLinkChange port up) := zeroBound
theorem CodeBound.priorityFlowControlPause (port : BitVec 4) (prio : BitVec 3) (on : Bool) : CodeBound.Statement (.priorityFlowControlPause port prio on) := zeroBound
theorem CodeBound.eret : CodeBound.Statement (.eret) := by show 0x38000000 < 2 ^ 31; omega
theorem CodeBound.sEnd : CodeBound.Statement (.sEnd) := by show 0x3A000000 < 2 ^ 31; omega
theorem CodeBound.early : CodeBound.Statement (.early) := by show 0x3C000000 < 2 ^ 31; omega
theorem CodeBound.aEnd : CodeBound.Statement (.aEnd) := by show 0x68000000 < 2 ^ 31; omega
theorem CodeBound.vEnd : CodeBound.Statement (.vEnd) := by show 0x7A000000 < 2 ^ 31; omega
theorem CodeBound.shapeOff : CodeBound.Statement (.shapeOff) := by show 0x0C000100 < 2 ^ 31; omega
theorem CodeBound.mEnd : CodeBound.Statement (.mEnd) := by show 0x2A000000 < 2 ^ 31; omega
theorem CodeBound.epiOutputSeen : CodeBound.Statement (.epiOutputSeen) := zeroBound
theorem CodeBound.xposeOutputSeen : CodeBound.Statement (.xposeOutputSeen) := zeroBound
theorem CodeBound.barrierComplete : CodeBound.Statement (.barrierComplete) := zeroBound
theorem CodeBound.queueDeadlock : CodeBound.Statement (.queueDeadlock) := zeroBound
theorem CodeBound.reportedTrapTaken : CodeBound.Statement (.reportedTrapTaken) := zeroBound
theorem CodeBound.watchdog : CodeBound.Statement (.watchdog) := zeroBound
theorem CodeBound.translationWalkComplete : CodeBound.Statement (.translationWalkComplete) := zeroBound
theorem CodeBound.pieceStart : CodeBound.Statement (.pieceStart) := zeroBound
theorem CodeBound.drainConversion : CodeBound.Statement (.drainConversion) := zeroBound
theorem CodeBound.scrubPassEnd : CodeBound.Statement (.scrubPassEnd) := zeroBound
theorem CodeBound.planeScan : CodeBound.Statement (.planeScan) := zeroBound
theorem CodeBound.dovetailEntryStart : CodeBound.Statement (.dovetailEntryStart) := zeroBound
theorem CodeBound.dovetailTableEnd : CodeBound.Statement (.dovetailTableEnd) := zeroBound
theorem CodeBound.collectiveStart : CodeBound.Statement (.collectiveStart) := zeroBound
theorem CodeBound.veneerEntryWaitDrop : CodeBound.Statement (.veneerEntryWaitDrop) := zeroBound
theorem CodeBound.coreFailure : CodeBound.Statement (.coreFailure) := zeroBound
theorem CodeBound.coreScratchSwitchEnd : CodeBound.Statement (.coreScratchSwitchEnd) := zeroBound

end Sys2Proof.Laws
end

