-- ==== Sys2Proof/Laws/Run.lean ====
section
/-! SUPPORT. The decoders that a step uses agree with the decoders of Decode.lean followed by exec. -/
namespace Sys2Proof.Laws
open Sys2Proof Sys2Proof.Machine

/-- Run what a decoder answers. -/
def runDecoded (r : Option Instr) (s : State) (no : Host.Outcome State Fault Refusal) : Host.Outcome State Fault Refusal :=
  match r with
  | some i => exec i s
  | none => no

theorem runDecoded_ite (c : Prop) [Decidable c] (a b : Option Instr) (s : State) (no : Host.Outcome State Fault Refusal) :
    runDecoded (if c then a else b) s no = if c then runDecoded a s no else runDecoded b s no := by
  split <;> rfl

theorem runDecoded_accept (i : Instr) (s : State) (no : Host.Outcome State Fault Refusal) (h : i.wf = true) :
    runDecoded (accept i) s no = exec i s := by
  simp [accept, h, runDecoded]

/-- A word of M runs as decodeM followed by exec. -/
theorem runM_eq (n : Nat) (s : State) : runM n s = runDecoded (decodeM n) s (illegalM s) := by
  unfold runM decodeM
  generalize n / 2 ^ 25 % 64 = k
  split
  case h_18 =>
    simp only [runDecoded_ite, accept, Instr.wf]
    by_cases h : fx n 22 3 0 = true <;> by_cases hw : wfLoop (fd 19 0 n) = true <;> simp [h, hw, runDecoded, exec]
  case h_20 => first | rfl | (split <;> first | rfl | contradiction)
  all_goals
    simp only [runDecoded_ite]
    first
      | rfl
      | (repeat' split) <;> rfl

/-- acceptsM says whether decodeM answers. -/
theorem acceptsM_eq (n : Nat) : acceptsM n = (decodeM n).isSome := by
  unfold acceptsM decodeM
  generalize n / 2 ^ 25 % 64 = k
  split
  case h_18 =>
    simp only [accept, Instr.wf]
    by_cases h : fx n 22 3 0 = true <;> by_cases hw : wfLoop (fd 19 0 n) = true <;> simp [h, hw]
  case h_6 =>
    by_cases h : fx n 0 25 0x100 = true <;> by_cases h2 : (fx n 3 6 0x0 && fx n 15 10 0x0) = true <;>
      simp [h, h2, accept, Instr.wf]
  case h_20 => rfl
  all_goals
    split <;> simp_all [accept, Instr.wf]

/-- A word runs as its cluster's decoder followed by exec; one that no arm accepts is an Illegal Word. -/
theorem runWord_eq (k : Cl) (n p : Nat) (s : State) :
    runWord k n p s = runDecoded ((decodeWord k n p).map SlotWord.i) s
      (if k = .m then illegalM s else issue k s (s.illegal k)) := by
  cases k
  · show (match decodeS n with | some i => exec i s | none => _) = _
    cases h : decodeS n <;> simp [decodeWord, h, runDecoded]
  · show (match decodeA n p with | some i => exec i s | none => _) = _
    cases h : decodeA n p <;> simp [decodeWord, h, runDecoded]
  · show (match decodeV n with | some i => exec i s | none => _) = _
    cases h : decodeV n <;> simp [decodeWord, h, runDecoded]
  · show runM n s = _
    rw [runM_eq]
    cases h : decodeM n <;> simp [decodeWord, h, runDecoded]

/-- A command runs as decodeCommand followed by exec; one with an undefined OP is stream fault 1. -/
theorem runCommand_eq (n : BitVec 6) (w : Nat) (s : State) :
    runCommandWord n w s = runDecoded (decodeCommand n w) s (undefinedOp n s) := by
  unfold runCommandWord decodeCommand
  generalize w % 256 = k
  dsimp only
  split
  case h_9 =>
    dsimp only [runDecoded]
    split <;> rfl
  case h_13 =>
    dsimp only [runDecoded]
    split <;> rfl
  case h_15 => first | rfl | (split <;> first | rfl | contradiction)
  all_goals rfl

end Sys2Proof.Laws
end

