-- ==== Sys2Proof/Tests/Slice0.lean ====
section
/-! SUPPORT. Tests of the model: terms that WellFormed refuses, words that the decoders read, single steps whose results the spec's
examples and rules give, and for the statements of Certificates concrete states that meet their hypotheses. The words of the spec's
worked examples are the ones printed beside them; every other word is put together by hand from the fields of its row in the
encoding tables of 03 R71, 04 R118, 05 R150 and 07 R208. -/
set_option Elab.async false

namespace Sys2Proof.Tests
open Sys2Proof Sys2Proof.Machine

/-! ## Ill-formed terms -/

/-- Rounding modes, the width of LOSSCHK, loop bodies, queue numbers, gauges, barriers (02 R60, 03 R79, R86, R94, R97, R99). -/
theorem test_wf_scalar : [Instr.fcvtS64F32 1 2 4, .fcvtZ64F32 1 2 5, .fcvtF32S64 1 2 6, .fcvtF32Z64 1 2 7, .fcvtBf16F32 1 2 4,
    .fcvtF16F32 1 2 4, .losschk 1 2 17, .sLoop 1 1, .sLoop 1 66, .sQpush 0 1, .sQpush 5 1, .sQpop 1 1, .sQpop 1 10, .waitg 1 2 false 64,
    .bar 1 0 16, .bar 1 2 8, .bar 1 3 0, .barF 1 0 16, .barF 1 2 8, .barF 1 3 0].all (fun i => !i.wf) = true := by decide

/-- Capability fields, spaces, queues, atomics, widths, classes, banks, engines (04 R119, R122, R118, R134, R137, R139, R140, R146). -/
theorem test_wf_access : [Instr.cget 1 2 7, .csets 1 2 5, .ldS8 1 1 0 0, .ldZ8 1 3 0 0, .ldS16 1 4 0 0, .ldZ16 1 1 0 0, .ldS32 1 1 0 0,
    .ldZ32 1 1 0 0, .ld64 1 1 0 0, .st8 1 0 0 0, .st16 1 2 0 0, .st32 1 0 0 0, .st64 1 4 0 0, .atom 1 0 0 0 0 false, .atom 1 0 0 10 2 false,
    .atom 1 1 0 0 2 false, .atom 1 2 0 16 2 false, .ratom 1 0 0 0 1 false, .ratomH 1 1 0 0 true false, .ratomH 1 2 0 0 false false,
    .latom 1 0 0 false, .latom 1 0 3 false, .fenceC 0 0, .bankset 1 0 48, .bankset 1 3 0, .aLoop 1 1, .aLoop 1 66, .eng 7 0 0,
    .aQpush 1 2, .aQpop 1 0].all (fun i => !i.wf) = true := by decide

/-- VSETT's reserved codes, destination m0, rates, counts, queues, stage maps and loop bodies (01 R18, 05 R153, R155, R159, R160, R164, R177;
07 R238). -/
theorem test_wf_vector_matrix : [Instr.vsett 3, .vsett 8, .vsett 0x60, .vsett 0x80, .vsett 0x800, .vfcmp 0 0 1 2 0 0, .vfcmpVa 0 0 1 2 0 0,
    .vcmp 0 0 1 2 0 0, .vcmpVa 0 0 1 2 0 0, .vcvtF2n 1 2 5 0 0, .vcvtF2ns 1 2 5 0 0, .vcvtN2f 1 2 5 0 0, .vcvtF2i 1 2 5 0 0,
    .vcvtI2f 1 2 5 0 0, .vmand 0 1 2, .vmor 0 1 2, .vmxor 0 1 2, .vmandn 0 1 2, .vmnot 0 1, .vmmov 0 1, .vmfirst 0 1, .vmfirst 1 257,
    .vpop 1 3 0, .vpush 2 1 0, .loopr 2 false 0 4, .loopr 0 false 0 1, .loopr 0 false 0 66, .mLoop 1 1, .mLoop 1 66].all
    (fun i => !i.wf) = true := by decide

/-- Words that no decoder reads: reserved bits set, an opcode without a row, an ill-formed field (01 R31, R32). -/
theorem test_illegal_words : (decodeS 0x03000000).isNone ∧ (decodeS 0x7E000000).isNone ∧ (decodeS 0x34680001).isNone ∧
    (decodeA 0x62000001 0).isNone ∧ (decodeA 0x63C00000 0).isNone ∧ (decodeV 0x6A000000).isNone ∧ (decodeM 0x0C000101).isNone ∧
    (decodeM 0x22000001).isNone ∧ (decodeM 0x88000000).isNone := by decide

/-! ## Words -/

/-- Words of the scalar cluster, each written out from the fields of its table row. -/
def wordsS0 : List (Nat × Instr) :=
  [(0x02F08600, .add 30#5 4#5 12#5),
   (0x82084D01, .sub 1#5 2#5 26#5),
   (0x82196902, .and 3#5 11#5 18#5),
   (0x02EA0303, .or 29#5 16#5 6#5),
   (0x0211A684, .xor 2#5 13#5 13#5),
   (0x02384885, .andn 7#5 2#5 17#5),
   (0x020B4906, .sll 1#5 26#5 18#5),
   (0x02F0EA07, .srl 30#5 7#5 20#5),
   (0x8293C088, .sra 18#5 30#5 1#5),
   (0x82918089, .rotr 18#5 12#5 1#5),
   (0x8238288A, .slt 7#5 1#5 17#5),
   (0x8221268B, .sltz 4#5 9#5 13#5),
   (0x0288690C, .min 17#5 3#5 18#5),
   (0x028B4A8D, .max 17#5 26#5 21#5),
   (0x021A490E, .minz 3#5 18#5 18#5),
   (0x8231618F, .maxz 6#5 11#5 3#5)]

theorem test_decode_scalar_0 : wordsS0.all (fun p => decide (decodeS p.1 = some p.2)) = true := by decide

theorem test_encode_scalar_0 :
    wordsS0.all (fun p => decide (encode ⟨fb 31 p.1, p.2⟩ = (BitVec.ofNat 32 p.1) :: (if p.2.words = 2 then [BitVec.ofNat 32 (p.1 / 2 ^ 32)] else []))) = true := by decide

/-- Words of the scalar cluster, each written out from the fields of its table row. -/
def wordsS1 : List (Nat × Instr) :=
  [(0x82B04910, .mul 22#5 2#5 18#5),
   (0x0298C791, .mulh 19#5 6#5 15#5),
   (0x8289AC12, .mulhz 17#5 13#5 24#5),
   (0x02724E93, .mulhsz 14#5 18#5 29#5),
   (0x02592398, .div 11#5 9#5 7#5),
   (0x822ACC19, .divz 5#5 22#5 24#5),
   (0x0212449A, .rem 2#5 18#5 9#5),
   (0x827B851B, .remz 15#5 28#5 10#5),
   (0x827129A0, .clmul 14#5 9#5 19#5),
   (0x82106821, .clmulh 2#5 3#5 16#5),
   (0x022B0028, .clz 5#5 24#5),
   (0x0223A029, .ctz 4#5 29#5),
   (0x0268202A, .popc 13#5 1#5),
   (0x82A8402B, .brev 21#5 2#5),
   (0x828A402C, .bswap 17#5 18#5),
   (0x84E34A0A, .addi 28#5 26#5 2570#13)]

theorem test_decode_scalar_1 : wordsS1.all (fun p => decide (decodeS p.1 = some p.2)) = true := by decide

theorem test_encode_scalar_1 :
    wordsS1.all (fun p => decide (encode ⟨fb 31 p.1, p.2⟩ = (BitVec.ofNat 32 p.1) :: (if p.2.words = 2 then [BitVec.ofNat 32 (p.1 / 2 ^ 32)] else []))) = true := by decide

/-- Words of the scalar cluster, each written out from the fields of its table row. -/
def wordsS2 : List (Nat × Instr) :=
  [(0x06B17305, .andi 22#5 11#5 4869#13),
   (0x08932E99, .ori 18#5 25#5 3737#13),
   (0x0AD05E3A, .xori 26#5 2#5 7738#13),
   (0x0C7AC02A, .slli 15#5 22#5 42#6),
   (0x0C0AE06C, .srli 1#5 23#5 44#6),
   (0x0CA240BF, .srai 20#5 18#5 63#6),
   (0x8CD1C0D2, .rotri 26#5 14#5 18#6),
   (0x8E639565, .slti 12#5 28#5 5477#13),
   (0x100BCEC6, .sltiz 1#5 30#5 3782#13),
   (0x122CE329, .lih 5#5 320297#19),
   (0x14782300, .faddF32 15#5 1#5 6#5),
   (0x94488B81, .fsubF32 9#5 4#5 23#5),
   (0x14618E82, .fmulF32 12#5 12#5 29#5),
   (0x94784283, .fmaF32 15#5 2#5 5#5),
   (0x14622404, .fdivF32 12#5 17#5 8#5),
   (0x94234005, .fsqrtF32 4#5 26#5)]

theorem test_decode_scalar_2 : wordsS2.all (fun p => decide (decodeS p.1 = some p.2)) = true := by decide

theorem test_encode_scalar_2 :
    wordsS2.all (fun p => decide (encode ⟨fb 31 p.1, p.2⟩ = (BitVec.ofNat 32 p.1) :: (if p.2.words = 2 then [BitVec.ofNat 32 (p.1 / 2 ^ 32)] else []))) = true := by decide

/-- Words of the scalar cluster, each written out from the fields of its table row. -/
def wordsS3 : List (Nat × Instr) :=
  [(0x14DA2406, .fminF32 27#5 17#5 8#5),
   (0x946BE587, .fmaxF32 13#5 31#5 11#5),
   (0x94E18F08, .feqF32 28#5 12#5 30#5),
   (0x14204289, .fltF32 4#5 2#5 5#5),
   (0x143AA38A, .fleF32 7#5 21#5 7#5),
   (0x147B400B, .fabsF32 15#5 26#5),
   (0x9429000C, .fnegF32 5#5 8#5),
   (0x14088190, .fcvtS64F32 1#5 4#5 3#3),
   (0x14896111, .fcvtZ64F32 17#5 11#5 2#3),
   (0x94914092, .fcvtF32S64 18#5 10#5 1#3),
   (0x9422C193, .fcvtF32Z64 4#5 22#5 3#3),
   (0x9483C014, .fcvtF32Bf16 16#5 30#5),
   (0x94A2A115, .fcvtBf16F32 20#5 21#5 2#3),
   (0x9409C016, .fcvtF32F16 1#5 14#5),
   (0x94DB0097, .fcvtF16F32 27#5 24#5 1#3),
   (0x96DAA00D, .losschk 27#5 21#5 13#7)]

theorem test_decode_scalar_3 : wordsS3.all (fun p => decide (decodeS p.1 = some p.2)) = true := by decide

theorem test_encode_scalar_3 :
    wordsS3.all (fun p => decide (encode ⟨fb 31 p.1, p.2⟩ = (BitVec.ofNat 32 p.1) :: (if p.2.words = 2 then [BitVec.ofNat 32 (p.1 / 2 ^ 32)] else []))) = true := by decide

/-- Words of the scalar cluster, each written out from the fields of its table row. -/
def wordsS4 : List (Nat × Instr) :=
  [(0xA0047963, .sBr 293219#19),
   (0x22032F3F, .call 208703#19),
   (0x2460D40B, .sBeqz 12#5 54283#19),
   (0x26A3341B, .sBnez 20#5 209947#19),
   (0x283089ED, .sBltz 6#5 35309#19),
   (0xAA338667, .sBgez 6#5 231015#19),
   (0x2C00E122, .sBfol 57634#19),
   (0x2E04CE4A, .sBqt 314954#19),
   (0x3000D1AC, .sBqf 53676#19),
   (0x32908000, .jalr 18#5 4#5),
   (0xB4180030, .sLoop 3#5 48#19),
   (0xB60000D0, .trap 208#13),
   (0x38000000, .eret),
   (0xBA000000, .sEnd),
   (0x3C000000, .early),
   (0xC0600260, .csrr 12#5 608#12)]

theorem test_decode_scalar_4 : wordsS4.all (fun p => decide (decodeS p.1 = some p.2)) = true := by decide

theorem test_encode_scalar_4 :
    wordsS4.all (fun p => decide (encode ⟨fb 31 p.1, p.2⟩ = (BitVec.ofNat 32 p.1) :: (if p.2.words = 2 then [BitVec.ofNat 32 (p.1 / 2 ^ 32)] else []))) = true := by decide

/-- Words of the scalar cluster, each written out from the fields of its table row. -/
def wordsS5 : List (Nat × Instr) :=
  [(0xC2010F49, .csrw 8#5 3913#12),
   (0x440265D3, .csrs 19#5 1491#12),
   (0x460061D8, .csrc 3#5 472#12),
   (0xC821E000, .sQpush 4#6 15#5),
   (0xCAF8A000, .sQpop 31#5 5#6),
   (0x4C01E000, .fmtq 15#5),
   (0x4E012000, .waitc 9#5),
   (0x5020602D, .waitg 4#5 3#5 false 45#8),
   (0xD20140AD, .bar 10#5 1#2 45#6),
   (0xD202E305, .barF 23#5 2#2 5#6),
   (0x54780000, .stepbeg 15#5),
   (0xD602C030, .stepvote 22#5 true 16#5),
   (0x58300000, .stepend 6#5),
   (0xC0F00016, .waitl 30#5)]

theorem test_decode_scalar_5 : wordsS5.all (fun p => decide (decodeS p.1 = some p.2)) = true := by decide

theorem test_encode_scalar_5 :
    wordsS5.all (fun p => decide (encode ⟨fb 31 p.1, p.2⟩ = (BitVec.ofNat 32 p.1) :: (if p.2.words = 2 then [BitVec.ofNat 32 (p.1 / 2 ^ 32)] else []))) = true := by decide

/-- Words of the access cluster, each written out from the fields of its table row. -/
def wordsA0 : List (Nat × Instr) :=
  [(0x82588B00, .cadd 11#5 4#5 22#5),
   (0x82E82C01, .csub 29#5 1#5 24#5),
   (0x824BE002, .cmov 9#5 31#5),
   (0x82D84003, .cclr 27#5 2#5),
   (0x82D90808, .aIadd 27#5 8#5 16#5),
   (0x02E8A589, .isub 29#5 5#5 11#5),
   (0x823A288A, .imul 7#5 17#5 17#5),
   (0x82814A0B, .iand 16#5 10#5 20#5),
   (0x029B2C8C, .ior 19#5 25#5 25#5),
   (0x82C3630D, .ixor 24#5 27#5 6#5),
   (0x823B460E, .isll 7#5 26#5 12#5),
   (0x82C8E30F, .isrl 25#5 7#5 6#5),
   (0x82796B90, .isra 15#5 11#5 23#5),
   (0x02F82C91, .islt 31#5 1#5 25#5),
   (0x02790312, .isltz 15#5 8#5 6#5),
   (0x849BCB04, .aaddi 19#5 30#5 2820#13)]

theorem test_decode_access_0 : wordsA0.all (fun p => decide (decodeA (p.1 % 2 ^ 32) (p.1 / 2 ^ 32) = some p.2)) = true := by decide

theorem test_encode_access_0 :
    wordsA0.all (fun p => decide (encode ⟨fb 31 p.1, p.2⟩ = (BitVec.ofNat 32 p.1) :: (if p.2.words = 2 then [BitVec.ofNat 32 (p.1 / 2 ^ 32)] else []))) = true := by decide

/-- Words of the access cluster, each written out from the fields of its table row. -/
def wordsA1 : List (Nat × Instr) :=
  [(0x06CF7F04, .alih 25#5 491268#19),
   (0x88F96F00, .csetb 31#5 11#5 30#5),
   (0x88584381, .csetbx 11#5 2#5 7#5),
   (0x0A39E64B, .csetbi 7#5 15#5 1611#13),
   (0x0C31E9FC, .candp 6#5 15#5 2556#12),
   (0x8EE26006, .cget 28#5 19#5 6#7),
   (0x9009EE80, .ctest 1#5 15#5 29#5),
   (0x905B2A01, .cteq 11#5 25#5 20#5),
   (0x12D2A003, .csets 26#5 21#5 3#4),
   (0x21D596C4, .ldS8 29#5 2#3 12#4 5828#13),
   (0xA265C5B6, .ldZ8 6#5 2#3 14#4 1462#13),
   (0x259439A0, .ldS16 25#5 2#3 1#4 6560#13),
   (0xA7F4ECD8, .ldZ16 31#5 2#3 7#4 3288#13),
   (0xA9E16515, .ldS32 30#5 0#3 11#4 1301#13),
   (0x2BF024D6, .ldZ32 31#5 0#3 1#4 1238#13),
   (0xADC594FC, .ld64 28#5 2#3 12#4 5372#13)]

theorem test_decode_access_1 : wordsA1.all (fun p => decide (decodeA (p.1 % 2 ^ 32) (p.1 / 2 ^ 32) = some p.2)) = true := by decide

theorem test_encode_access_1 :
    wordsA1.all (fun p => decide (encode ⟨fb 31 p.1, p.2⟩ = (BitVec.ofNat 32 p.1) :: (if p.2.words = 2 then [BitVec.ofNat 32 (p.1 / 2 ^ 32)] else []))) = true := by decide

/-- Words of the access cluster, each written out from the fields of its table row. -/
def wordsA2 : List (Nat × Instr) :=
  [(0x2F3DB311, .ldrow 19#5 13#4 4881#13),
   (0xB0F6518E, .st8 15#5 3#3 2#4 4494#13),
   (0xB2423994, .st16 4#5 1#3 1#4 6548#13),
   (0xB57317FB, .st32 23#5 1#3 8#4 6139#13),
   (0xB647FBE5, .st64 4#5 3#3 15#4 7141#13),
   (0x39AFA6C0, .strow 26#5 13#4 1728#13),
   (0x3A832402, .ldc 8#5 6#5 4#4 1026#11),
   (0x3D892A13, .stc 24#5 18#5 5#4 531#11),
   (0xBED1A431, .prefL1 13#5 13#4 1073#13),
   (0x3FD36B52, .prefCc 29#5 11#4 2898#13),
   (0xBEE552AA, .prefDc 14#5 10#4 4778#13),
   (0xC1C509E0, .atom 28#5 2#3 8#4 9#5 3#2 true),
   (0xC3D1D8A0, .ratom 29#5 0#3 14#4 24#5 2#2 true),
   (0x43145060, .ratomH 17#5 2#3 2#4 16#5 true true),
   (0x45BEE0A0, .latom 27#5 7#4 2#2 true),
   (0x473C38D5, .gath 19#5 1#4 6357#13)]

theorem test_decode_access_2 : wordsA2.all (fun p => decide (decodeA (p.1 % 2 ^ 32) (p.1 / 2 ^ 32) = some p.2)) = true := by decide

theorem test_encode_access_2 :
    wordsA2.all (fun p => decide (encode ⟨fb 31 p.1, p.2⟩ = (BitVec.ofNat 32 p.1) :: (if p.2.words = 2 then [BitVec.ofNat 32 (p.1 / 2 ^ 32)] else []))) = true := by decide

/-- Words of the access cluster, each written out from the fields of its table row. -/
def wordsA3 : List (Nat × Instr) :=
  [(0xC84E4487, .scat 4#5 2#4 1159#13),
   (0x4B00B9A6, .fenceC 2#2 47526#16),
   (0x4C0220A5, .bankset 17#5 2#2 37#6),
   (0x4E0155D5, .busy 10#5 5589#13),
   (0xD00211C6, .idle 16#5 4550#13),
   (0x52064630, .aBr 411184#19),
   (0xD41F10D9, .aBeqz 3#5 463065#19),
   (0xD609FCEA, .aBnez 1#5 130282#19),
   (0x5840566C, .aBltz 8#5 22124#19),
   (0xDA1C0FCC, .aBgez 3#5 266188#19),
   (0xDC039E0E, .aBfol 237070#19),
   (0xDE0E1477, .bpub 1#5 398455#19),
   (0xE0E8000A, .aLoop 29#5 10#19),
   (0x64114000, .aQpush 2#6 10#5),
   (0xE6F86000, .aQpop 31#5 3#6),
   (0xE8000000, .aEnd)]

theorem test_decode_access_3 : wordsA3.all (fun p => decide (decodeA (p.1 % 2 ^ 32) (p.1 / 2 ^ 32) = some p.2)) = true := by decide

theorem test_encode_access_3 :
    wordsA3.all (fun p => decide (encode ⟨fb 31 p.1, p.2⟩ = (BitVec.ofNat 32 p.1) :: (if p.2.words = 2 then [BitVec.ofNat 32 (p.1 / 2 ^ 32)] else []))) = true := by decide

/-- Words of the vector cluster, each written out from the fields of its table row. -/
def wordsV0 : List (Nat × Instr) :=
  [(0x82000752, .vsett 1874#16),
   (0x846588BC, .vfadd 12#6 44#6 17#6 7#4 4#3),
   (0x879BD079, .vfaddVa 51#6 30#6 32#6 15#4 1#3),
   (0x890F1C7F, .vfsub 33#6 56#6 56#6 15#4 7#3),
   (0x0BDC7CF9, .vfsubVa 59#6 35#6 57#6 15#4 1#3),
   (0x8CE10D0B, .vfmul 28#6 8#6 26#6 1#4 3#3),
   (0x0EA0951B, .vfmulVa 20#6 4#6 42#6 3#4 3#3),
   (0x106D49E1, .vfma 13#6 42#6 19#6 12#4 1#3),
   (0x93893E5D, .vfmaVa 49#6 9#6 60#6 11#4 5#3),
   (0x94B92871, .vfmin 23#6 9#6 16#6 14#4 1#3),
   (0x96E9D7F9, .vfminVa 29#6 14#6 47#6 15#4 1#3),
   (0x19C3E57D, .vfmax 56#6 31#6 10#6 15#4 5#3),
   (0x9A7156B7, .vfmaxVa 14#6 10#6 45#6 6#4 7#3),
   (0x9CAB462A, .vfcmp 1#2 5#4 26#6 12#6 5#4 2#3),
   (0x1F282AC3, .vfcmpVa 2#2 5#4 1#6 21#6 8#4 3#3),
   (0x21682C2C, .vadd 45#6 1#6 24#6 5#4 4#3)]

theorem test_decode_vector_0 : wordsV0.all (fun p => decide (decodeV p.1 = some p.2)) = true := by decide

theorem test_encode_vector_0 :
    wordsV0.all (fun p => decide (encode ⟨fb 31 p.1, p.2⟩ = (BitVec.ofNat 32 p.1) :: (if p.2.words = 2 then [BitVec.ofNat 32 (p.1 / 2 ^ 32)] else []))) = true := by decide

/-- Words of the vector cluster, each written out from the fields of its table row. -/
def wordsV1 : List (Nat × Instr) :=
  [(0xA2941E89, .vaddVa 18#6 32#6 61#6 1#4 1#3),
   (0xA5D6477F, .vsub 58#6 50#6 14#6 15#4 7#3),
   (0x262A088F, .vsubVa 5#6 16#6 17#6 1#4 7#3),
   (0xA85A3816, .vmul 11#6 17#6 48#6 2#4 6#3),
   (0x2BB755EF, .vmulVa 54#6 58#6 43#6 13#4 7#3),
   (0x2CC93174, .vmulh 25#6 9#6 34#6 14#4 4#3),
   (0xAEFD8A0A, .vmulhVa 31#6 44#6 20#6 1#4 2#3),
   (0x319D85B7, .vmin 51#6 44#6 11#6 6#4 7#3),
   (0x328F80D1, .vminVa 17#6 60#6 1#6 10#4 1#3),
   (0xB480B369, .vmax 16#6 5#6 38#6 13#4 1#3),
   (0x3686E3B9, .vmaxVa 16#6 55#6 7#6 7#4 1#3),
   (0x39FC6D77, .vadds 63#6 35#6 26#6 14#4 7#3),
   (0x3B390145, .vaddsVa 39#6 8#6 2#6 8#4 5#3),
   (0x3DE0FF12, .vsubs 60#6 7#6 62#6 2#4 2#3),
   (0x3E599DA5, .vsubsVa 11#6 12#6 59#6 4#4 5#3),
   (0x410E06A3, .vand 33#6 48#6 13#6 4#4 3#3)]

theorem test_decode_vector_1 : wordsV1.all (fun p => decide (decodeV p.1 = some p.2)) = true := by decide

theorem test_encode_vector_1 :
    wordsV1.all (fun p => decide (encode ⟨fb 31 p.1, p.2⟩ = (BitVec.ofNat 32 p.1) :: (if p.2.words = 2 then [BitVec.ofNat 32 (p.1 / 2 ^ 32)] else []))) = true := by decide

/-- Words of the vector cluster, each written out from the fields of its table row. -/
def wordsV2 : List (Nat × Instr) :=
  [(0xC35968AE, .vandVa 43#6 11#6 17#6 5#4 6#3),
   (0x45FA0109, .vor 63#6 16#6 2#6 1#4 1#3),
   (0xC7047F1C, .vorVa 32#6 35#6 62#6 3#4 4#3),
   (0x487F6E0D, .vxor 15#6 59#6 28#6 1#4 5#3),
   (0xCB4B753C, .vxorVa 41#6 27#6 42#6 7#4 4#3),
   (0xCDC33F42, .vshl 56#6 25#6 62#6 8#4 2#3),
   (0xCE6FC729, .vshlVa 13#6 62#6 14#6 5#4 1#3),
   (0xD1C5B751, .vshr 56#6 45#6 46#6 10#4 1#3),
   (0x53FADF0E, .vshrVa 63#6 22#6 62#6 1#4 6#3),
   (0x548D17F2, .vcmp 1#2 1#4 40#6 47#6 14#4 2#3),
   (0x5688B56B, .vcmpVa 1#2 1#4 5#6 42#6 13#4 3#3),
   (0xD9055F20, .vclmul 32#6 42#6 62#6 4#4),
   (0xDA7D8908, .vclmulVa 15#6 44#6 18#6 1#4),
   (0x585948B9, .vclmulh 11#6 10#6 17#6 7#4),
   (0x5A82FEA9, .vclmulhVa 16#6 23#6 61#6 5#4),
   (0xDDFC6A19, .vsel 63#6 35#6 20#6 3#4 1#3)]

theorem test_decode_vector_2 : wordsV2.all (fun p => decide (decodeV p.1 = some p.2)) = true := by decide

theorem test_encode_vector_2 :
    wordsV2.all (fun p => decide (encode ⟨fb 31 p.1, p.2⟩ = (BitVec.ofNat 32 p.1) :: (if p.2.words = 2 then [BitVec.ofNat 32 (p.1 / 2 ^ 32)] else []))) = true := by decide

/-- Words of the vector cluster, each written out from the fields of its table row. -/
def wordsV3 : List (Nat × Instr) :=
  [(0xDFC266A9, .vselVa 56#6 19#6 13#6 5#4 1#3),
   (0x60AB100B, .vcvtF2n 21#6 24#6 4#3 1#4 3#3),
   (0x61052C99, .vcvtF2ns 32#6 41#6 3#3 3#4 1#3),
   (0xE188290A, .vcvtN2f 49#6 1#6 2#3 1#4 2#3),
   (0xE02931B4, .vcvtF2i 5#6 9#6 4#3 6#4 4#3),
   (0x60C82622, .vcvtI2f 25#6 1#6 1#3 4#4 2#3),
   (0xE070A2CF, .vcvtI32n 14#6 5#6 9#4 7#3),
   (0xE1B60315, .vcvtI32ns 54#6 48#6 2#4 5#3),
   (0xE16E43F4, .vcvtIw32 45#6 50#6 14#4 4#3),
   (0x6382805F, .vsfExp2 48#6 20#6 11#4 7#3),
   (0x624A40DC, .vsfLog2 9#6 18#6 11#4 4#3),
   (0xE248416E, .vsfRcp 9#6 2#6 13#4 6#3),
   (0xE3CC01D3, .vsfRsqrt 57#6 32#6 10#4 3#3),
   (0xE3666241, .vsfTanh 44#6 51#6 8#4 1#3),
   (0xE30E02C4, .vsfSigm 33#6 48#6 8#4 4#3),
   (0xE5A660ED, .vredFadd 52#6 51#6 1#2 13#4 5#3)]

theorem test_decode_vector_3 : wordsV3.all (fun p => decide (decodeV p.1 = some p.2)) = true := by decide

theorem test_encode_vector_3 :
    wordsV3.all (fun p => decide (encode ⟨fb 31 p.1, p.2⟩ = (BitVec.ofNat 32 p.1) :: (if p.2.words = 2 then [BitVec.ofNat 32 (p.1 / 2 ^ 32)] else []))) = true := by decide

/-- Words of the vector cluster, each written out from the fields of its table row. -/
def wordsV4 : List (Nat × Instr) :=
  [(0xE59F2357, .vredFmin 51#6 57#6 2#2 10#4 7#3),
   (0xE549C489, .vredFmax 41#6 14#6 1#2 1#4 1#3),
   (0x6542E78B, .vredAdd 40#6 23#6 3#2 1#4 3#3),
   (0xE4E468D1, .vredMin 28#6 35#6 1#2 10#4 1#3),
   (0xE5156ABA, .vredMax 34#6 43#6 1#2 7#4 2#3),
   (0x64EE6CDF, .vredAnd 29#6 51#6 1#2 11#4 7#3),
   (0xE5CC4ED4, .vredOr 57#6 34#6 1#2 10#4 4#3),
   (0x657DF0A6, .vredXor 47#6 47#6 1#2 4#4 6#3),
   (0x67B00002, .vrng 54#6 2#3),
   (0x69760019, .vmov 46#6 48#6 3#4 1#3),
   (0xEA51E380, .vmand 10#4 15#4 7#4),
   (0x6A68C088, .vmor 13#4 6#4 1#4),
   (0x6A714210, .vmxor 14#4 10#4 4#4),
   (0xEA092518, .vmandn 1#4 9#4 10#4),
   (0xEA182020, .vmnot 3#4 1#4),
   (0xEA10A028, .vmmov 2#4 5#4)]

theorem test_decode_vector_4 : wordsV4.all (fun p => decide (decodeV p.1 = some p.2)) = true := by decide

theorem test_encode_vector_4 :
    wordsV4.all (fun p => decide (encode ⟨fb 31 p.1, p.2⟩ = (BitVec.ofNat 32 p.1) :: (if p.2.words = 2 then [BitVec.ofNat 32 (p.1 / 2 ^ 32)] else []))) = true := by decide

/-- Words of the vector cluster, each written out from the fields of its table row. -/
def wordsV5 : List (Nat × Instr) :=
  [(0x6A506430, .vmfirst 10#4 200#12),
   (0xED608002, .vpop 44#6 4#6 2#3),
   (0xEE3C8010, .vpush 7#6 36#6 2#4),
   (0x70C80028, .loopr 1#2 true 1#3 40#19),
   (0x72022672, .vBr 140914#19),
   (0xF407C7B2, .vBfol 509874#19),
   (0xF600CBD0, .vBqt 52176#19),
   (0xF801BDD6, .vBqf 114134#19),
   (0xFA000000, .vEnd)]

theorem test_decode_vector_5 : wordsV5.all (fun p => decide (decodeV p.1 = some p.2)) = true := by decide

theorem test_encode_vector_5 :
    wordsV5.all (fun p => decide (encode ⟨fb 31 p.1, p.2⟩ = (BitVec.ofNat 32 p.1) :: (if p.2.words = 2 then [BitVec.ofNat 32 (p.1 / 2 ^ 32)] else []))) = true := by decide

/-- Words of the matrix cluster, each written out from the fields of its table row. -/
noncomputable def wordsM0 : List (Nat × Instr) :=
  [(0x02205000, .clamp 4#4 5#3),
   (0x84203000, .free 4#4 3#3),
   (0x06E0FE01, .mma 1#2 12#4 1#4 7#3 7#3 true),
   (0x08A79E01, .mmas 1#2 4#4 15#4 1#3 7#3 true),
   (0x0A003139, .rep true true 313#12),
   (0x8C004E07, .shape 4#3 7#3 7#3),
   (0x0C000100, .shapeOff),
   (0x8E231E00, .xpose 4#4 6#4 1#3 7#3),
   (0x91818392, .epi 3#2 3#4 1#3 true true 9#6),
   (0x93008190, .epir 2#2 1#2 true true 8#6),
   (0x95800000, .tzero 3#2),
   (0x97008000, .tmov 2#2 1#2),
   (0x9A40B40D, .iset 1#3 46093#16),
   (0x1C407F75, .mIadd 1#3 32629#16),
   (0xA0070258, .mBr 459352#19),
   (0xA203E39D, .mBfol 254877#19)]

theorem test_decode_matrix_0 : wordsM0.all (fun p => decide (decodeM p.1 = some p.2)) = true := by decide

theorem test_encode_matrix_0 :
    wordsM0.all (fun p => decide (encode ⟨fb 31 p.1, p.2⟩ = (BitVec.ofNat 32 p.1) :: (if p.2.words = 2 then [BitVec.ofNat 32 (p.1 / 2 ^ 32)] else []))) = true := by decide

/-- Words of the matrix cluster, each written out from the fields of its table row. -/
noncomputable def wordsM1 : List (Nat × Instr) :=
  [(0x240032DC, .mBqt 13020#19),
   (0x2600075A, .mBqf 1882#19),
   (0xA818003B, .mLoop 3#3 59#19),
   (0x2A000000, .mEnd)]

theorem test_decode_matrix_1 : wordsM1.all (fun p => decide (decodeM p.1 = some p.2)) = true := by decide

theorem test_encode_matrix_1 :
    wordsM1.all (fun p => decide (encode ⟨fb 31 p.1, p.2⟩ = (BitVec.ofNat 32 p.1) :: (if p.2.words = 2 then [BitVec.ofNat 32 (p.1 / 2 ^ 32)] else []))) = true := by decide

/-! ## Witnesses: for the hypotheses of each statement of Certificates, concrete states that meet them -/

/-- The reset state with a changed core in focus, with a changed piece, with entries in a queue, with a register, with an
active stream. -/
abbrev r0 : State := State.reset
abbrev onC (f : Core → Core) : State := r0.setCore (f r0.core)
abbrev onP (f : Piece → Piece) : State := r0.setPiece (f r0.core.pc)
abbrev withQ (n : Nat) (l : List W64) : State :=
  onC (fun c => c.setQ n ⟨l.map (fun v => ⟨⟨v, false⟩, true, 0, 0, 0⟩), 0, 0, 0, 0⟩)
abbrev withRows (n : Nat) (l : List RowV) : State :=
  onC (fun c => c.setRq n ⟨l.map (fun v => ⟨v, true, 0, 0, 0⟩), 0, 0, 0, 0⟩)
abbrev withG (r : Fin 32) (v : W64) (p : Bool) : State := onC (fun c => { c with g := c.g.set r ⟨v, p, 0⟩ })
abbrev active (k : Cl) : State := onC (fun c => c.setStrm k { c.strm k with act := true })
/-- A launch record of one piece of context 0, and the launch of it, at index 0. -/
abbrev lr0 : LaunchRec := ⟨nullCap, nullCap, nullCap, nullCap, nullCap, 1 + 2 ^ 24, 1 + 2 ^ 24, 1 + 2 ^ 24, 0x2C688, 0, 0, false⟩
abbrev ln0 : Launch := ⟨lr0, 1, .running, 0, 0, [], [], [], [], [], 0, 0, false, [], 0, false, false, false, true, 0, []⟩
abbrev launched (l : Launch) : State := r0.setDie { r0.die with launches := [(0, some l)] }
/-- One cycle later, or `n` of them. -/
abbrev at_ (n : Nat) (s : State) : State := { s with cyc := n }
/-- An operation of the copy engine that was issued by this core: nothing to move. -/
abbrev op0 : Op := ⟨1, 0, 1, 0, .ml, 0x5000, [⟨0, .slot⟩, ⟨1, .slot⟩, ⟨64, .plain⟩], 0, 0, 0, 1, false, false, 0, 0, none, none⟩
/-- A tagged capability on [0, 2^42) with a space, permissions and a cursor. -/
abbrev capT (spc prm cur : Nat) : Cap := ⟨true, BitVec.ofNat 128 ((spc * 2 ^ 12 + prm) * 2 ^ 112 + 22 * 2 ^ 106 + 2 ^ 20 * 2 ^ 64 + cur)⟩
abbrev withA (r : Fin 32) (c : Cap) : State := onC (fun k => { k with a := k.a.set r ⟨c, false, 0⟩ })
abbrev ones : BitVec 256 := BitVec.allOnes 256
/-- The check passes. -/
abbrev passes {α : Type} (x : Chk α) : Bool :=
  match x with
  | .ok _ => true
  | .error _ => false
/-- The check passes with this value. -/
abbrev gives {α : Type} [DecidableEq α] (x : Chk α) (b : α) : Bool :=
  match x with
  | .ok a => decide (a = b)
  | .error _ => false
abbrev copy0 : Copy := ⟨op0, op0.geo, none, false, 0, 1, [], 0, 64, true, [], [], [], [], [], [], false, false, false, none⟩
abbrev ga0 : GaRun := GaRun.start op0
abbrev inCtx (f : CtxRec → CtxRec) : State := r0.setCtx 0 (f (r0.ctx 0))
abbrev inGctx (f : GCtx → GCtx) : State := r0.setGctx 0 (f (r0.gctx 0))
abbrev inFab (f : Fab → Fab) : State := r0.setFab (f r0.fab)
abbrev inPkg (f : Pkg → Pkg) : State := r0.setPkg (f r0.pkg)
/-- What a step leaves. -/
abbrev after {α : Type} (r : Host.Outcome State Fault Refusal) (f : State → α) : Option α :=
  match r with
  | .next t => some (f t)
  | _ => none

/-- Reads that succeed, before and after the bound, clean and poisoned. -/
theorem witness_reads : r0.gVal 1 1 = .ok 0 ∧ r0.gVal 2 2 = .ok 0 ∧ r0.gVal 3 3 = .ok 0 ∧ r0.gRaw 1 1 = .ok (0, false) ∧
    r0.aVal 1 1 = .ok nullCap ∧ r0.aVal 2 2 = .ok nullCap ∧ r0.aRaw 1 1 = .ok (nullCap, false) ∧ r0.aRaw 2 2 = .ok (nullCap, false) ∧
    r0.aCur 1 1 = .ok 0 ∧ r0.iVal 1 1 = .ok 0 ∧ r0.iVal 2 2 = .ok 0 ∧ r0.iVal 3 3 = .ok 0 ∧ r0.mVal 1 0 = .ok 0 ∧ r0.mVal 1 1 = .ok 0 ∧
    r0.cyc < ((r0.putA 1 nullCap).core.a[1]).rdy ∧ (r0.core.a[1]).rdy ≤ r0.cyc := by
  and_intros <;> first | decide +kernel | rfl

/-- Divisors of zero, of another value, and -2^63 by -1. -/
theorem witness_division : r0.gVal 2 2 = .ok 0 ∧ (withG 2 3 false).gVal 2 2 = .ok 3 ∧
    ((withG 1 (BitVec.intMin 64) false).putG 2 (BitVec.allOnes 64) 0).gVal 1 1 = .ok (BitVec.intMin 64) ∧
    ((withG 1 (BitVec.intMin 64) false).putG 2 (BitVec.allOnes 64) 0).gVal 2 2 = .ok (BitVec.allOnes 64) := by
  and_intros <;> first | decide +kernel | rfl

/-- Operands that trap: the first, and the second behind a clean first. -/
theorem witness_operand_traps : (withG 1 0 true).gVal 1 1 = .error (.trap ⟨.poisonConsumed, 0, 0⟩) ∧
    (withG 2 0 true).gVal 1 1 = .ok 0 ∧ (withG 2 0 true).gVal 2 2 = .error (.trap ⟨.poisonConsumed, 0, 0⟩) := by
  and_intros <;> first | decide +kernel | rfl

/-- Words of S, A and V that issue. -/
theorem witness_frames : (∃ t, exec (.add 1 2 3) r0 = .next t ∧ t.core.res = .issued) ∧
    (∃ t, exec (.cmov 1 2) r0 = .next t ∧ t.core.res = .issued) ∧
    (∃ t, exec (.vmmov 1 2) r0 = .next t ∧ t.core.res = .issued ∧ Instr.cl (.vmmov 1 2) = some .v) :=
  ⟨⟨_, rfl, rfl⟩, ⟨_, rfl, rfl⟩, ⟨_, rfl, rfl, rfl⟩⟩

/-- One outcome in the queues of S and V. -/
theorem witness_outcomes : (withQ 10 [1]).peek 10 1 = .ok [⟨1, false⟩] ∧ (withQ 11 [1]).peek 11 1 = .ok [⟨1, false⟩] := by
  and_intros <;> first | decide +kernel | rfl

/-- A bundle with a branch of S, with a word of S that is none, and none; a JALR. -/
theorem witness_bundles : (onC (fun c => { c with bundle := ⟨true, true, true, some true⟩ })).core.bundle.sBranch = some true ∧
    (onC (fun c => { c with bundle := ⟨true, false, false, none⟩ })).core.bundle.on = true ∧ r0.core.bundle.on = false ∧
    r0.core.pc.rep = none ∧ decodeS 0x32082000 = some (.jalr 1 1) := by
  and_intros <;> first | decide +kernel | rfl

/-- Loops: none and one of S, A and M; the last word of a body of S. -/
theorem witness_loops : (onP (fun p => { p with lc := 1, le := 4 })).core.pc.lc ≠ 0 ∧
    (onP (fun p => { p with lc := 1, le := 4 })).core.cs.pc = (onP (fun p => { p with lc := 1, le := 4 })).core.pc.le - 4 ∧
    r0.core.pc.lc = 0 ∧ (onP (fun p => { p with aloop := some ⟨1, 0, 4⟩ })).core.pc.aloop.isSome ∧ r0.core.pc.aloop = none ∧
    (onP (fun p => { p with mloop := some ⟨1, 0, 4⟩ })).core.pc.mloop.isSome ∧
    (onP (fun p => { p with mloop := some ⟨1, 0, 4⟩ })).core.pc.rep = none ∧ r0.core.pc.mloop = none := by
  and_intros <;> first | decide +kernel | rfl

/-- A piece with a handler that may run, in the handler, and without one; ends of a piece. -/
theorem witness_traps : (onC (fun c => { c with cs := { c.cs with act := true }, pc := { c.pc with tvec := 64 } })).core.cs.act = true ∧
    (onC (fun c => { c with cs := { c.cs with act := true }, pc := { c.pc with tvec := 64 } })).core.pc.tvec ≠ 0 ∧
    (onC (fun c => { c with cs := { c.cs with act := true }, pc := { c.pc with tvec := 64 } })).core.pc.handler = false ∧
    Cause.recoverable .softwareTrap = true ∧ Cause.recoverable .doubleTrap = false ∧ r0.core.pc.tvec = 0 ∧ r0.core.debugger = false ∧
    (onP (fun p => { p with handler := true })).core.pc.handler = true ∧ (launched ln0).launch 0 = some ln0 ∧
    (onP (fun p => { p with stepIn := true })).core.pc.stepIn = true ∧ r0.quiescent = true ∧
    (onP (fun p => { p with isEarly := true })).core.pc.isEarly = true ∧ r0.launch r0.core.pc.li = none := by
  and_intros <;> first | decide +kernel | rfl

/-- A piece in a step that is not quiescent: a store to a versioned line waits. -/
theorem witness_not_quiescent : (onC (fun c => { c with pc := { c.pc with stepIn := true }, pend :=
    [⟨1, 0, .hbm 0, 1, .store [0] false, 0, 0, 0, 1, true, true, true, none, [], []⟩] })).quiescent = false := by decide

/-- Control registers: allowed and not, within the bound of a write and behind it, a write that succeeds. -/
theorem witness_csr : r0.csrMay 0x001 false = true ∧ r0.csrMay 0xFFF false = false ∧ r0.csrMay 0x001 true = true ∧
    r0.csrMay 0x000 true = false ∧ Map.get 0 r0.core.pc.csrRdy 1 ≤ r0.cyc ∧
    r0.cyc < Map.get 0 (onP (fun p => { p with csrRdy := [(1, 3)] })).core.pc.csrRdy 1 ∧ r0.csrGauge 0x001 = none ∧
    (∃ t, r0.csrPut 0x001 (0 &&& csrMask 0x001) = .ok t) := by
  and_intros <;> first | exact ⟨_, rfl⟩ | rfl | decide

/-- Queues with room, full, with an entry, empty with an active producer; inactive and active consumers. -/
theorem witness_queues : r0.room 1 = .ok () ∧
    (at_ 1 (onC (fun c => { c.setQ 1 ⟨List.replicate 16 ⟨⟨0, false⟩, true, 0, 0, 0⟩, 0, 0, 0, 0⟩ with
      ca := { c.ca with act := true } }))).room 1 = .error (.queue 1) ∧
    (at_ 1 (onC (fun c => { c.setQ 1 ⟨List.replicate 15 ⟨⟨0, false⟩, true, 0, 0, 0⟩, 0, 0, 0, 0⟩ with
      ca := { c.ca with act := true } }))).room 1 = .ok () ∧
    (withQ 0 [7]).peek 0 1 = .ok [⟨7, false⟩] ∧ (active .a).peek 0 1 = .error (.queue 0) ∧ r0.room 8 = .ok () ∧
    (r0.core.strm (qConsumer 1)).act = false ∧ ((active .a).core.strm (qConsumer 1)).act = true := by
  and_intros <;> first | decide +kernel | rfl

/-- A copy that is a promise, `c2s`-like, in the queue of its engine, and none. -/
theorem witness_promises : r0.core.promisesOpen 0 = false ∧ (onC (fun c => { c with copies :=
    [copy0] })).core.promisesOpen 2 = true := by
  and_intros <;> first | decide +kernel | rfl

/-- Barriers: a wait that is over, one that is not, an arrival that counts and one that is refused, a bundle with a word of A. -/
theorem witness_barriers : (onP (fun p => { p with bar := some ⟨0, 1, 0, 0, true, false⟩ })).core.pc.bar = some ⟨0, 1, 0, 0, true, false⟩ ∧
    (onP (fun p => { p with bar := some ⟨0, 1, 0, 0, false, false⟩ })).core.pc.bar = some ⟨0, 1, 0, 0, false, false⟩ ∧ r0.core.pc.bar = none ∧
    (r0.barrier (r0.barKey 1 0)).refuses 1 0 1 = false ∧ (r0.barrier (r0.barKey 1 0)).refuses 1 0 0 = true ∧
    (onC (fun c => { c with bundle := ⟨true, true, false, none⟩ })).core.bundle.hasA = true := by
  and_intros <;> first | decide +kernel | rfl

/-- The step of context 0 open, and inside it; a loss that has been counted. -/
theorem witness_steps : ((r0.setStep 0 { StepSt.reset with open_ := true }).ctx 0).step.open_ = true ∧
    ((r0.setStep 0 { StepSt.reset with open_ := true }).ctx 0).step.closed = false ∧
    (r0.setStep 0 { StepSt.reset with open_ := true }).core.pc.stepIn = false ∧ (r0.ctx 0).step.open_ = false ∧
    (onP (fun p => { p with stepIn := true })).core.pc.stepIn = true ∧ (onP (fun p => { p with stepIn := true })).quiescent = true ∧
    (((onP (fun p => { p with stepIn := true })).setStep 0 { StepSt.reset with lossCnt := true }).ctx 0).step.lossCnt = true := by
  and_intros <;> first | decide +kernel | rfl

/-- A capability whose cursor moves inside its window and one whose limit is below 2^64. -/
theorem witness_cursor : (capT 3 3 64).tag = true ∧ (capT 3 3 64).e ≤ 43 ∧ (capT 3 3 64).bounds = (0, 2 ^ 42) := by decide

/-- Bounds: an untagged source, a request that cannot be granted, one that leaves the source, one that is exact, one that is not. -/
theorem witness_bounds : (withA 1 (capT 3 3 0)).aVal 1 1 = .ok (capT 3 3 0) ∧ (withA 1 (capT 3 3 0)).aVal 2 2 = .ok nullCap ∧
    nullCap.tag = false ∧ ((capT 3 3 0).request 0 (2 ^ 64 - 2 ^ 43)).isSome = true ∧ (capT 3 3 0).request 0 (2 ^ 64) = none ∧
    ((capT 3 3 0).request 0 (2 ^ 43)).map (fun x => x.2) = some (0, 2 ^ 43) ∧ ((capT 3 3 0).request 0 64).map (fun x => x.2) = some (0, 64) ∧
    ((capT 3 3 1).request 1 (2 ^ 21)).map (fun x => x.2) = some (0, 2 ^ 21 + 2) := by
  and_intros <;> first | decide +kernel | rfl

/-- A load and a store that pass their checks, with room and a value; a table of 32 stores. -/
theorem witness_accesses : (withA 1 (capT 3 3 64)).baseReg 1 0 = .ok (capT 3 3 64) ∧ r0.room 0 = .ok () ∧ r0.roomRow 6 = .ok () ∧
    r0.access (capT 3 3 64) 64 8 (Claims.wantLoad 8) = .ok ⟨.hbm 64, false⟩ ∧ Claims.plainPlace ⟨.hbm 64, false⟩ = true ∧
    r0.rowPlaces (capT 3 3 256) 256 (Claims.wantLoad 32) = .ok [(0, 256, ⟨.hbm 256, false⟩)] ∧
    r0.rowPlaces (capT 3 3 256) 256 (Claims.wantStore 32) = .ok [(0, 256, ⟨.hbm 256, false⟩)] ∧
    r0.access (capT 3 3 64) 64 8 (Claims.wantStore 8) = .ok ⟨.hbm 64, false⟩ ∧
    (withQ 1 [5]).peek 1 1 = .ok [⟨5, false⟩] ∧ (withRows 7 [⟨0, 0⟩]).peekRows 7 1 = .ok [⟨0, 0⟩] ∧ r0.tableFull = false ∧
    (onC (fun c => { c with pend := List.replicate 32 (r0.newAcc 0 ⟨.hbm 64, false⟩ 8 (.store [0] false) nullCap) })).tableFull = true := by
  and_intros <;> first | decide +kernel | rfl

/-- The bank 0 of cluster 0 as a FIFO that holds 8 bytes. -/
abbrev fifo8 : State := r0.setShr { r0.shr with banks := [(0, ⟨2, none, [], 0, 0⟩)], fifo := [(0, List.replicate 8 (1, false))] }

theorem witness_fifo : passes (fifo8.access (capT 1 3 0) 0 8 (Claims.wantLoad 8)) = true ∧
    passes (fifo8.fifoPop 0 8 (fifo8.newAcc 0 ⟨.fifo 0, false⟩ 8 (.load 0 1 false) (capT 1 3 0)) 0) = true ∧
    passes (fifo8.fifoPush 0 [(7, false)] (fifo8.newAcc 0 ⟨.fifo 0, false⟩ 1 (.store [7] false) (capT 1 3 0)) 1) = true := by
  decide +kernel

/-- Bank 0 of cluster 0 as a scratchpad beside bank 1 as a FIFO of 256 bytes. -/
abbrev fifoRow : State := r0.setShr { r0.shr with banks := [(0, ⟨1, none, [], 0, 0⟩), (1, ⟨2, none, [], 0, 0⟩)], fifo := [(1, List.replicate 256 (1, false))] }

/-- A row from a FIFO bank, and a row of which 32 bytes lie in a scratchpad bank and 224 in the FIFO bank behind it. -/
theorem witness_rows :
    gives (fifoRow.rowPlaces (capT 1 3 524288) 524288 (Claims.wantLoad 32)) [(0, 256, ⟨.fifo 1, false⟩)] = true ∧
    gives (fifoRow.rowPlaces (capT 1 3 524288) 524288 (Claims.wantStore 32)) [(0, 256, ⟨.fifo 1, false⟩)] = true ∧
    gives (fifoRow.rowPlaces (capT 1 3 524256) 524256 (Claims.wantLoad 32)) [(0, 32, ⟨.sram 524256, false⟩), (32, 224, ⟨.fifo 1, false⟩)] = true ∧
    gives (fifoRow.rowPlaces (capT 1 3 524256) 524256 (Claims.wantStore 32)) [(0, 32, ⟨.sram 524256, false⟩), (32, 224, ⟨.fifo 1, false⟩)] = true ∧
    passes (fifoRow.fifoPop 1 256 (fifoRow.newAcc 0 ⟨.fifo 1, false⟩ 256 (.loadRow 0 0) (capT 1 3 524288)) 6) = true ∧
    passes (fifoRow.fifoPush 1 (RowV.fifoBytes ⟨0, 0⟩ 256) (fifoRow.newAcc 0 ⟨.fifo 1, false⟩ 256 (.storeRow 0 ⟨0, 0⟩) (capT 1 3 524288)) 7) = true := by
  decide +kernel

/-- Both parts of such a row load and of such a row store pass. -/
theorem witness_rowParts :
    passes ((fifoRow.reserveRow 6 fifoRow.nextId).fresh.loadParts 0 (capT 1 3 524256) fifoRow.nextId
      [(0, 32, ⟨.sram 524256, false⟩), (32, 224, ⟨.fifo 1, false⟩)]) = true ∧
    passes (fifoRow.storeParts 0 (capT 1 3 524256) fifoRow.nextId ⟨0, 0⟩
      [(0, 32, ⟨.sram 524256, false⟩), (32, 224, ⟨.fifo 1, false⟩)]) = true := by
  decide +kernel

/-- LDC from memory and from core scratch; STC of a tagged and of an untagged value. -/
theorem witness_capabilities :
    gives (r0.access (capT 3 3 64) 64 16 { spaces := [0, 1, 2, 3], prm := [pL], align := 16, ld := true }) ⟨.hbm 64, false⟩ = true ∧
    gives ((onP (fun p => { p with l1cfg := 1 })).access (capT 2 3 64) 64 16
      { spaces := [0, 1, 2, 3], prm := [pL], align := 16, ld := true }) ⟨.scr 64, false⟩ = true ∧
    r0.mayPerform (r0.newAcc 0 ⟨.scr 64, false⟩ 16 (.loadCap 2 false) (capT 2 3 64)) = true ∧
    passes (capCheck (capT 1 3 0) 0 16 { spaces := [0, 1], prm := [pS], align := 16 }) = true ∧
    passes (capCheck (capT 1 3 0) 0 16 { spaces := [0, 1, 2, 3], prm := [pS], align := 16 }) = true ∧
    gives ((r0.setShr { r0.shr with banks := [(0, ⟨1, none, [], 0, 0⟩)] }).placeOf (capT 1 3 0) 0 0 16
      { spaces := [], prm := [], align := 16, st := true }) ⟨.sram 0, false⟩ = true ∧
    (capT 1 3 0).has pSc = false ∧ (capT 1 19 0).has pSc = true := by
  decide +kernel

/-- A gather without an active lane and one of 64, a scatter. -/
theorem witness_gather : (withRows 7 [⟨BitVec.allOnes 2048, 0⟩]).peekRows 7 1 = .ok [⟨BitVec.allOnes 2048, 0⟩] ∧
    (withRows 7 [⟨0, 0⟩, ⟨0, 0⟩]).peekRows 7 2 = .ok [⟨0, 0⟩, ⟨0, 0⟩] ∧
    passes (r0.lanePlaces (capT 3 3 64) false 0 ⟨0, 0⟩ { spaces := [0, 1, 2, 3], prm := [pL], align := 4, ld := true } (List.range 64)) = true ∧
    passes (r0.lanePlaces (capT 3 3 64) false 0 ⟨0, 0⟩ { spaces := [0, 1, 2, 3], prm := [pS], align := 4, st := true } (List.range 64)) = true := by
  and_intros <;> first | decide +kernel | rfl

/-- Atomics: operands clean and poisoned, places, a row for LATOM. -/
theorem witness_atomics : r0.access (capT 3 32 64) 64 8 (Claims.wantAtom [0, 3] 8) = .ok ⟨.hbm 64, false⟩ ∧
    r0.access (capT 3 32 128) 128 128 (Claims.wantAtom [0, 3] 128) = .ok ⟨.hbm 128, false⟩ ∧
    (r0.setShr { r0.shr with banks := [(0, ⟨1, none, [], 0, 0⟩)] }).access (capT 1 32 0) 0 4 (Claims.wantAtom [1, 2] 4) = .ok ⟨.sram 0, false⟩ ∧
    (withQ 1 [1, 2]).peek 1 2 = .ok [⟨1, false⟩, ⟨2, false⟩] ∧ [(⟨1, true⟩ : PV)].any PV.p = true ∧ nb (0 : BitVec 64).toNat 0 64 = 0 := by
  and_intros <;> first | decide +kernel | rfl

/-- BANKSET and BUSY that pass their checks, and a bank that is retired. -/
theorem witness_banks : (capT 1 1024 0).has pBk = true ∧ (capT 1 1024 0).spc = 1 ∧ (capT 1 3 0).has pBk = false ∧ (capT 3 3 0).spc ≠ 1 ∧
    capCheck (capT 1 2 0) 0 4096 { spaces := [1], prm := [pS], align := 4096 } = .ok () ∧
    (r0.setShr { r0.shr with banks := [(0, ⟨1, none, [], 0, 0⟩)] }).banksCheck 0 [0] = .ok () ∧
    (r0.setShr { r0.shr with banks := [(0, ⟨3, none, [], 0, 0⟩)] }).bank 0 0 = ⟨3, none, [], 0, 0⟩ := by
  and_intros <;> first | decide +kernel | rfl

/-- Queues of BPUB with room, and one without. -/
theorem witness_bpub : r0.room 10 = .ok () ∧ r0.room 11 = .ok () ∧ r0.room 12 = .ok () ∧
    (at_ 1 (onC (fun c => { c.setQ 10 ⟨List.replicate 16 ⟨⟨0, false⟩, true, 0, 0, 0⟩, 0, 0, 0, 0⟩ with
      cs := { c.cs with act := true } }))).room 10 = .error (.queue 10) := by
  and_intros <;> first | decide +kernel | rfl

/-- Operands of V: the stage predicate lets the word work, VT, rows and masks can be read, and lanes are clean. -/
theorem witness_vector : Claims.stageOn r0 ones ∧ Claims.VOps r0 32 33 0 0 ⟨0, 0⟩ ⟨0, 0⟩ ones ∧ r0.vRead 32 2 = .ok ⟨0, 0⟩ ∧
    Claims.clean (ftOf 0).1 false 0 ones ones ⟨0, 0⟩ ⟨0, 0⟩ ∧ Claims.clean (itOf 0).1 true 0 ones ones ⟨0, 0⟩ ⟨0, 0⟩ :=
  ⟨.inl ⟨rfl, rfl⟩, ⟨rfl, rfl, rfl, rfl⟩, rfl, fun j _ _ => by simp [lanePoison, poisAt], fun j _ _ => by simp [lanePoison, poisAt]⟩

/-- A lane that reads poison, a row of poison. -/
theorem witness_vector_poison : Claims.stageOn r0 ones ∧ Claims.active ones ones 0 = true ∧
    lanePoison 32 ⟨0, 1⟩ (patOf 0 false 0) = true ∧ 0 < rowCount (ftOf 0).1 ∧ 0 < rowCount (itOf 0).1 ∧
    (onC (fun c => { c with tiles := [(0, ⟨0, 1, 0⟩)] })).vRead 0 0 = .ok ⟨0, 1⟩ :=
  ⟨.inl ⟨rfl, rfl⟩, by decide +kernel, by decide +kernel, by decide +kernel, by decide +kernel, rfl⟩

/-- Conversions: a part that exists and one that does not; clean sources; patterns that stay in the row. -/
theorem witness_conversions : Claims.parts 32 16 = 2 ∧ Claims.parts 16 32 = 2 ∧ Claims.parts 32 32 = 1 ∧
    (0 : BitVec 3).toNat < Claims.parts 32 16 ∧ Claims.parts 32 16 ≤ (2 : BitVec 3).toNat ∧ Claims.cvtClean 32 16 0 1 ones ⟨0, 0⟩ ∧
    (∀ j, j < 64 → patLane 3 j < 64) := by
  refine ⟨by decide, by decide, by decide, by decide, by decide, fun j _ _ => by simp [lanePoison, poisAt], by decide +kernel⟩

/-- Queues of V: a row, an entry, room. -/
theorem witness_vector_queues : (withRows 6 [⟨5, 0⟩]).peekRows 6 1 = .ok [⟨5, 0⟩] ∧ (withQ 2 [5]).peek 2 1 = .ok [⟨5, false⟩] ∧
    r0.roomRow 7 = .ok () ∧ r0.room 3 = .ok () ∧ r0.core.pc.rngOld = [] := by
  and_intros <;> first | rfl | decide

/-- A LOOPR of two iterations with one stage, at the last word of its body. -/
abbrev looprS : State := onC (fun c => { c with cv := { c.cv with act := true, pc := 4 }, pc := { c.pc with loopr := some ⟨2, 0, 2, 0, 0, 8⟩ } })

/-- LOOPR: one active and none; counts 0 and 3; a stage map that fits and one that does not; the last iteration and one before it;
a stage predicate of zeros. -/
theorem witness_loopr : looprS.core.pc.loopr = some ⟨2, 0, 2, 0, 0, 8⟩ ∧ looprS.core.cv.pc = 8 - 4 ∧ looprS.core.pc.vwinAt = 0 ∧
    (2 : Nat) ≠ 1 ∧ gives looprS.stagePred (some 0) = true ∧ r0.core.pc.loopr = none ∧ (withQ 4 [3]).peek 4 1 = .ok [⟨3, false⟩] ∧
    (withQ 4 [0, 2]).peek 4 2 = .ok [⟨0, false⟩, ⟨2, false⟩] ∧
    ((2 : W64).toNat % 2 ≠ 1 ∧ (2 : W64).toNat / 2 ^ ((4 : BitVec 19).toNat - 1) = 0 ∧ popNat (2 : W64).toNat 64 = 1) ∧
    ¬((1 : W64).toNat % 2 ≠ 1) ∧ looprS.vtNow = .ok 0 ∧ looprS.vRead 32 0 = .ok ⟨0, 0⟩ := by
  and_intros <;> first | decide +kernel | rfl

/-- M: no repetition and one; a body of one word ahead of REP; tiles that are free and held. -/
theorem witness_matrix : r0.core.pc.rep = none ∧ r0.effSlot 0 0 = .ok 0 ∧
    (onP (fun p => { p with rep := some ⟨2, false, false, true⟩ })).core.pc.rep = some ⟨2, false, false, true⟩ ∧
    (onP (fun p => { p with rep := some ⟨1, false, false, true⟩ })).core.pc.rep = some ⟨1, false, false, true⟩ ∧
    (onC (fun c => { c with cm := { c.cm with pc := 4 }, pc := { c.pc with mloop := some ⟨1, 0, 8⟩ } })).core.cm.pc = 8 - 4 ∧
    Claims.tileFree r0 0 ∧ ¬Claims.tileFree (r0.holdTile 0 16 18) 0 ∧ r0.core.array ≤ r0.cyc := by
  and_intros <;> first | rfl | decide

/-- Two operand slots that hold FP8 records of 32 elements, and a format word with its stamp in fq. -/
abbrev mmaS : State := onC (fun c => { c.setQ 8 ⟨[⟨⟨0x44, false⟩, true, 0, 0, 0⟩, ⟨⟨0, false⟩, true, 0, 0, 0⟩], 0, 0, 0, 0⟩ with
  shape := [(0, ⟨true, 4, 8, 32⟩), (1, ⟨true, 4, 8, 32⟩)] })

/-- MMA and MMAS: a format word, none, one that is invalid; stamps before, at and after the cycle. -/
theorem witness_products : passes (mmaS.peekFmt 1) = true ∧ passes (mmaS.peekFmt 2) = true ∧ r0.peekFmt 1 = raise .formatUnderflow ∧
    passes (mmaS.mmaChecks 0 0 1 true 0x44) = true ∧ mmaS.mmaChecks 0 0 1 true 0xF00 = .error (.trap ⟨.formatInvalid, 0, 0xF00⟩) ∧
    Claims.frontStamp (mmaS.core.q 8).ents = mmaS.cyc ∧ Claims.frontStamp (mmaS.core.q 8).ents < (at_ 1 mmaS).cyc ∧
    ((r0.cyc : Int) < stampOf 5 0) := by
  and_intros <;> first | decide +kernel | rfl

/-- EPI, EPIR and XPOSE: free units, checks that pass and fail, a route that is valid, one that is not, a row out of its bounds. -/
theorem witness_epilogue : r0.epiBusy = false ∧ r0.heldM 0 = false ∧ (onC (fun c => { c with epiUnit := 5 })).epiBusy = true ∧
    r0.epiChecks 0 0 = .error (.trap ⟨.formatUnderflow, 0, 0⟩) ∧ passes ((withQ 8 [0]).epiChecks 0 0) = true ∧
    (r0.core.routeOf 0).val = false ∧ r0.core.permute ≤ r0.cyc ∧ (r0.core.shapeOf 0).val = false ∧ fmtBits (4 : BitVec 4) ∈ [8, 16, 32] := by
  and_intros <;> first | decide +kernel | rfl

/-- ENG: both words decode, the first does not, the second does not; the stack has the depth or not. -/
theorem witness_eng : engOf 0 = some .ml ∧ (decodeEW .ml 0x0102).isSome = true ∧ decodeEW .ml 0xFFFF = none ∧
    r0.capWord .nop = .ok () ∧ depthCheck .ml [.nop, .nop] 0 false = .ok () ∧ depthCheck .ml [.drop, .nop] 0 false = stackFault .ml ∧
    r0.engWord .ml .nop = .ok r0 ∧ r0.fenceOpen = false := by
  and_intros <;> first | decide +kernel | rfl

/-- Stacks of an engine with two entries, plain and not. -/
theorem witness_stack : (onC (fun c => c.setStack .ml [⟨5, .plain⟩, ⟨16, .slot⟩])).core.stack .ml = [⟨5, .plain⟩, ⟨16, .slot⟩] ∧
    (⟨5, .plain⟩ : StkEnt).attr = .plain ∧ (⟨16, .slot⟩ : StkEnt).attr ≠ .plain := by
  and_intros <;> first | rfl | decide

/-- Writes as events: allowed, not allowed, one that would wait; registers inside a step, beside an open step, with a collective of the
group, a load, and SCRH in and out of its range. -/
theorem witness_register_events : r0.csrMay 0x001 true = true ∧ (inPkg (fun p => { p with mo := { p.mo with cfg := 16 } })).csrMay 0x3A3 true = false ∧
    passes (r0.csrPut 0x001 0) = true ∧ (inGctx (fun g => { g with hload := some ⟨0, 0, 1, []⟩ })).csrPut 0x50C 0 = .error .wait ∧ r0.k < 384 ∧
    r0.core.pc.stepIn = false ∧ (onP (fun p => { p with stepIn := true })).core.pc.stepIn = true ∧ r0.pkg.mo.icurOk 0 = true ∧
    (inCtx (fun c => { c with step := { c.step with open_ := true } })).stepBusy = true ∧ r0.stepBusy = false ∧
    (inFab (fun f => { f with colls := [⟨1, op0, 0, nullCap, nullCap, none, none, 0, 0, 0, 0, [], [], [], [], [], 0, false⟩] })).fab.colls.any
      (fun x => x.op.ctx == 0 && pbGrp x.blk == 0) = true ∧
    (r0.gctx 0).hload = none ∧ (r0.gctx 0).scrh.toNat ≤ (0 : W64).toNat ∧ (r0.gctx 0).scrw.toNat < (1 : W64).toNat := by
  and_intros <;> first | decide +kernel | rfl

/-- Copies: none queued, one that may start, one that may not yet; one in the cluster that is due; a promise before, at and after its
cycle, of this piece and of another; a unit whose turn it is, and one that is done. -/
theorem witness_copies : Claims.nextCopy r0 .ml = none ∧ Claims.nextCopy (onC (fun c => c.setEngineQueue .ml [op0])) .ml = some op0 ∧
    Claims.copyMayStart (onC (fun c => c.setEngineQueue .ml [op0])) .ml op0 = true ∧
    Claims.copyMayStart (onC (fun c => { c with halt := .freeze })) .ml op0 = false ∧ op0.geo.inCluster = true ∧ op0.geo.h = none ∧
    ((at_ 25 (onC (fun c => { c with copies := [{ copy0 with incl := true }] }))).core.copies.find?
      (fun x => x.incl && x.op.eng == engOfQ .ml && decide (x.start + 25 + x.seen ≤ 25))).isSome = true ∧
    copy0.op.eng = engOfQ .ml ∧ copy0.missed = false ∧ copy0.incl = false ∧ r0.cyc < copy0.promise ∧ copy0.promise ≤ (at_ 64 r0).cyc ∧
    (onP (fun p => { p with run := true })).core.ownsOp copy0.op = true ∧ r0.core.ownsOp copy0.op = false ∧
    (0 : Nat) ∉ copy0.done ∧ r0.core.stalledBefore copy0 = false ∧ r0.core.halt ≠ .freeze := by
  and_intros <;> first | decide +kernel | rfl

/-- A copy to memory whose first unit may perform. -/
abbrev toMem : Copy := { copy0 with geo := { copy0.geo with dst := some (.mem (capT 3 3 0)), shp := none } }
theorem witness_units : toMem.inOrder 0 = true ∧ (∀ n, toMem.geo.dst ≠ some (.slot n)) := ⟨by decide +kernel, fun n h => by simp at h⟩

/-- Gathers: none, one with a row to land, one behind a stalled one; two sectors of one line of a gather; a scatter whose index is 2^31. -/
abbrev gaOp : Op := { op0 with word := 0x6000, args := [⟨0, .slot⟩, ⟨0, .cap (capT 1 3 0)⟩, ⟨0, .cap (capT 1 3 0)⟩, ⟨2 ^ 24 + 64, .plain⟩] }
abbrev ga1 : GaRun := { GaRun.start gaOp with idx := [some (0, false)] }
theorem witness_gathers : r0.core.ga.find? (fun x => x.op.id == 1) = none ∧ (onC (fun c => { c with ga := [ga1] })).core.ga.find? (fun x => x.op.id == 1) = some ga1 ∧
    (0 : Nat) < gaOp.gaGeo.rows ∧ gaOp.gaGeo.rows ≤ 1 ∧ (0 : Nat) ∉ ga1.rows ∧ r0.core.gaBehind ga1 = false ∧ gaOp.gaGeo.gat = true ∧
    (onC (fun c => { c with ga := [{ ga1 with op := { gaOp with id := 0 }, stall := some (0, 0) }] })).core.gaBehind ga1 = true ∧
    (ga1.plan 0).isSome = true ∧ (0 : Nat) ∉ ga1.acks ∧ (gaOp.gaGeo.near / 32 + 0) / 4 = (gaOp.gaGeo.near / 32 + 1) / 4 ∧
    ({ gaOp with word := 0x6100 } : Op).gaGeo.gat = false ∧ ({ ga1 with op := { gaOp with word := 0x6100 } } : GaRun).plan 0 ≠ none ∧
    gives (({ r0 with mem := [(2 ^ 45 + 3, 0x80)] }.setShr { r0.shr with banks := [(0, ⟨1, none, [], 0, 0⟩)] }).gaIndex
      (GaRun.start { gaOp with word := 0x6100 }) 0) (0x80000000, false) = true := by
  and_intros <;> first | decide +kernel | rfl

/-- Operations at the head of a queue: none, and one of each kind that ENGINE_TAKES_OPERATION takes; gadd with and without an earlier one. -/
theorem witness_operations : r0.core.headOp .ga = none ∧ (onC (fun c => c.setEngineQueue .ga [{ op0 with eng := .ga }])).core.headOp .ga =
      some { op0 with eng := .ga } ∧ nb (0x9000 : BitVec 16).toNat 10 2 = 0 ∧ nb (0x9400 : BitVec 16).toNat 10 2 ≠ 0 ∧
    ((onC (fun c => c.setEngineQueue .ml [{ op0 with word := 0xB000 }])).core.engineQueue .ml).find? Op.isGadd = some { op0 with word := 0xB000 } ∧
    r0.earlierOpen .ml 1 = false ∧ (at_ 1 r0).moWaits 0 { op0 with eng := .mo } = false ∧ r0.moWaits 0 { op0 with eng := .mo } = true ∧ (onC (fun c => c.setEngineQueue .ml [op0])).earlierOpen .ml 2 = true ∧
    (r0.stop 0).fired = [] ∧ ((r0.setShr { r0.shr with stops := [(0, ⟨[], none, true, true, [(0, op0)]⟩)] }).stop 0).fired = [(0, op0)] ∧
    ((inGctx (fun g => { g with scrcfg := 0 })).gctx 0).scrcfg = 0 ∧ (r0.core.engineQueue .ml).find? Op.isGadd = none := by
  and_intros <;> first | decide +kernel | rfl

/-- A tile held for an MMA, and free; outputs due and not, into a slot in use and not; rows of an EPIR. -/
theorem witness_landings : r0.cyc < ((r0.holdTile 0 16 18).core.holdOf 0).mFrom ∧ (r0.core.holdOf 0).mFrom ≤ r0.cyc ∧
    r0.core.land.find? (fun l => l.epi == true && decide (l.at_ ≤ 0)) = none ∧
    ((onC (fun c => { c with land := [⟨true, 0, 0, 0, 0, false, 8, 8, 32, [], [], 0, ⟨true, 0, 8, 8⟩, none⟩] })).core.land.find?
      (fun l => l.epi == true && decide (l.at_ ≤ 0))).isSome = true ∧ r0.slotUsed 0 = false ∧
    (onC (fun c => { c with use := 1 })).slotUsed 0 = true ∧ r0.core.epir.find? (fun x => x.id == 1) = none ∧
    ((onC (fun c => { c with epir := [⟨1, 0, 0, 0, false, 8, 32, ⟨0, false, .rne, false, false, 0, [], []⟩, [], 0, r0.core.routeOf 0, 0, 0, 0, 1, false, none, [0, 1], 0, [], false, false⟩] })).core.epir.find?
      (fun x => x.id == 1)).map Epir.left = some [0, 1] := by
  and_intros <;> first | decide +kernel | rfl

/-- Walks; a copy that has been stalled for 2^20 cycles; a request without an answer for 2^22 cycles, and a younger one. -/
theorem witness_timeouts : r0.walks = [] ∧ ({ r0 with walks := [(0, 5)] } : State).walks = [(0, 5)] ∧
    ((at_ (2 ^ 20) (onC (fun c => { c with copies := [{ copy0 with stall := some (0, 0) }] }))).core.copies.find?
      (fun x => x.op.eng == .ml && x.stall.any (fun p => decide (p.2 + 2 ^ 20 ≤ 2 ^ 20)))).isSome = true ∧
    r0.core.copies.all (fun x => x.stall.isNone) = true ∧ Map.get none r0.fab.req 1 = none ∧
    Map.get none (inFab (fun f => { f with req := [(1, some ⟨.acc 0 1, 2 ^ 45, 8, 0, 0, 0, true, 0, 0⟩)] })).fab.req 1 =
      some ⟨.acc 0 1, 2 ^ 45, 8, 0, 0, 0, true, 0, 0⟩ ∧ (0 : Nat) + 2 ^ 22 ≤ (at_ (2 ^ 22) r0).cyc ∧ r0.cyc < 0 + 2 ^ 22 := by
  and_intros <;> first | decide +kernel | rfl

/-- A piece: waiting at a barrier whose round stands and has moved on; stalled everywhere; a report; watchdogs; a scratch switch. -/
theorem witness_pieces : (r0.barrier (r0.barKey 1 0)).round = 0 ∧ (1 : BitVec 16) ≠ 0 ∧ (active .s).core.firstActive = some .s ∧
    (active .s).core.allStalled = false ∧ (onC (fun c => { c with cs := { c.cs with act := true }, pc := { c.pc with stallSet := 15, run := true } })).core.allStalled = true ∧
    r0.core.pc.reports = [] ∧ (onP (fun p => { p with reports := [⟨⟨.landingConflict, 0, 0⟩, false⟩] })).core.pc.reports = [⟨⟨.landingConflict, 0, 0⟩, false⟩] ∧
    Cause.recoverable .landingConflict = true ∧ Cause.landingConflict ≠ .contextTerminated ∧
    ({ lr0 with w5 := BitVec.allOnes 64 } : LaunchRec).wdog ≠ 0 ∧ lr0.wdog = 0 ∧
    (ln0.earlyWait.find? (fun e => e.1 == 0)) = none ∧ ({ ln0 with earlyWait := [(0, 0, 5)] } : Launch).earlyWait.find? (fun e => e.1 == 0) = some (0, 0, 5) ∧
    r0.writesBefore 0 0 5 = false ∧ r0.core.pc.l1pend = none ∧ (onP (fun p => { p with l1pend := some (1, 5) })).core.pc.l1pend = some (1, 5) ∧
    r0.core.openBefore 5 = false ∧ (onC (fun c => { c with pend := [r0.newAcc 0 ⟨.scr 0, false⟩ 8 (.store [0] false) nullCap] })).core.openBefore 5 = true := by
  and_intros <;> first | decide +kernel | rfl

/-- An access in the list, alone; a fence; a load whose bytes are there. -/
theorem witness_pending : (onC (fun c => { c with pend := [r0.newAcc 0 ⟨.hbm 64, false⟩ 1 (.store [7] false) nullCap] })).core.pend.find?
      (fun a => a.id == 1) = some (r0.newAcc 0 ⟨.hbm 64, false⟩ 1 (.store [7] false) nullCap) ∧ r0.core.pend.find? (fun a => a.id == 1) = none ∧
    (r0.newAcc 0 ⟨.hbm 64, false⟩ 1 (.store [7] false) nullCap).isFence = false ∧ (r0.newAcc 0 ⟨.scr 0, false⟩ 0 (.fence 0 0) nullCap).isFence = true ∧
    r0.inDowel r0.k 1 = false ∧ r0.remote 64 = false ∧ r0.remote (2 ^ 45) = true ∧
    (r0.loadNow (r0.newAcc 0 ⟨.hbm 64, false⟩ 8 (.load 0 1 false) nullCap) 0 8).isSome = true ∧
    r0.mayPerform (r0.newAcc 0 ⟨.hbm 64, false⟩ 1 (.store [7] false) nullCap) = true := by
  and_intros <;> first | decide +kernel | rfl

/-- Banks: no switch, one that waits, one that runs; a scratchpad; frames retired and not. -/
theorem witness_bank_switches : (r0.bank 0 0).wait = [] ∧ (r0.bank 0 0).cur = none ∧ (r0.bank 0 0).mode = 0 ∧ r0.bankPending 0 0 = false ∧
    ((r0.setBank 0 0 ⟨0, none, [(1, 0, 0)], 0, 0⟩).bank 0 0).wait = [(1, 0, 0)] ∧ 0 < (at_ 1 r0).cyc ∧ ((r0.setBank 0 0 ⟨1, some (0, 0, 32), [], 0, 0⟩).bank 0 0).cur.isSome = true ∧
    ((r0.setBank 0 0 ⟨1, none, [], 0, 0⟩).bank 0 (0 / 2 ^ 19)).mode = 1 ∧ Map.get false r0.pkg.retired (r0.primaryOf 0) = false ∧
    Map.get false (inPkg (fun p => { p with retired := [(0, true)] })).pkg.retired (r0.primaryOf 0) = true := by
  and_intros <;> first | decide +kernel | rfl

/-- Stream 0 as descriptors and commands find it: running, with a nest, in a part that does not run. -/
abbrev strm (f : Stream → Stream) : State := (inPkg (fun p => { p with bootst := 4 })).setStream 0 (f { r0.streamOf 0 with state := 1, size := 16, tail := 1, cmsk := 1 })

/-- Streams: one that runs and one that does not; nests of eight, of none, of a loop and of a condition; counts; signals. -/
theorem witness_streams : r0.streamRuns 0 = false ∧ (strm id).streamRuns 0 = true ∧ Claims.runsCmd (strm id) 0 ∧
    ((strm (fun x => { x with skip := 1 })).streamOf 0).skip ≠ 0 ∧
    8 ≤ ((strm (fun x => { x with nest := List.replicate 8 (.loop 0 0) })).streamOf 0).nest.length ∧ ((strm id).streamOf 0).nest = [] ∧
    (Claims.here (strm (fun x => { x with nest := [.loop 3 2] })) 0).nest = [.loop 3 2] ∧ (1 : Nat) < 2 ∧
    (Claims.here (strm (fun x => { x with nest := [.cond true false] })) 0).nest = [.cond true false] ∧
    (Claims.here (strm id) 0).launches = [] ∧ (Claims.here (strm id) 0).owed = [] ∧
    (Claims.here (strm (fun x => { x with launches := [0] })) 0).launches ≠ [] ∧ (r0.streamOf 0).signals = [] ∧
    ((strm (fun x => { x with signals := [⟨[0], 1, 1, false⟩] })).streamOf 0).signals = [⟨[0], 1, 1, false⟩] ∧
    ((strm (fun x => { x with signals := [⟨[], 1, 1, false⟩] })).streamOf 0).signals = [⟨[], 1, 1, false⟩] := by
  refine ⟨?_, ?_, ⟨?_, ?_⟩, ?_⟩
  all_goals and_intros <;> first | decide +kernel | rfl

/-- Pages that a WRITE finds: none, one that may be written, one that is read-only, one that is versioned, one in transit. -/
abbrev paged (p : Page) : State := inCtx (fun c => { c with pages := [p] })
theorem witness_stream_writes : r0.page 0 0 = none ∧ (paged ⟨0, 16, 0, true, true, true, false, false, true⟩).page 0 8 =
      some ⟨0, 16, 0, true, true, true, false, false, true⟩ ∧
    (paged ⟨0, 16, 0, true, false, true, false, false, true⟩).page 0 8 = some ⟨0, 16, 0, true, false, true, false, false, true⟩ ∧
    (paged ⟨0, 16, 0, true, true, true, true, false, true⟩).page 0 8 = some ⟨0, 16, 0, true, true, true, true, false, true⟩ ∧
    (paged ⟨0, 16, 0, true, true, true, false, true, true⟩).page 0 8 = some ⟨0, 16, 0, true, true, true, false, true, true⟩ ∧
    (8 : Nat) % 8 = 0 ∧ (r0.ctx 0).step.open_ = false ∧ r0.remote (0 + (8 - 0)) = false := by
  and_intros <;> first | decide +kernel | rfl

/-- Records: one that is read, one that cannot be; contexts of the stream and not; a record that is rejected, of no pieces, accepted. -/
theorem witness_records : passes ((paged ⟨0, 16, 0, true, true, true, false, false, true⟩).readRecord 0 0 0 0 0) = true ∧
    (match r0.readRecord 0 0 0 0 0 with | .error (.trap _) => true | _ => false) = true ∧
    (1 : BitVec 16).toNat.testBit 0 = true ∧ (0 : BitVec 16).toNat.testBit 0 = false ∧ lr0.rejects = false ∧ lr0.count = 1 ∧
    ({ lr0 with w0 := 0 } : LaunchRec).count = 0 ∧ ({ lr0 with w0 := 3 } : LaunchRec).rejects = true ∧ r0.freeLaunch.isSome = true := by
  and_intros <;> first | decide +kernel | rfl

/-- A domain of two ranks; this device is rank 0, the root, or rank 1. -/
abbrev domain (f : GCtx → GCtx) : State := inGctx (fun g => f { g with glucfg := 2 * 2 ^ 41 + 2 ^ 29 })
abbrev leafOf (f : GCtx → GCtx) : State := { domain f with peer := 1 }

/-- Steps of a stream: no rank, a rank, an open step, a step to restore, STEPCLOSE at the depth of STEPOPEN and elsewhere. -/
theorem witness_step_commands : r0.domRank 0 = none ∧ ({ r0 with peer := 1 } : State).domRank 0 = none ∧ (domain id).domRank 0 = some 0 ∧
    (leafOf id).domRank 0 = some 1 ∧ r0.gluHolds 0 = false ∧ (domain (fun g => { g with st := 5 })).gluHolds 0 = true ∧
    (r0.ctx 0).knext = none ∧ ((inCtx (fun c => { c with knext := some 7 })).ctx 0).knext = some 7 ∧ (7 : W64) ≠ 8 ∧
    256 < (255 : BitVec 8).toNat + (2 : BitVec 9).toNat ∧ (255 : BitVec 8).toNat + (1 : BitVec 9).toNat ≤ 256 ∧
    (Claims.here (strm id) 0).step = none ∧ (Claims.here (strm (fun x => { x with step := some 0 })) 0).step = some 0 ∧
    ((inCtx (fun c => { c with step := { c.step with open_ := true } })).ctx 0).step.stream = 0 := by
  and_intros <;> first | decide +kernel | rfl

/-- Launches: none at an index; waiting with its predicate held and not; with a gauge in error; running, all pieces ended and not; frozen;
one that has waited for 2^24 cycles. -/
theorem witness_launches : r0.launch 5 = none ∧ (launched { ln0 with state := .waiting }).launch 0 = some { ln0 with state := .waiting } ∧
    ln0.holds = true ∧ ({ ln0 with holds := false } : Launch).holds = false ∧ ln0.state = .running ∧ ({ ln0 with ended := 1 } : Launch).ended = lr0.count ∧
    ln0.ended ≠ lr0.count ∧ bitsOf lr0.w3 63 1 ≠ 1 ∧ (launched ln0).runsOf 0 = false ∧ ({ ln0 with state := .frozen } : Launch).saved = [] ∧
    (∀ e ∈ (launched ln0).allCores, (launched ln0).writesBefore e.1 0 (launched ln0).nextId = false) ∧
    ({ ln0 with state := .ready } : Launch).waits = true ∧ (0 : Nat) + 2 ^ 24 ≤ (at_ (2 ^ 24) r0).cyc ∧ 0 ∉ r0.die.promoted ∧
    (r0.setGaugeErr 3 true).gaugeErr 3 = true ∧ (({ lr0 with w4 := 2 ^ 40 + 3 * 2 ^ 32 } : LaunchRec).term false).1 = true ∧ r0.pkg.dv.live = [] ∧
    bitsOf ({ lr0 with w3 := 2 ^ 62 } : LaunchRec).w3 62 1 = 1 := by
  and_intros <;> first | decide +kernel | rfl

/-- Pieces: a core that is free and one that is not; a launch on fixed placement whose piece is next; victims of a pre-emption. -/
theorem witness_scheduling : r0.coreFree 0 = true ∧ (onP (fun p => { p with run := true })).coreFree 0 = false ∧ r0.pkg.off = false ∧
    r0.firstFree 0 = true ∧ r0.chosen 0 = none ∧ (capT 3 7 0).tag = true ∧ ln0.waits = true ∧ ({ ln0 with taken := [0] } : Launch).waits = false ∧
    remaining lr0 r0.core.pc ≤ 4096 * 1 ∧ 4096 * 0 < remaining { lr0 with w4 := 5 * 2 ^ 48 } r0.core.pc ∧ lr0.idem = false := by
  and_intros <;> first | decide +kernel | rfl

/-- A launch of one piece on fixed placement on core 0, ready to run. -/
abbrev fixedS : State :=
  ((launched { ln0 with state := .ready, lr := { lr0 with w3 := lr0.w3 + 2 ^ 18 + 2 ^ 30 + 2 ^ 34 } }).setCtx 0
    { r0.ctx 0 with coreSet := 1 })
theorem witness_placement : (fixedS.chosen 0).isSome = true ∧ (fixedS.chosen 0).map (fun x => fixedS.pieceFor x.2 0) = some (some (.start 0 none)) ∧
    (fixedS.chosen 0).map (fun x => x.2.lr.fixed) = some true := by
  and_intros <;> decide +kernel

/-- Masters: the owner, another, none; an offer; images that are absent. -/
theorem witness_owner : r0.pkg.owner = 0xFF ∧ (inPkg (fun p => { p with owner := 3, pend := 16 })).pkg.owner.toNat = 3 ∧
    (inPkg (fun p => { p with owner := 3, pend := 16 })).pkg.pend.toNat = 16 ∧ (16 : Nat) ≤ 16 ∧ (3 : Nat) ≠ 16 ∧
    1500 ≤ (1500 : BitVec 16).toNat ∧ (5000 : BitVec 16).toNat ≤ 5000 ∧ ¬(1500 ≤ (1499 : BitVec 16).toNat) ∧ ¬((5001 : BitVec 16).toNat ≤ 5000) ∧
    (r0.ring 0).en = false ∧ r0.page 0 0 = none ∧ r0.pkg.mo.ctx = 0 ∧ r0.pkg.mo.ctx ≠ 1 := by
  and_intros <;> first | decide +kernel | rfl

/-- The debugger: a core without a piece, with one, drained; clocks in and between steps. -/
theorem witness_debug : r0.core.pc.run = false ∧ (onP (fun p => { p with run := true })).core.pc.run = true ∧ r0.core.halt = .none ∧
    (onC (fun c => { c with halt := .drain })).core.halt = .drain ∧ (r0.coreOf 0).halt ≠ .drain ∧
    ((1875 : BitVec 16).toNat ≤ 1900 ∧ (1900 - (1875 : BitVec 16).toNat) % 25 = 0) ∧ (1900 - (1880 : BitVec 16).toNat) % 25 ≠ 0 ∧
    1900 < (1901 : BitVec 16).toNat := by
  and_intros <;> first | decide +kernel | rfl

/-- A versioned frame: line 0 not visited and visited; its set leaf poisoned; a pass that is done. -/
abbrev versS : State := { r0 with frames := [(0, some ⟨0, 1, 0, 1, 1⟩)] }
theorem witness_scrub : r0.frame 0 = none ∧ versS.frame 0 = some ⟨0, 1, 0, 1, 1⟩ ∧ Map.get false r0.pkg.seen 0 = false ∧
    Map.get false (inPkg (fun p => { p with seen := [(0, true)] })).pkg.seen 0 = true ∧ (versS.ctx 0).step.open_ = false ∧
    ({ versS with pois := [(0, true)] } : State).poisAt (leafKey ⟨0, 1, 0, 1, 1⟩ (128 * 0) (versS.setLeaf 0 0) + 32 * 0) = true ∧
    r0.passDone = true ∧ versS.passDone = true ∧ ({ versS with frames := [(0, some ⟨0, 1, 1, 1, 1⟩)] } : State).passDone = false := by
  and_intros <;> first | decide +kernel | rfl

/-- Ethernet: an enabled ring of four and its tails, no ring; a port with and without link; a ring that is full. -/
abbrev ring0 : EthRing := ⟨0, 4, 0, 0, 0, true, 0, false, 1, false, false, none⟩
abbrev ethS (n : Nat) (r : EthRing) : State := (inPkg (fun p => { p with owner := 3, ethUp := 1 })).setRing n r
theorem witness_ethernet : (ethS 0 ring0).pkg.owner.toNat ≠ 5 ∧ (ethS 0 ring0).pkg.owner.toNat = 3 ∧ ((ethS 0 ring0).ring 0).en = true ∧ bitsOf (0 : W64) 32 32 < ring0.size.toNat ∧
    (ring0.head.toNat ≤ bitsOf (4 * 2 ^ 32 : W64) 32 32 ∧ bitsOf (4 * 2 ^ 32 : W64) 32 32 ≤ ring0.head.toNat + ring0.size.toNat) ∧ ring0.head.toNat + ring0.size.toNat < bitsOf (5 * 2 ^ 32 : W64) 32 32 ∧ (r0.ring 0).en = false ∧ (ethS 0 ring0).pkg.ethUp.toNat.testBit 0 = true ∧
    r0.pkg.ethUp.toNat.testBit 0 = false ∧ r0.rxRing 0 0 = none ∧ (ethS 4 ring0).rxRing 0 0 = some 4 ∧ ((ethS 4 ring0).ring 4).ready = 0 ∧
    r0.txBusy 0 = [] ∧ (r0.setTx 0 [⟨0, 1, false, some [7]⟩]).txBusy 0 = [⟨0, 1, false, some [7]⟩] := by
  and_intros <;> first | decide +kernel | rfl

/-- Episodes: none, one that is open, due, complete; the unit on and off; a due time-out of another episode. -/
abbrev ep0 : Episode := ⟨7, 0, 4096, 8192, 16384, 0, 0, 0, false, 2, 0, 0, .open_, false, false, false, 0, 0⟩
abbrev moS (e : Episode) : State := inPkg (fun p => { p with mo := { p.mo with cfg := 1 + 4 * 2 ^ 16, table := [(0, some e)] } })
theorem witness_episodes : r0.episodeDue = none ∧ (moS { ep0 with deadline := 1 }).episodeDue = none ∧ (at_ 1 (moS { ep0 with deadline := 1 })).episodeDue.isSome = true ∧
    (moS ep0).pkg.mo.enabled = true ∧ r0.pkg.mo.enabled = false ∧ (moS ep0).pkg.mo.find 7 = some (0, ep0) ∧ (moS ep0).pkg.mo.find 8 = none ∧ ep0.st = .open_ ∧
    (1 : BitVec 12).toNat < ep0.len ∧ ep0.len ≤ (2 : BitVec 12).toNat ∧ r0.pkg.mo.oldest = none ∧
    (moS { ep0 with st := .complete }).pkg.mo.oldest = some (0, { ep0 with st := .complete }) ∧ ep0.nval < ep0.len ∧ bitsOf (moS ep0).pkg.mo.cfg 8 1 = 0 := by
  and_intros <;> first | decide +kernel | rfl

/-- The pages of the Mortise: a bitmap bit that is set and one that is not; inputs that are read, poisoned, missing. -/
abbrev moP (e : Episode) : State := (moS e).setCtx 0 { (moS e).ctx 0 with pages := [⟨0, 16, 0, true, true, true, false, false, true⟩] }
theorem witness_plane : gives ((moP ep0).moBitAt ep0.rbmp 1) false = true ∧ gives (({ moP ep0 with mem := [(8192, 2)] } : State).moBitAt ep0.rbmp 1) true = true ∧
    (match (moP ep0).planeIn ep0 with | .ok (some _) => true | _ => false) = true ∧ gives ((moP ep0).planeIn { ep0 with bootBad := true }) none = true ∧
    (match r0.planeIn ep0 with | .error (.trap _) => true | _ => false) = true ∧ ((moP ep0).moWrite 4096 [1, 0, 0, 0]).2 = none ∧
    ((moP { ep0 with nval := 2, deadline := 1 }).zeroMissing { ep0 with nval := 2, deadline := 1 }).isSome = true ∧
    (((moP { ep0 with nval := 2 }).setMo { (moP ep0).pkg.mo with cfg := 0x101 }).zeroMissing { ep0 with nval := 2 }).isSome = true := by
  and_intros <;> first | decide +kernel | rfl

/-- Tables of the Dovetail: none running; an entry at POS that nothing holds back, one that overflows; one that has run out. -/
abbrev dvS (f : Dove → Dove) : State := r0.setDove (f { r0.pkg.dv with st := 2, n := 1, ents := [0] })
theorem witness_dovetail : r0.doveSettle.pkg.dv.st ≠ 2 ∧ (dvS id).doveSettle.pkg.dv.st = 2 ∧ (dvS id).doveSettle.pkg.dv.cur = none ∧
    (dvS id).doveSettle.pkg.dv.pos < (dvS id).doveSettle.pkg.dv.n ∧ (dvS (fun d => { d with pos := 1 })).doveSettle.pkg.dv.n ≤
      (dvS (fun d => { d with pos := 1 })).doveSettle.pkg.dv.pos ∧ (dvS id).doveSettle.pkg.dv.live = [] ∧ (dvS id).doveSettle.pkg.dv.slots = [] := by
  and_intros <;> first | decide +kernel | rfl

/-- Collectives and sends: none, one, read whole or not; a table of Veneer entries with room and without; a plane that waits. -/
abbrev coll0 : Coll := ⟨1, { op0 with eng := .vc, word := 0x7000 }, 0, nullCap, nullCap, none, none, 0, 0, 0, 0, [], [], [], [], [], 0, false⟩
abbrev pkV : Packet := { pkZero with op := 0x13, att := 1 }
theorem witness_collectives : r0.fab.colls.find? (fun x => x.id == 1) = none ∧ (inFab (fun f => { f with colls := [coll0] })).fab.colls.find? (fun x => x.id == 1) = some coll0 ∧
    r0.core.headOp .vc = none ∧ (onC (fun c => c.setEngineQueue .vc [coll0.op])).core.headOp .vc = some coll0.op ∧ coll0.op.word.toNat / 256 = 0x70 ∧
    (r0.cyc < coll0.last + 2 ^ 28) ∧ coll0.last + 2 ^ 28 ≤ (at_ (2 ^ 28) r0).cyc ∧ r0.fab.sends.find? (fun x => x.id == 1) = none ∧
    r0.vnRoom.isSome = true ∧ r0.fab.held.find? (fun e => e.pk == pkV) = none ∧ (inFab (fun f => { f with held := [⟨0, false, pkV⟩] })).fab.held.find? (fun e => e.pk == pkV) = some ⟨0, false, pkV⟩ ∧
    r0.pkAge pkV ≠ .newer ∧ (inFab (fun f => { f with vns := List.replicate 8192 ⟨0, false, 0, 0, false, .open_, 0, 0, 0, 0, 0, 0, none, none, []⟩ })).vnRoom = none ∧
    r0.core.vcWait = none ∧ (onC (fun c => { c with vcWait := some 0 })).core.vcWait = some 0 := by
  and_intros <;> first | decide +kernel | rfl

/-- Packets: sound and next of their flow, not next, not for this device, not sound; a flow that waits. -/
theorem witness_packets : Claims.sound r0 (pkSeal { pkZero with op := 1 }) ∧ pkOk pkZero = false ∧ r0.mcOnward pkZero = [] ∧
    (r0.replicate (r0.mcOnward pkZero)).isSome = true ∧ ({ pkZero with op := 1 } : Packet).seq = Map.get 0 r0.fab.seqIn (flowKey 0 0) ∧
    ({ pkZero with seq := 1 } : Packet).seq ≠ Map.get 0 r0.fab.seqIn (flowKey 0 0) ∧ ({ pkZero with dst := 1 } : Packet).dst ≠ r0.peer ∧
    opDefined (0xFF : BitVec 8).toNat = false ∧ (inFab (fun f => { f with held := [⟨0, true, { pkZero with att := 2 }⟩] })).flowHeld pkZero = true ∧
    r0.flowHeld pkZero = false ∧ (r0.serveFree { pkZero with op := 7 }).isSome = true ∧ r0.serveLoad { pkZero with op := 1 } = some (r0.answer { pkZero with op := 1 } 1 [] []) := by
  refine ⟨⟨?_, ?_, ?_, ?_⟩, ?_⟩
  all_goals and_intros <;> first | decide +kernel | rfl

/-- The home of an access: a range it owns and one it does not; attempts that are the home's, newer and older; answers that are expected. -/
abbrev homeS : State := (inPkg (fun p => { p with inst := 1 })).setCtx 0 { r0.ctx 0 with pages := [⟨0, 16, 0, true, true, true, false, false, true⟩] }
theorem witness_home : r0.homeRange 0 64 8 = false ∧ homeS.homeRange 0 64 8 = true ∧ r0.pkAge { pkZero with att := 1 } = .same ∧ r0.pkAge { pkZero with att := 2 } = .newer ∧
    r0.pkAge pkZero = .older ∧ r0.pkVers pkZero = false ∧ ({ homeS with frames := [(0, some ⟨0, 1, 0, 1, 1⟩)] } : State).pkVers pkZero = true ∧
    Map.get none r0.fab.req 0 = none ∧ Map.get none (inFab (fun f => { f with req := [(0, some ⟨.acc 0 1, 0, 8, 0, 0, 0, true, 0, 0⟩)] })).fab.req 0 =
      some ⟨.acc 0 1, 0, 8, 0, 0, 0, true, 0, 0⟩ ∧ r0.standIn 0 = 0 ∧ pkBytes { pkZero with data := [0] } ≠ [] := by
  and_intros <;> first | decide +kernel | rfl

/-- Dowel engines: no operation, an atomic, a handler of this device and one from elsewhere; programs loaded and loading. -/
abbrev dowelS (o : DowelOp) : State := at_ 1 (r0.setDowel 0 { r0.dowelOf 0 with q := [o] })
theorem witness_dowel : r0.dowelHead 0 = none ∧ (dowelS ⟨{ pkZero with op := 3 }, [], none, 0, 0⟩).dowelHead 0 = some ⟨{ pkZero with op := 3 }, [], none, 0, 0⟩ ∧
    (dowelS ⟨{ pkZero with op := 4 }, [], some (0, 1), 0, 0⟩).dowelHead 0 = some ⟨{ pkZero with op := 4 }, [], some (0, 1), 0, 0⟩ ∧ r0.homeOk 0 0 = false ∧
    homeS.homeOk 0 0 = true ∧ (r0.gctx 0).hload = none ∧ ((inGctx (fun g => { g with hload := some ⟨0, 0, 0, []⟩ })).gctx 0).hload = some ⟨0, 0, 0, []⟩ ∧
    Map.get [] ((inGctx (fun g => { g with prog := [(0, [hfail0])] })).gctx 0).prog 0 ≠ [] ∧ hdefined hfail0.toNat = true := by
  and_intros <;> first | decide +kernel | rfl

/-- Links: one that is absent, one that runs with a spare wavelength in each fibre, without, with its last lane, with none; spare fibres. -/
abbrev linkS (gl : Bool) (l : Link) : Link := (r0.setLinkOf gl 0 l).linkOf gl 0
theorem witness_links : (linkS true ⟨0, ⟨0, 0⟩, ⟨0, 0⟩, false, 3⟩).st = 3 ∧ linkS true ⟨0, ⟨32, 2⟩, ⟨32, 2⟩, false, 1⟩ = ⟨0, ⟨32, 2⟩, ⟨32, 2⟩, false, 1⟩ ∧
    (linkS true ⟨0, ⟨31, 0⟩, ⟨32, 2⟩, false, 2⟩).tx.sp = 0 ∧ (linkS false ⟨0, ⟨1, 0⟩, ⟨16, 1⟩, false, 2⟩).tx.n = 1 ∧
    (linkS false ⟨0, ⟨0, 0⟩, ⟨16, 1⟩, false, 0⟩).tx.n = 0 ∧ 0 < r0.fab.spf ∧ (inFab (fun f => { f with spf := 0 })).fab.spf = 0 := by
  and_intros <;> first | decide +kernel | rfl

/-- R439: a fibre without spares loses a wavelength, its other direction stands; WL shows the weaker one (R440). -/
theorem test_lane_lost : after (exec (.laneSwap true 0 (.lane true)) (r0.setLinkOf true 0 ⟨0, ⟨32, 2⟩, ⟨32, 0⟩, false, 1⟩)) (fun t => (t.linkOf true 0).rx.n) = some 31 ∧
    after (exec (.laneSwap true 0 (.lane true)) (r0.setLinkOf true 0 ⟨0, ⟨32, 2⟩, ⟨32, 0⟩, false, 1⟩)) (fun t => ((t.linkOf true 0).tx.n, (t.linkOf true 0).st)) = some (32, 2) := by
  decide +kernel

/-- Votes and decisions: no rank; the root and a leaf of a domain of two; states 0, 2, 4, 5, 7; a child's vote; a closed step that is quiet. -/
theorem witness_votes : r0.domRank 0 = none ∧ (domain id).domRank 0 = some 0 ∧ (leafOf id).domRank 0 = some 1 ∧ ((domain id).gctx 0).root = 0 ∧
    ((domain id).gctx 0).children 0 = [1] ∧ ((leafOf id).gctx 0).children 1 = [] ∧ ((leafOf id).gctx 0).parent 1 = some 0 ∧ ((domain id).gctx 0).parent 0 = none ∧
    ((domain (fun g => { g with st := 4 })).gctx 0).st = 4 ∧ ((leafOf (fun g => { g with st := 4 })).gctx 0).voted = false ∧
    ((domain (fun g => { g with votes := [⟨1, 0, 1, 0, 1⟩] })).counted 0 0).length = 1 ∧ (domain id).counted 0 0 = [] ∧
    (inCtx (fun c => { c with step := { c.step with open_ := true, vf := 1 } })).gluState 0 = 2 ∧ r0.gluState 0 ≠ 2 ∧
    (0 : Nat) + 2 ^ 32 ≤ (at_ (2 ^ 32) r0).cyc ∧ ((domain id).gctx 0).nextRoot = 0 ∧ ((domain (fun g => { g with cut := true })).gctx 0).cut = true ∧
    (inCtx (fun c => { c with step := { c.step with open_ := true, closed := true } })).gluQuiet 0 = true ∧ r0.gluQuiet 0 = false := by
  and_intros <;> first | decide +kernel | rfl

/-- STATE 5 and its ways out; a domain that must halt; ranks heard of too long ago and not; a fill that is complete; a replay. -/
theorem witness_losses : ((domain (fun g => { g with st := 5 })).gctx 0).st = 5 ∧ r0.pkg.mo.await = none ∧
    (domain (fun g => { g with st := 6, lost := [1] })).mustHalt 0 = true ∧ (domain id).mustHalt 0 = false ∧
    ((domain (fun g => { g with st := 5 })).gctx 0).corrAbort = false ∧ bitsOf ((domain (fun g => { g with gdec := 2 ^ 16 })).gctx 0).gdec 16 1 = 1 ∧
    (1 : BitVec 12).toNat ∈ ((domain id).gctx 0).children 0 ∧ ((domain id).gctx 0).heardAt 1 + 2 ^ 20 ≤ (at_ (2 ^ 20) r0).cyc ∧
    (∀ x ∈ 0 :: ancestors 4 1, ((leafOf id).gctx 0).heardAt x + 2 ^ 20 ≤ (at_ (2 ^ 20) r0).cyc) ∧ r0.cyc < ((leafOf id).gctx 0).heardAt 0 + 2 ^ 20 ∧
    r0.fab.fills.find? (fun f => f.ctx == 0 && f.spare == r0.peer) = none ∧
    (inFab (fun f => { f with fills := [⟨1, 1, 7, 0, 0, 0⟩] })).fab.fills.find? (fun f => f.ctx == 1 && f.spare == r0.peer) = some ⟨1, 1, 7, 0, 0, 0⟩ ∧
    r0.fab.subs.length < 16 ∧ r0.fab.subs.any (fun x => x.old == 7) = false ∧ r0.pkg.mo.ctx ≠ 1 ∧ r0.pkg.dv.ctx ≠ 1 ∧ r0.framesOf 1 true = [] ∧ r0.framesOf 1 false = [] ∧ r0.source 0 = none ∧
    ((inGctx (fun g => { g with scrcfg := 2 * 2 ^ 8 + 8 })).source 0).isSome = true := by
  and_intros <;> first | decide +kernel | rfl

/-- The first word of the example of 03 at the place where a step fetches, in the rotation and in a turn of the agenda. -/
abbrev placed : State := State.withFetchWord State.reset 32 0x04481FFF
theorem witness_step : placed.agenda = [] ∧ placed.rota = clCode .s ∧ (State.mayIssue { placed with rota := 1 } = true) ∧
    State.reportDue { placed with rota := 1 } = false ∧ State.canTry { placed with rota := 1 } .s = true ∧
    gives (State.fetch { placed with rota := 1 } .s) (0x04481FFF, 0) = true ∧ State.syncBit { placed with rota := 1 } .s 0x04481FFF = false ∧
    decodeWord .s 0x04481FFF 0 = some ⟨false, .addi 9 0 0x1FFF⟩ ∧ decodeWord .s 0 0 = none ∧
    (State.focus { placed with agenda := [] } 0).canTry .s = true := by
  and_intros <;> decide +kernel

/-- A slot word that is well-formed with the sync bit it has, in one word and in two. -/
theorem witness_encode : (⟨true, .sQpush 1 9⟩ : SlotWord).i.wf = true ∧ (⟨true, .sQpush 1 9⟩ : SlotWord).i.syncOk true = true ∧
    (⟨true, .sQpush 1 9⟩ : SlotWord).i.cl = some .s ∧ (⟨false, .eng 0 1 2⟩ : SlotWord).i.words = 2 ∧ (⟨false, .eng 0 1 2⟩ : SlotWord).i.wf = true := by
  and_intros <;> decide +kernel

/-! ## The spec's examples, step by step -/

/-- 03, prefix XOR: addi g9, g0, -1, as a step from reset. -/
theorem test_step_addi : after (step placed) (fun t => ((t.core.g[9]).v, t.core.res)) = some (BitVec.allOnes 64, .issued) := by
  decide +kernel

/-- 03, prefix XOR: the two blocks. -/
theorem test_clmul : BitVec.ofNat 64 (clmulNat 0x1000000000000210 (2 ^ 64 - 1)) = (0xF0000000000001F0 : W64) ∧
    BitVec.ofNat 64 (clmulNat 8 (2 ^ 64 - 1)) = (0xFFFFFFFFFFFFFFF8 : W64) ∧ popNat 0xF0000000000001F0 64 = 9 := by decide +kernel
theorem test_popc : after (exec (.popc 14 11) (withG 11 0xF0000000000001F0 false)) (fun t => (t.core.g[14]).v) = some 9 := by decide +kernel

/-- 02, one rounding per group: eight groups of sixteen products of 2^-12 and 2^-13 on 1.0. -/
theorem test_groups : accGroups false false 16 128 (fun _ => prodOf ⟨decodeF bf16 0x3980, .fin false 1 0⟩ ⟨decodeF bf16 0x3900, .fin false 1 0⟩) (groupStarts 16 128) 0x3F800000 {} =
    (0x3F800020, {}) := by decide +kernel

/-- 13, the bound grid: the pieces of the groups of three that fall to cluster 0, and the entries of its core 3. -/
theorem test_bound_grid : groupCount 30 3 0 2 = 15 ∧ (List.range 15).map (groupPiece 3 0 2) = [0, 1, 2, 6, 7, 8, 12, 13, 14, 18, 19, 20, 24, 25, 26] ∧
    (3 * 15 / 8, 4 * 15 / 8) = (5, 7) := by decide +kernel

/-- 16, one line through an abort and a retry: the leaf that a read returns, for G, T, DEAD and the two tags of each row. -/
abbrev lineS (g t : BitVec 16) (dead : Map (Option Nat)) (l0 l1 : BitVec 16) : State :=
  { inCtx (fun c => { c with step := { c.step with g := g, t := t }, dead := dead }) with leafTag := [(0, l0), (1, l1)] }
theorem test_leaves : (lineS 6 7 [] 6 3).readLeaf 0 0 = 0 ∧ (lineS 6 7 [] 6 7).readLeaf 0 0 = 1 ∧ (lineS 6 8 [(7, some 0)] 6 7).readLeaf 0 0 = 0 ∧
    (lineS 6 8 [(7, some 0)] 6 8).readLeaf 0 0 = 1 ∧ (lineS 8 9 [(7, some 0)] 6 8).readLeaf 0 0 = 1 ∧ (lineS 8 9 [] 0x8008 8).readLeaf 0 0 = 1 := by
  decide +kernel

/-- Words that write a register that discards writes, a divisor of zero, a stall, a trap without a handler. -/
theorem test_g0 : after (exec (.addi 0 0 5) r0) (fun t => (t.core.g[0]).v) = some 0 := by decide +kernel
theorem test_divz : after (exec (.divz 3 1 2) (withG 1 7 false)) (fun t => (t.core.g[3]).v) = some (BitVec.allOnes 64) := by decide +kernel
theorem test_qpop_stalls : after (exec (.sQpop 3 0) (active .a)) (fun t => t.core.res) = some (.stalled true 0) := by decide +kernel
theorem test_trap_ends : after (exec (.trap 5) (onP (fun p => { p with run := true }))) (fun t => (t.core.pc.run, t.core.res)) =
    some (false, .trapped ⟨.softwareTrap, 5, 0⟩) := by decide +kernel

/-- 08 R247: two entries on GA's stack and one on ML's. -/
theorem test_engsp : ((onC (fun c => c.setStack .ga [⟨5, .plain⟩, ⟨6, .plain⟩])).core.setStack .ml [⟨1, .plain⟩]).depths = 0x201 ∧
    csrAccess 0x086 = some false := by decide +kernel

/-- A ring with one descriptor at 0: a buffer of 64 bytes at 4096; a frame of sixty bytes without a tag goes there (18 R428, R430, R431). -/
abbrev rxS : State := { ((ethS 4 { ring0 with tail := 1 }).setCtx 0
  { r0.ctx 0 with pages := [⟨0, 16, 0, true, true, true, false, false, true⟩] }) with mem := [(1, 0x10), (8, 64)] }
abbrev head12 : BitVec 96 := 7
abbrev body : Bytes := bytesLE 12 head12.toNat ++ List.replicate 48 7
theorem witness_frame : body.length = 60 ∧ (frameFcs body).length = 4 ∧ framePrio body = 0 ∧ frameFcs body ≠ [0, 0, 0, 0] ∧ rxS.rxRing 0 0 = some 4 ∧
    (rxS.ring 4).ready ≠ 0 ∧ (rxS.ring 4).descVa 0 = 0 ∧
    (rxS.ring 4).rx = none ∧
    gives ((rxS.readDesc 4 0).map (fun x => (natLE (x.take 7), natLE ((x.drop 8).take 4)))) (4096, 64) = true ∧
    (rxS.unitPut unitRight (rxS.ringAuth (rxS.ring 4)) 4096 body true [] (whoRingW 4)).2 = none ∧ rxS.farOpen (whoRingW 4) = false ∧
    ((rxS.unitPut unitRight (rxS.ringAuth (rxS.ring 4)) 4096 body true [] (whoRingW 4)).1.unitPut unitRight (rxS.ringAuth (rxS.ring 4)) 12
      [60, 0, 0, 0, 1, 0] true [] (whoRingW 4)).2 = none := by
  and_intros <;> first | decide +kernel | rfl
theorem test_frame : after (exec (.ethRxFrame 0 head12 (List.replicate 48 7) (frameFcs body)) rxS) (fun t => (readBytes t.mem 4155 2, readBytes t.mem 12 5, (t.ring 4).head)) =
    some ([7, 0], [60, 0, 0, 0, 1], 1) := by decide +kernel

/-- The same ring with its buffer on another peer: the frame waits for the answers, and a refused write stops the ring (18 R432, 19 R441). -/
abbrev rxFar : State := ((rxS.setFab { rxS.fab with groups := 1, members := 2 }).setCtx 0
  { r0.ctx 0 with pages := [⟨0, 12, 0, true, true, true, false, false, true⟩, ⟨4096, 12, 2 ^ 45, true, true, true, false, false, true⟩] })
theorem witness_frame_away : (rxFar.unitPut unitRight (rxFar.ringAuth (rxFar.ring 4)) 4096 body true [] (whoRingW 4)).2 = none ∧
    (rxFar.unitPut unitRight (rxFar.ringAuth (rxFar.ring 4)) 4096 body true [] (whoRingW 4)).1.farOpen (whoRingW 4) = true ∧
    ((rxFar.setRing 4 { rxFar.ring 4 with rx := some ⟨60, 0, 0, false⟩ }).ring 4).rx.isSome = true ∧
    (rxFar.gotSector ⟨whoRingW 4, 0, [], false, 0, some ⟨.accessFault, 0, 0⟩⟩).farRefused (whoRingW 4) = true := by
  and_intros <;> decide +kernel
theorem test_frame_away : after (exec (.ethRxFrame 0 head12 (List.replicate 48 7) (frameFcs body)) rxFar) (fun t => ((t.ring 4).head, (t.ring 4).rx)) =
    some (0, some ⟨60, 0, 0x0, false⟩) := by decide +kernel
theorem test_frame_answered : ((rxFar.setRing 4 { rxFar.ring 4 with rx := some ⟨60, 0, 0, false⟩ }).ringAnswers 4).pkg.rings.map (fun e => (e.2.head, e.2.rx)) =
    [(1, none)] := by decide +kernel

/-- A ring whose only ready descriptor, one byte long, can be sent, and the frame of it, padded to sixty bytes (18 R431). -/
abbrev txS : State := { ((ethS 0 { ring0 with tail := 1 }).setCtx 0
  { r0.ctx 0 with pages := [⟨0, 16, 0, true, true, true, false, false, true⟩] }) with mem := [(1, 0x10), (8, 1), (12, 1), (4096, 9)] }
theorem witness_frame_sent : decide (txS.txTake 0 ≠ txS) = true ∧ ((txS.txTake 0).txBusy 0).map TxBusy.n = [1] ∧
    ((txS.txTake 0).txBusy 0).map (fun x => x.sent.map List.length) = [some 64] := by
  and_intros <;> decide +kernel

/-- The FCS of "123456789" is the standard's check value of CRC-32. -/
theorem test_fcs : frameFcs [0x31, 0x32, 0x33, 0x34, 0x35, 0x36, 0x37, 0x38, 0x39] = [0x26, 0x39, 0xF4, 0xCB] := by decide +kernel
/-- FIPS 180-4: the digest of "abc". -/
theorem test_sha256 : sha256 [0x61, 0x62, 0x63] =
    BitVec.ofNat 256 (natLE (bytesLE 32 0xba7816bf8f01cfea414140de5dae2223b00361a396177a9cb410ff61f20015ad).reverse) := by decide +kernel

/-- Branches of M with an entry in bq, and without one (07 R224). -/
theorem witness_branch_queue : (withQ 12 [1]).core.pc.rep = none ∧ passes ((withQ 12 [1]).peek 12 1) = true ∧ passes (r0.peek 12 1) = false := by
  and_intros <;> decide +kernel

/-- A ready launch of a higher level that has no free core, and the piece that may have to go for it (13 R351). -/
abbrev lrOn (pri : Nat) : LaunchRec := { lr0 with w3 := lr0.w3 + 2 ^ 18 + BitVec.ofNat 64 (pri * 2 ^ 22) + 2 ^ 30 + 2 ^ 34 }
abbrev comer : Launch := { ln0 with state := .ready, lr := lrOn 1, uid := 2 }
abbrev crowded : State := ((onP (fun p => { p with run := true, li := 1 })).setDie { r0.die with launches := [(0, some comer), (1, some { ln0 with taken := [0], lr := lrOn 0 })] }).setCtx 0
  { r0.ctx 0 with coreSet := 1 }
theorem witness_preemption : comer.waits = true ∧ crowded.launchCores comer.lr = [0] ∧ crowded.coreFree 0 = false ∧ crowded.core.leaving = false ∧
    (crowded.victims comer).map Prod.fst = [0] ∧ comer.lr.count - comer.taken.length + comer.again.length + comer.saved.length = 1 := by
  and_intros <;> first | decide +kernel | rfl
theorem test_preemption : after (exec (.preemption 0) crowded) (fun t => (t.core.pc.drained, t.core.newc)) = some (true, some 2) := by decide +kernel

/-- A page of another peer that is not versioned, and marked; pages of none; a page that is versioned already. -/
theorem witness_marking : (paged ⟨0, 16, 2 ^ 45, true, true, true, false, false, true⟩).remote (2 ^ 45) = true ∧
    ((paged ⟨0, 16, 2 ^ 45, true, true, true, false, false, true⟩).page 0 0).map Page.vers = some false ∧
    (paged ⟨0, 16, 2 ^ 45, true, true, true, false, false, true⟩).sharedRange 0 (2 ^ 45) (2 ^ 16) = false ∧
    ((paged ⟨0, 16, 0, true, true, true, true, false, true⟩).page 0 0).map Page.vers = some true := by
  and_intros <;> first | decide +kernel | rfl

/-- A drained core whose piece is in a step of context 0: nothing is decided (09 R293); a debugger may end the piece there, or under freeze. -/
abbrev drained : State := r0.setCore { r0.core with halt := .drain, pc := { r0.core.pc with run := true, stepIn := true } }
theorem witness_step_held : drained.stepHeld 0 = true ∧ r0.stepHeld 0 = false ∧ dwAllowed (.stop 0) .drain = true ∧ dwAllowed (.stop 0) .freeze = true ∧
    dwAllowed (.greg 0 1 5) .freeze = false := by
  and_intros <;> decide +kernel

/-- A load behind an atomic of the same peer and context at its bytes that waits at its engine, and one elsewhere (14 R361). -/
abbrev waiting8 : State := dowelS ⟨{ pkZero with op := 3, sub := 3 }, [], none, 0, 0⟩
theorem witness_behind : waiting8.behindDowel { pkZero with op := 1, sub := 7 } = true ∧ waiting8.behindDowel { pkZero with op := 1, sub := 7, addr := 64 } = false ∧
    r0.behindDowel { pkZero with op := 1, sub := 7 } = false := by
  and_intros <;> decide +kernel

/-! ## Further witnesses: hypotheses of the parts that order, hold back and repeat -/

/-- The check waits. -/
abbrev waits {α : Type} (x : Chk α) : Bool :=
  match x with
  | .error .wait => true
  | _ => false
/-- The check asks another peer. -/
abbrev asks {α : Type} (x : Chk α) : Bool :=
  match x with
  | .error (.ask _ _) => true
  | _ => false
/-- The queue stalls. -/
abbrev stalls {α : Type} (x : Chk α) : Bool :=
  match x with
  | .error (.queue _) => true
  | _ => false

/-- A full fq and a full q1 for A; a barrier whose round has failed; a barrier whose turn is over and one whose turn has come. -/
theorem witness_waiting_words : stalls ((at_ 1 (onC (fun c => { c.setQ 8 ⟨List.replicate 64 ⟨⟨0, false⟩, true, 0, 0, 0⟩, 0, 0, 0, 0⟩ with cm := { c.cm with act := true } }))).room 8) = true ∧
    (onP (fun p => { p with bar := some ⟨0, 1, 0, 0, false, true⟩ })).arrived 1 0 = some ⟨0, 1, 0, 0, false, true⟩ ∧
    r0.mayGo (resBar (r0.barKey 1 0)) 0 = true ∧ (r0.went (resBar (r0.barKey 1 0)) 3).mayGo (resBar (r0.barKey 1 0)) 0 = false ∧
    (onP (fun p => { p with waitl := some 5 })).core.pc.waitl.isSome = true := by
  and_intros <;> first | decide +kernel | rfl

/-- LDC from core scratch that a store before it covers (06 R195). -/
abbrev scrS : State := onC (fun c => { c with pc := { c.pc with l1cfg := 1 }, pend := [r0.newAcc 0 ⟨.scr 64, false⟩ 16 (.store (List.replicate 16 5) false) (capT 2 3 64)] })
theorem witness_forwarded_capability : scrS.mayPerform (({ scrS with nextId := 2 } : State).newAcc 0 ⟨.scr 64, false⟩ 16 (.loadCap 2 false) (capT 2 3 64)) = false ∧
    (scrS.forwarded (({ scrS with nextId := 2 } : State).newAcc 0 ⟨.scr 64, false⟩ 16 (.loadCap 2 false) (capT 2 3 64)) 0 16) = some (List.replicate 16 5, false) := by
  and_intros <;> decide +kernel
theorem test_forwarded_capability : after (exec (.ldc 2 1 0 0) (({ scrS with nextId := 2 } : State).setCore { scrS.core with a := scrS.core.a.set 1 ⟨capT 2 3 64, false, 0⟩ }))
    (fun t => ((t.core.a[2]).c.tag, (t.core.a[2]).c.bits.toNat % 2 ^ 16)) = some (false, 0x0505) := by decide +kernel

/-- BANKSETs of two cores in one cycle, and a switch that runs (04 R140). -/
theorem witness_bank_order : ((0 : Nat) < (at_ 1 r0).cyc ∨ 0 ≤ r0.k) ∧ r0.cyc ≤ 0 ∧ r0.k < 5 ∧ (r0.bank 0 0).mode ≠ 3 := by decide
theorem test_bank_order : after (exec (.bankset 1 1 0) ((withA 1 (capT 1 1024 0)).setBank 0 0 ⟨0, none, [(2, 0, 5)], 0, 0⟩)) (fun t => (t.bank 0 0).wait) =
    some [(1, 0, 0), (2, 0, 5)] := by decide +kernel

/-- A promise copy of MS behind one of ML that may start in the cycle (06 R200). -/
abbrev opMs : Op := { op0 with id := 2, eng := .ms, word := 0x5100, args := [⟨0, .cap (capT 3 3 0)⟩, ⟨1, .slot⟩, ⟨64, .plain⟩] }
abbrev bothS : State := onC (fun c => { (c.setEngineQueue .ms [opMs]).setEngineQueue .ml [op0] with pc := { c.pc with run := true } })
theorem witness_ml_first : Claims.nextCopy bothS .ms = some opMs ∧ Claims.copyMayStart bothS .ms opMs = true ∧ opMs.geo.inCluster = false ∧ opMs.stop = false ∧
    bothS.core.ownsOp opMs = true ∧ Claims.nextCopy bothS .ml = some op0 ∧ Claims.copyMayStart bothS .ml op0 = true ∧
    (active .a).core.ca.act = true ∧ (active .a).core.ca.start ≤ (active .a).cyc := by
  and_intros <;> first | decide +kernel | rfl

/-- A chunk that is due, and one that is not (06 R198); an EPIR that has no row left (07 R232). -/
theorem witness_due : Claims.chunkDue (at_ 25 r0) .ml { copy0 with incl := true } = true ∧ Claims.chunkDue (at_ 24 r0) .ml { copy0 with incl := true } = false ∧
    (0 : Nat) + 63 ≤ (at_ 63 r0).cyc ∧ (at_ 62 r0).cyc < 0 + 63 := by decide +kernel

/-- A terminated context; a watchdog that has been reported; clusters with a spare core and without one; a deadlock. -/
theorem witness_ends : (onP (fun p => { p with reports := [⟨⟨.contextTerminated, 0, 0⟩, false⟩] })).endsNow = true ∧ r0.endsNow = false ∧
    (∃ r ∈ (onP (fun p => { p with reports := [⟨⟨.watchdog, 0, 0⟩, false⟩] })).core.pc.reports, r.trap.cause = .watchdog) ∧ r0.spareUsed 0 = false ∧
    (inPkg (fun p => { p with noSpare := 1 })).spareUsed 0 = true ∧ (0 : Nat) + 2 ^ 20 ≤ (at_ (2 ^ 20) r0).cyc := by
  refine ⟨?_, ?_, ⟨_, List.mem_cons_self, rfl⟩, ?_, ?_, ?_⟩ <;> decide +kernel

/-- A frame beside frame 0 in its stack, and none; no page in transit. -/
theorem witness_beside : (inPkg (fun p => { p with inst := 24 })).frameBeside 0 = some 12 ∧ r0.frameBeside 0 = none ∧ Map.get none r0.frames 0 = none ∧
    r0.ctxs.any (fun e => e.2.pages.any Page.transit) = false := by
  and_intros <;> decide +kernel

/-- What has to be asked of other peers: a launch record, a log, a fill table; and what is here. -/
abbrev farS : State := (paged ⟨0, 16, 2 ^ 45, true, true, true, false, false, true⟩).setFab { r0.fab with groups := 1, members := 2 }
theorem witness_far : asks (farS.readRecord 0 0 0 0 0) = true ∧ waits ((paged ⟨0, 16, 0, true, true, true, false, true, true⟩).readRecord 0 0 0 0 0) = true ∧
    (farS.tableAway 0).isSome = true ∧ (paged ⟨0, 16, 0, true, true, true, false, false, true⟩).tableAway 0 = none ∧ r0.tableAway 0 = none ∧ r0.logAway 0 = false ∧
    ((farS.setGctx 0 { farS.gctx 0 with scrcfg := 2 * 2 ^ 8 + 8, scrh := 0, scrw := 64 }).logAway 0) = true := by
  and_intros <;> decide +kernel

/-- A record of step 0 that can be restored: its CRC covers zeros, its cursor region is empty (16 R391). -/
abbrev recS : State := { inCtx (fun c => { c with pages := [⟨0, 16, 0, true, true, true, false, false, true⟩] }) with
  mem := writeBytes [] 0x3C (bytesLE 4 (crc32c (List.replicate 60 0)).toNat) }
theorem witness_restore : passes (recS.restore 0 0) = true ∧ waits ((recS.setCtx 0 { recS.ctx 0 with pages := [⟨0, 16, 0, true, true, true, false, true, true⟩] }).restore 0 0) = true ∧
    (match recS.restore 0 64 with | .error (.trap _) => true | _ => false) = true := by
  and_intros <;> decide +kernel

/-- Requests: the owner with no request, one that runs; the images of a boot; a debugger's halt; heat. -/
abbrev good : Image := ⟨true, true, true, 1, 5⟩
theorem witness_requests : (inPkg (fun p => { p with owner := 3 })).pkg.req = none ∧ (inPkg (fun p => { p with req := some (3, 6) })).pkg.req.isSome = true ∧
    imageWhy good true = 0 ∧ imageWhy { good with sigValid := false } true = 1 ∧ imageWhy { good with keyFound := false } true = 4 ∧ imageWhy { good with present := false } false = 3 ∧
    bootWord 1 0 0 ≠ bootWord 0 0 0 ∧ (0 : W32).toNat ≤ good.ver.toNat ∧ good.ver.toNat < (2 : W32).toNat ∧ (17 : BitVec 8).toNat > 16 ∧ r0.pkg.own = [] ∧
    (424 : BitVec 16).toNat < 4 * 115 ∧ 4 * 105 < (424 : BitVec 16).toNat ∧ 4 * 115 ≤ (460 : BitVec 16).toNat := by
  and_intros <;> first | decide +kernel | rfl
theorem test_claims : after (exec (.claim 16) r0) (fun t => after (exec (.claim 3) t) (fun u => u.pkg.owner)) = some (some 3) := by decide +kernel

/-- The Mortise: operations of cores that go ahead, a scan under way whose page is in transit or not; the Dovetail: what holds an entry back. -/
abbrev scanS (tr : Bool) : State := ((moS { ep0 with st := .complete }).setMo { (moS { ep0 with st := .complete }).pkg.mo with scan := some ⟨0, [(0, 0)], false⟩ }).setCtx 0
  { r0.ctx 0 with pages := [⟨0, 16, 0, true, true, true, false, tr, true⟩] }
theorem witness_scans : r0.moNext = none ∧ (scanS true).unitStalls unitRight (scanS true).moAuth ep0.advp 8 = true ∧
    (scanS false).unitStalls unitRight (scanS false).moAuth ep0.advp 8 = false ∧ ((scanS false).moWrite ep0.advp [0, 0, 0, 0, 0, 0, 0, 0]).2 = none ∧
    Map.get none (scanS true).pkg.mo.table 0 = some { ep0 with st := .complete } := by
  and_intros <;> first | decide +kernel | rfl
theorem witness_entries : (dvS id).doveSettle.doveBlock 1 ≠ .overflow ∧ (dvS id).doveSettle.doveBlock 1 = .none ∧ (dvS id).doveSettle.doveBlock 0 = .overflow ∧ (dvS (fun d => { d with fired := some 0 })).doveOwed.doveSettle.pkg.dv.fired.isSome = true ∧
    (dvS (fun d => { d with fired := some 0 })).doveOwed.doveSettle.doveBlock 1 ≠ .overflow ∧
    (dvS id).doveSettle.doveBlock (1 + 2 ^ 96) = .input ∧ (dvS (fun d => { d with ina := true })).doveIn 0 = true ∧ r0.doveIn 0 = false ∧
    (dvS (fun d => { d with pos := 1, slots := [(0, 1)] })).doveSettle.pkg.dv.slots ≠ [] := by
  and_intros <;> first | decide +kernel | rfl

/-- The Mortise with its arrays on another peer: a reward and a scan ask for what they read; with it the reward is taken (17 R393, 19 R441). -/
abbrev moFarS (e : Episode) : State := ((moS e).setFab { r0.fab with groups := 1, members := 2 }).setCtx 0
  { r0.ctx 0 with pages := [⟨0, 16, 2 ^ 45, true, true, true, false, false, true⟩] }
theorem witness_away : ((moFarS ep0).reward ⟨7, 1, 5, false⟩).isNone = true ∧ asks ((moFarS ep0).planeIn ep0) = true ∧
    (match (moFarS ep0).moBitAt ep0.rbmp 1 with | .error (.ask _ _) => true | _ => false) = true := by
  and_intros <;> decide +kernel
theorem test_reward_asks : after (exec (.rewardArrival 7 1 5 false) (moFarS ep0)) (fun t => (t.fab.req.length, t.asking (.sector whoMo (2 ^ 40 + 256)))) =
    some (1, true) := by decide +kernel
abbrev moGot : State := ((moFarS ep0).gotSector ⟨whoMo, 2 ^ 40 + 256, List.replicate 32 0, false, 0, none⟩).gotSector ⟨whoMo, 2 ^ 40 + 272, List.replicate 32 0, false, 0, none⟩
theorem test_reward_away : after (exec (.rewardArrival 7 1 5 false) moGot) (fun t => (t.fab.req.length, t.fab.got.length, (t.pkg.mo.find 7).map (fun e => e.2.nrec))) =
    some (3, 0, some 1) := by decide +kernel

/-- Collectives: one that may read its chunk, an answer for none; planes of a send that may go; a held first plane. -/
abbrev tile0 (t next : Nat) : VnTile := ⟨t, 0, 0, [1], false, next, [⟨1, 8, 0⟩]⟩
theorem witness_sends : (⟨1, coll0.op, none, true, 1, 1, [tile0 0 0, tile0 1 0], 0, 0, false⟩ : VnSend).mayGo (tile0 0 0) = true ∧
    (⟨1, coll0.op, none, true, 1, 1, [tile0 0 0, tile0 1 0], 0, 0, false⟩ : VnSend).mayGo (tile0 1 0) = false ∧
    (⟨1, coll0.op, none, true, 1, 1, [tile0 0 0, tile0 1 2], 0, 0, false⟩ : VnSend).mayGo (tile0 1 2) = true ∧ r0.planeTo (tile0 0 0) ≠ [] ∧
    r0.fab.got.filter (fun g => g.who == whoColl 1) = [] := by
  and_intros <;> first | decide +kernel | rfl

/-- Multicast: a copy that is to be passed on finds room or none (19 R447). -/
abbrev pkMc : Packet := { pkZero with op := 1, mc := [(1, 0), (2, 0)] }
theorem pkMc_away : pkMc.mc.all (fun x => x.1 != r0.peer) = true := by decide +kernel
theorem witness_multicast : (r0.replicate (r0.mcOnward pkMc)).isSome = true ∧ pkMc.mc ≠ [] ∧ (∀ x ∈ pkMc.mc, x.1 ≠ r0.peer) ∧
    (inFab (fun f => { f with mcBuf := [⟨8192, [pkZero]⟩] })).replicate (r0.mcOnward pkMc) = none ∧ Claims.sound r0 (pkSeal pkMc) := by
  refine ⟨?_, ?_, fun x hx => bne_iff_ne.mp (List.all_eq_true.mp pkMc_away x hx), ?_, ⟨?_, ?_, ?_, ?_⟩⟩ <;> first | decide +kernel | rfl

/-- Votes and losses: a veto that is due, a vote for another step, poisoned set leaves, a hold of 2^26 cycles, an answer that comes too late. -/
theorem witness_late : ((leafOf (fun g => { g with vfAt := 1 })).gctx 0).vfAt ≠ 0 ∧ ((leafOf (fun g => { g with vfAt := 1 })).gctx 0).vfAt + 63 ≤ (at_ 64 r0).cyc ∧
    ((domain (fun g => { g with votes := [⟨1, 9, 1, 0, 1⟩] })).setCtx 0 { r0.ctx 0 with step := { (r0.ctx 0).step with open_ := true } }).badVote 0 1 = true ∧ (domain id).badVote 0 1 = false ∧
    r0.poisonedLeaves 0 = [] ∧ ({ versS with pois := [(0, true), (2048, true)] } : State).poisonedLeaves 0 ≠ [] ∧
    Map.get 0 ((inGctx (fun g => { g with sheld := [(257, 1)] })).gctx 0).sheld ((1 : BitVec 8).toNat * 256 + (1 : BitVec 8).toNat) = 1 ∧
    (1 : Nat) + 2 ^ 26 ≤ (at_ (2 ^ 26) r0).cyc + 1 ∧ (at_ (2 ^ 26 - 1) r0).cyc + 1 < 1 + 2 ^ 26 ∧ (0 : Nat) + 2 ^ 22 ≤ (at_ (2 ^ 22) r0).cyc := by
  and_intros <;> first | decide +kernel | rfl

end Sys2Proof.Tests
end

section
/-! Stores and loads (00 R2, 04 R114, R126): what the tables of bytes, tags and poison answer after a store, and their canonical form. -/
namespace Sys2Proof.Machine

/-! ## Folds over a sparse table -/

/-- A table in which every key of a list is set to one value. -/
theorem Map.get_foldl_set {α : Type} [DecidableEq α] (d v : α) (l : List Nat) (t : Map α) (j : Nat) :
    Map.get d (l.foldl (fun t x => Map.set d t x v) t) j = if j ∈ l then v else Map.get d t j := by
  induction l generalizing t with
  | nil => simp
  | cons x r ih =>
    rw [List.foldl_cons, ih]
    by_cases hr : j ∈ r
    · simp [hr]
    · by_cases hx : j = x <;> simp [hr, hx]

/-- Updates that each touch their own key leave the keys outside the list alone. -/
theorem Map.get_foldl_of_notMem {α : Type} (d : α) (f : Map α → Nat → Map α)
    (hf : ∀ t x j, j ≠ x → Map.get d (f t x) j = Map.get d t j) {l : List Nat} (t : Map α) {j : Nat} (hj : j ∉ l) :
    Map.get d (l.foldl f t) j = Map.get d t j := by
  induction l generalizing t with
  | nil => rfl
  | cons x r ih =>
    rw [List.mem_cons, not_or] at hj
    rw [List.foldl_cons, ih _ hj.2, hf t x j hj.1]

/-- Updates that each keep the canonical form keep it together. -/
theorem Map.wf_foldl {α : Type} [DecidableEq α] (d : α) (f : Map α → Nat → Map α)
    (hf : ∀ t x, Map.wf d t = true → Map.wf d (f t x) = true) (l : List Nat) {t : Map α} (h : Map.wf d t = true) :
    Map.wf d (l.foldl f t) = true :=
  List.foldlRecOn l f h fun t ht x _ => hf t x ht

/-! ## Tags and poison of a write (04 R114, R126) -/

/-- The granules of a write have no tag; the others keep theirs. -/
theorem get_clearTags (t : Map Bool) (k n g : Nat) :
    Map.get false (clearTags t k n) g = if g ∈ unitsOf 16 k n then false else Map.get false t g :=
  Map.get_foldl_set false false _ t g

theorem wf_clearTags {t : Map Bool} (k n : Nat) (h : Map.wf false t = true) : Map.wf false (clearTags t k n) = true :=
  Map.wf_foldl false _ (fun _ x ht => Map.wf_set x false ht) _ h

/-- The sectors that a write does not touch keep their poison. -/
theorem get_writePois_of_notMem (p : Map Bool) (k n : Nat) (bad : Bool) {u : Nat} (hu : u ∉ unitsOf 32 k n) :
    Map.get false (writePois p k n bad) u = Map.get false p u := by
  refine Map.get_foldl_of_notMem false _ (fun p x j hj => ?_) p hu
  split
  · exact Map.get_set_other false true p hj
  · split
    · exact Map.get_set_other false false p hj
    · rfl

theorem wf_writePois {p : Map Bool} (k n : Nat) (bad : Bool) (h : Map.wf false p = true) :
    Map.wf false (writePois p k n bad) = true := by
  refine Map.wf_foldl false _ (fun p x hp => ?_) _ h
  split
  · exact Map.wf_set x true hp
  · split
    · exact Map.wf_set x false hp
    · exact hp

/-! ## A store of plain data -/

@[simp] theorem State.store_mem (s : State) (k : Nat) (bs : Bytes) (bad : Bool) :
    (s.store k bs bad).mem = writeBytes s.mem k bs := rfl
@[simp] theorem State.store_tags (s : State) (k : Nat) (bs : Bytes) (bad : Bool) :
    (s.store k bs bad).tags = clearTags s.tags k bs.length := rfl
@[simp] theorem State.store_pois (s : State) (k : Nat) (bs : Bytes) (bad : Bool) :
    (s.store k bs bad).pois = writePois s.pois k bs.length bad := rfl

/-- The tag of a granule, by its number. -/
theorem State.tagAt_granule (s : State) (g : Nat) : s.tagAt (16 * g) = Map.get false s.tags g := by
  rw [State.tagAt, Nat.mul_div_cancel_left g (by decide)]

/-- The poison of a sector, by its number. -/
theorem State.poisAt_sector (s : State) (u : Nat) : s.poisAt (32 * u) = Map.get false s.pois u := by
  rw [State.poisAt, Nat.mul_div_cancel_left u (by decide)]

/-- Bytes written and read back from the same address on. -/
theorem readBytes_writeBytes (m : List Host.Cell) (k : Nat) (bs : Bytes) :
    readBytes (writeBytes m k bs) k bs.length = bs := by
  refine List.ext_getElem (by simp [readBytes]) fun i _ hi => ?_
  simpa [readBytes] using readByte_writeBytes_in m k i bs hi

theorem State.load_store (s : State) (k : Nat) (bs : Bytes) (bad : Bool) : (s.store k bs bad).load k bs.length = bs :=
  readBytes_writeBytes s.mem k bs

theorem State.tagAt_store (s : State) (k : Nat) (bs : Bytes) (bad : Bool) (g : Nat) :
    (s.store k bs bad).tagAt (16 * g) = if g ∈ unitsOf 16 k bs.length then false else s.tagAt (16 * g) := by
  rw [State.tagAt_granule, State.tagAt_granule, State.store_tags, get_clearTags]

theorem State.poisAt_store_of_notMem (s : State) (k : Nat) (bs : Bytes) (bad : Bool) {u : Nat}
    (hu : u ∉ unitsOf 32 k bs.length) : (s.store k bs bad).poisAt (32 * u) = s.poisAt (32 * u) := by
  rw [State.poisAt_sector, State.poisAt_sector, State.store_pois, get_writePois_of_notMem _ _ _ _ hu]

/-- A store keeps memory, tags and poison in canonical form. -/
theorem State.inv_store {s : State} (k : Nat) (bs : Bytes) (bad : Bool) (h : Safety.Inv s) :
    Safety.Inv (s.store k bs bad) := by
  obtain ⟨hmem, htags, hpois⟩ := h
  exact ⟨State.wf_store s k bs bad hmem, wf_clearTags k bs.length htags, wf_writePois k bs.length bad hpois⟩

/-- Settles O59: each table answers a store by its own law. -/
theorem storesAndLoads : Obligations.StoresAndLoads := by
  intro s k bs bad
  refine ⟨State.load_store s k bs bad, fun a ha => readByte_writeBytes_out s.mem k a bs ha, fun g => ⟨fun hg => ?_, fun hg => ?_⟩,
    fun u hu => State.poisAt_store_of_notMem s k bs bad hu, State.inv_store k bs bad⟩
  · rw [State.tagAt_store, if_pos hg]
  · rw [State.tagAt_store, if_neg hg]

end Sys2Proof.Machine
end

section
/-! Floating words of S (02 R54 to R61, 03 R78): what an FP form answers once its operands can be read, and which form each word is. -/
namespace Sys2Proof.Machine

/-- An FP form on two operands that can be read sets its flags, writes its result and ends the word. -/
theorem fpu2_of_gVal (f : W64 → W64 → W64 × Fl) (lat : Nat) {d a b : BitVec 5} {s : State} {x y : W64}
    (hx : s.gVal a 1 = .ok x) (hy : s.gVal b 2 = .ok y) :
    fpu2 f lat d a b s = .next (((s.flagS (f x y).2).putG d (f x y).1 lat).retire .s) := by
  simp only [fpu2, hx, hy, bind, Except.bind, word_ok]

/-- An FP form on one operand that can be read. -/
theorem fpu1_of_gVal (f : W64 → W64 × Fl) (lat : Nat) {d a : BitVec 5} {s : State} {x : W64} (hx : s.gVal a 1 = .ok x) :
    fpu1 f lat d a s = .next (((s.flagS (f x).2).putG d (f x).1 lat).retire .s) := by
  simp only [fpu1, hx, bind, Except.bind, word_ok]

/-- fma.f32 on operands that can be read, the old g[d] among them. -/
theorem execFmaF32_of_gVal {d a b : BitVec 5} {s : State} {x y z : W64} (hx : s.gVal a 1 = .ok x) (hy : s.gVal b 2 = .ok y)
    (hz : s.gVal d 3 = .ok z) :
    execFmaF32 d a b s = .next (((s.flagS (fFma x y z).2).putG d (fFma x y z).1 5).retire .s) := by
  simp only [execFmaF32, hx, hy, hz, bind, Except.bind, word_ok]

/-- Each FP32 word with two operands is the form of its function and latency. -/
theorem exec_fpu2Words (d a b : BitVec 5) (s : State) :
    ∀ e ∈ Claims.fpu2Words, exec (e.1 d a b) s = fpu2 e.2.1 e.2.2 d a b s := by
  simp only [Claims.fpu2Words, List.forall_mem_cons, List.not_mem_nil, false_implies, implies_true, and_true]
  and_intros <;> rfl

/-- Each FP32 word with one operand. -/
theorem exec_fpu1Words (d a : BitVec 5) (s : State) :
    ∀ e ∈ Claims.fpu1Words, exec (e.1 d a) s = fpu1 e.2.1 e.2.2 d a s := by
  simp only [Claims.fpu1Words, List.forall_mem_cons, List.not_mem_nil, false_implies, implies_true, and_true]
  and_intros <;> rfl

/-- Each conversion of S, under its rounding mode. -/
theorem exec_cvtSWords (d a : BitVec 5) (m : BitVec 3) (s : State) :
    ∀ e ∈ Claims.cvtSWords, exec (e.1 d a m) s = fpu1 (e.2 m) 5 d a s := by
  simp only [Claims.cvtSWords, List.forall_mem_cons, List.not_mem_nil, false_implies, implies_true, and_true]
  and_intros <;> rfl

/-- Settles O5: each word is a form on one, two or three operands. -/
theorem scalarFloatWords : Obligations.ScalarFloatWords := by
  intro d a b s x hx
  refine ⟨fun e he => ?_, fun e he m => ?_, fun y hy => ⟨fun e he => ?_, fun z hz => execFmaF32_of_gVal hx hy hz⟩⟩
  · rw [exec_fpu1Words d a s e he, fpu1_of_gVal _ _ hx]
  · rw [exec_cvtSWords d a m s e he, fpu1_of_gVal _ _ hx]
  · rw [exec_fpu2Words d a b s e he, fpu2_of_gVal _ _ hx hy]

end Sys2Proof.Machine
end

section
/-! Conversions and special functions of V (02 R60 to R62, 05 R164, R165, R171): the issue of a word of V that its stage predicate lets
work, what a conversion answers for a part that exists or does not, and which conversion each word is. -/
namespace Sys2Proof.Machine

/-! ## Issuing a word of V -/

/-- A word that its stage predicate lets work issues with its body under that predicate (R179). -/
theorem vword_of_stageOn {s : State} {pm : BitVec 256} (h : Claims.stageOn s pm) (body : BitVec 256 → Chk State) :
    vword s body = word .v s (body pm) := by
  rcases h with ⟨hp, rfl⟩ | ⟨hp, h0⟩
  · simp only [vword, vwordQ, hp, Except.bind]
  · simp only [vword, vwordQ, hp, if_neg h0, Except.bind]

/-- A word of V that reads VT first. -/
theorem vword_vtNow {s : State} {pm : BitVec 256} {vt : BitVec 16} (h : Claims.stageOn s pm) (hvt : s.vtNow = .ok vt)
    (body : BitVec 16 → BitVec 256 → Chk State) :
    vword s (fun pm => do let vt ← s.vtNow; body vt pm) = word .v s (body vt pm) := by
  rw [vword_of_stageOn h, hvt]
  rfl

/-- No active lane reads poison. -/
theorem anyPoison_eq_false {n : Nat} {on p : Nat → Bool} (h : ∀ j, j < n → on j = true → p j = false) :
    anyPoison n on p = false := by
  refine List.any_eq_false.2 fun j hj => ?_
  have hp := h j (List.mem_range.1 hj)
  cases ho : on j with
  | false => exact Bool.false_ne_true
  | true => rw [hp ho]; exact Bool.false_ne_true

/-! ## Conversions -/

section
variable {ws wd : Nat} {f : Nat → Nat → Nat × Fl} {draws : Bool} {d a : BitVec 6} {p : BitVec 4} {h : BitVec 3} {pm : BitVec 256}
  {s : State} {x : RowV}

/-- A conversion that names a part which does not exist is an Illegal Word (R164). -/
theorem convert_of_parts_le (hp : Claims.parts ws wd ≤ h.toNat) : convert ws wd f draws d a p h pm s = s.illegal .v :=
  if_pos hp

/-- A conversion of a part that exists, from clean elements. -/
theorem convert_of_lt_parts (hp : h.toNat < Claims.parts ws wd) (hx : s.vRead a 0 = .ok x) (hc : Claims.cvtClean ws wd p h pm x) :
    convert ws wd f draws d a p h pm s = .ok (Claims.cvtResult s ws wd f draws d p h pm x) := by
  have hpos (j : Nat) : (if rowCount wd < rowCount ws then h.toNat * rowCount wd + j
      else j - if rowCount ws < rowCount wd then h.toNat * rowCount ws else 0) = Claims.cvtPos ws wd h j := by
    unfold Claims.cvtPos
    exact congrArg (ite _ _) (apply_ite (j - ·) _ _ _)
  have hclean := anyPoison_eq_false hc
  unfold Claims.parts at hp
  simp only [convert, if_neg (Nat.not_le.2 hp), hx, bind, Except.bind, hpos]
  exact if_neg (Bool.eq_false_iff.1 hclean)

end

/-- Each conversion with a rounding mode is the conversion of its widths and its element function. -/
theorem exec_cvtVWords (d a : BitVec 6) (r : BitVec 3) (p : BitVec 4) (h : BitVec 3) (s : State) :
    ∀ e ∈ Claims.cvtVWords, exec (e.1 d a r p h) s = vword s (fun pm => do
      let vt ← s.vtNow
      convert (e.2.1 vt) (e.2.2.1 vt) (e.2.2.2 s vt r) (r == 4) d a p h pm s) := by
  simp only [Claims.cvtVWords, List.forall_mem_cons, List.not_mem_nil, false_implies, implies_true, and_true]
  and_intros <;> rfl

/-- Each conversion between integers. -/
theorem exec_cvtIWords (d a : BitVec 6) (p : BitVec 4) (h : BitVec 3) (s : State) :
    ∀ e ∈ Claims.cvtIWords, exec (e.1 d a p h) s = vword s (fun pm => do
      let vt ← s.vtNow
      convert (e.2.1 vt) (e.2.2.1 vt) (fun _ => e.2.2.2 vt) false d a p h pm s) := by
  simp only [Claims.cvtIWords, List.forall_mem_cons, List.not_mem_nil, false_implies, implies_true, and_true]
  and_intros <;> rfl

/-! ## Special functions -/

/-- Each special function is the word of its function on FP32 values. -/
theorem exec_sfWords (d a : BitVec 6) (p : BitVec 4) (k : BitVec 3) (s : State) :
    ∀ e ∈ Claims.sfWords, exec (e.1 d a p k) s = vsf e.2 d a p k s := by
  simp only [Claims.sfWords, List.forall_mem_cons, List.not_mem_nil, false_implies, implies_true, and_true]
  and_intros <;> rfl

/-- Settles O31: a conversion by whether its part exists, a special function by its clean lanes. -/
theorem vectorConversions : Obligations.VectorConversions := by
  intro s pm d a r p h k vt x hs hvt hx
  refine ⟨fun e he => ?_, fun e he => ?_, fun m hm e he => ?_⟩
  · rw [exec_cvtVWords d a r p h s e he, vword_vtNow hs hvt]
    exact ⟨fun hp => congrArg (word .v s) (convert_of_parts_le hp),
      fun hp hc => congrArg (word .v s) (convert_of_lt_parts hp hx hc)⟩
  · rw [exec_cvtIWords d a p h s e he, vword_vtNow hs hvt]
    exact ⟨fun hp => congrArg (word .v s) (convert_of_parts_le hp),
      fun hp hc => congrArg (word .v s) (convert_of_lt_parts hp hx hc)⟩
  · intro w g hc
    have hclean := anyPoison_eq_false hc
    rw [exec_sfWords d a p k s e he, vsf, vword_vtNow hs hvt, hx, hm]
    exact congrArg (word .v s) (if_neg (Bool.eq_false_iff.1 hclean))

end Sys2Proof.Machine
end

section
/-! Tiles and products (02 R67, R69, 07 R210, R217 to R223, R234): lanes of a packed row, rows replaced one after another, what an MMA
leaves of a core, and when TZERO, TMOV, MMA and MMAS issue, wait or trap. -/
namespace Sys2Proof.Machine

/-! ## Lanes of a packed row (05 R147) -/

/-- Packed lanes fit into their widths. -/
theorem packLanes_lt (w : Nat) (ls : List Nat) : packLanes w ls < 2 ^ (w * ls.length) := by
  induction ls with
  | nil => exact Nat.two_pow_pos _
  | cons x r ih =>
    have hx : x % 2 ^ w < 2 ^ w := Nat.mod_lt _ (Nat.two_pow_pos w)
    calc packLanes w (x :: r) < 2 ^ w + 2 ^ w * packLanes w r := Nat.add_lt_add_right hx _
      _ = 2 ^ w * (packLanes w r + 1) := by rw [Nat.mul_add, Nat.mul_one, Nat.add_comm]
      _ ≤ 2 ^ w * 2 ^ (w * r.length) := Nat.mul_le_mul_left _ ih
      _ = 2 ^ (w * (x :: r).length) := by rw [← Nat.pow_add, List.length_cons, Nat.mul_succ, Nat.add_comm]

/-- A packed lane read back. -/
theorem packLanes_div_mod (w : Nat) (ls : List Nat) (j : Nat) :
    packLanes w ls / 2 ^ (w * j) % 2 ^ w = ls.getD j 0 % 2 ^ w := by
  induction ls generalizing j with
  | nil => simp only [packLanes, Nat.zero_div, List.getD_nil]
  | cons x r ih =>
    have hw := Nat.two_pow_pos w
    cases j with
    | zero =>
      simp only [packLanes, Nat.mul_zero, Nat.pow_zero, Nat.div_one, Nat.add_mul_mod_self_left, Nat.mod_mod, List.getD_cons_zero]
    | succ j =>
      have hdiv : packLanes w (x :: r) / 2 ^ w = packLanes w r := by
        rw [packLanes, Nat.add_mul_div_left _ _ hw, Nat.div_eq_of_lt (Nat.mod_lt _ hw), Nat.zero_add]
      rw [Nat.mul_succ, Nat.add_comm, Nat.pow_add, ← Nat.div_div_eq_div_mul, hdiv, ih, List.getD_cons_succ]

/-- A lane of a row that a write merges into, where its lanes fill the row. -/
theorem lane_mergeRow {w n : Nat} (hn : w * n = 2048) (old : RowV) (on : Nat → Bool) (new : Nat → Nat) (np : Nat → Bool) {j : Nat}
    (hj : j < n) : lane w (mergeRow w n old on new np).bits j = if on j then new j % 2 ^ w else lane w old.bits j := by
  have hlow := packLanes_lt w ((List.range n).map (fun j => if on j then new j else lane w old.bits j))
  have hold : old.bits.toNat / 2 ^ (w * n) = 0 := Nat.div_eq_of_lt (by simpa only [hn] using old.bits.isLt)
  rw [List.length_map, List.length_range] at hlow
  simp only [mergeRow, hold, Nat.zero_mul, Nat.add_zero]
  rw [lane, BitVec.toNat_ofNat, ← hn, Nat.mod_eq_of_lt hlow, packLanes_div_mod]
  simp only [List.getD_eq_getElem?_getD, List.getElem?_map, List.getElem?_range hj, Option.map_some, Option.getD_some]
  split
  · rfl
  · exact Nat.mod_mod _ _

/-! ## Rows replaced -/

theorem Core.row_setRow (c : Core) (k : Nat) (x : Row) (r : Nat) : (c.setRow k x).row r = if r = k then x else c.row r := by
  split
  · next h => exact h ▸ Map.get_set_same rowZero x c.tiles k
  · next h => exact Map.get_set_other rowZero x c.tiles h

/-- `n` rows from `key` on replaced, the lowest first. -/
def Core.setRows (c : Core) (key n : Nat) (f : Nat → Row) : Core :=
  (List.range n).foldl (fun c i => c.setRow (key + i) (f i)) c

theorem Core.setRows_succ (c : Core) (key n : Nat) (f : Nat → Row) :
    c.setRows key (n + 1) f = (c.setRows key n f).setRow (key + n) (f n) := by
  rw [Core.setRows, List.range_succ, List.foldl_append]
  rfl

theorem Core.row_setRows (c : Core) (key n : Nat) (f : Nat → Row) (r : Nat) :
    (c.setRows key n f).row r = if key ≤ r ∧ r < key + n then f (r - key) else c.row r := by
  induction n with
  | zero => rw [if_neg (by omega)]; rfl
  | succ n ih =>
    rw [Core.setRows_succ, Core.row_setRow, ih]
    by_cases hr : r = key + n
    · rw [if_pos hr, if_pos (by omega), hr, Nat.add_sub_cancel_left]
    · rw [if_neg hr]
      have hiff : (key ≤ r ∧ r < key + n) ↔ (key ≤ r ∧ r < key + (n + 1)) := by omega
      simp only [hiff]

/-- Only the tiles change. -/
theorem Core.setRows_eq (c : Core) (key n : Nat) (f : Nat → Row) : c.setRows key n f = { c with tiles := (c.setRows key n f).tiles } := by
  induction n with
  | zero => rfl
  | succ n ih =>
    rw [Core.setRows_succ, Core.setRow, ih]

/-- The rows that TZERO and TMOV replace (R234). -/
theorem State.row_fillTile (s : State) (t : BitVec 2) (f : Nat → RowV) (r : Nat) :
    (s.fillTile t f).core.row r =
      if r / 64 = t.toNat then ⟨(f (r % 64)).bits, (f (r % 64)).p, 0⟩ else s.core.row r := by
  have hset : (s.fillTile t f).core = s.core.setRows (t.toNat * 64) 64 (fun i => ⟨(f i).bits, (f i).p, 0⟩) := rfl
  rw [hset, Core.row_setRows]
  by_cases hr : r / 64 = t.toNat
  · rw [if_pos hr, if_pos (by omega), show r - t.toNat * 64 = r % 64 by omega]
  · rw [if_neg hr, if_neg (by omega)]

/-- The core after an MMA: its rows, and the resources that it holds (R219, R220). -/
theorem State.mmaRun_core (s : State) (t : BitVec 2) (z : Bool) (o : MJob) :
    ∃ h, (s.mmaRun t z o).core =
      { s.core.setRows (t.toNat * 64) o.mr (fun i => (o.row s t z i).1) with array := s.cyc + o.l, hold := h } := by
  refine ⟨(s.mmaRun t z o).core.hold, ?_⟩
  simp only [State.mmaRun, State.holdTile, Core.setRows, List.foldl_map, State.setCore_core, State.setCore_cyc]

/-! ## Issuing words of M (07 R210, R224) -/

@[simp] theorem wordM_ok (s : State) (ia ib : BitVec 3) (t : State) : wordM s ia ib (.ok t) = .next (Claims.repeated t ia ib) := rfl
@[simp] theorem wordM_wait (s : State) (ia ib : BitVec 3) : wordM s ia ib (.error .wait) = .next (s.stalled false 0) := rfl
@[simp] theorem wordM_trap (s : State) (ia ib : BitVec 3) (x : Trap) :
    wordM s ia ib (.error (.trap x)) = .next (s.takeTrap .m x) := rfl
@[simp] theorem wordM_raise (s : State) (ia ib : BitVec 3) (c : Cause) (sub : Nat) (a : W64) :
    wordM s ia ib (raise c sub a) = .next (s.takeTrap .m ⟨c, BitVec.ofNat 16 sub, a⟩) := rfl

/-- Outside a repetition a word that REP may not repeat issues like any other. -/
theorem plainM_of_rep_none {s : State} (h : s.core.pc.rep = none) (r : Chk State) : plainM s r = word .m s r := by
  simp only [plainM, issueM, h, Option.isSome_none, Bool.false_eq_true, if_false, word]

/-- The wait for a tile, as the words of M ask for it. -/
theorem held_iff_not_tileFree (s : State) (t : BitVec 2) : (s.heldM t || s.heldE t) = true ↔ ¬Claims.tileFree s t := by
  rw [Claims.tileFree, ← Bool.or_eq_false_iff, Bool.not_eq_false]

/-! ## TZERO and TMOV -/

theorem exec_tzero {s : State} (h : s.core.pc.rep = none) (t : BitVec 2) :
    exec (.tzero t) s = if Claims.tileFree s t then .next (((s.fillTile t (fun _ => ⟨0, 0⟩)).holdTile t 16 18).retire .m)
      else .next (s.stalled false 0) := by
  show plainM s (if s.heldM t || s.heldE t then _ else _) = _
  simp only [plainM_of_rep_none h, held_iff_not_tileFree, ite_not, apply_ite (word .m s)]
  rfl

theorem exec_tmov {s : State} (h : s.core.pc.rep = none) (t u : BitVec 2) :
    exec (.tmov t u) s = if Claims.tileFree s t ∧ Claims.tileFree s u then
        .next ((((if t = u then s else s.fillTile t (fun r => s.mRow u r s.cyc)).holdTile t 32 34).holdTile u 32 32).retire .m)
      else .next (s.stalled false 0) := by
  show plainM s (if s.heldM t || s.heldE t || s.heldM u || s.heldE u then _ else _) = _
  have hw : (s.heldM t || s.heldE t || s.heldM u || s.heldE u) = true ↔ ¬(Claims.tileFree s t ∧ Claims.tileFree s u) := by
    rw [Bool.or_assoc, Bool.or_eq_true, held_iff_not_tileFree, held_iff_not_tileFree]
    exact Classical.not_and_iff_not_or_not.symm
  simp only [plainM_of_rep_none h, hw, ite_not, apply_ite (word .m s)]
  rfl

/-- TZERO and TMOV wait or fill their tile, row by row. -/
theorem tileWords : Claims.TileWords := by
  intro s t u h
  rw [exec_tzero h, exec_tmov h]
  exact ⟨fun hf => if_neg hf, fun hf => if_pos hf, fun hf => if_neg hf, fun ht hu => if_pos ⟨ht, hu⟩,
    fun f r _ => State.row_fillTile s t f r⟩

/-! ## MMA and MMAS -/

/-- The array or the tile is busy, as MMA and MMAS ask for it. -/
theorem busy_iff (s : State) (t : BitVec 2) :
    (decide (s.cyc < s.core.array) || s.heldM t || s.heldE t) = true ↔ s.cyc < s.core.array ∨ ¬Claims.tileFree s t := by
  rw [Bool.or_assoc, Bool.or_eq_true, held_iff_not_tileFree, decide_eq_true_eq]

section
variable {s : State} {a b oa ob : BitVec 4} {i j : BitVec 3} (ha : s.effSlot a i = .ok oa) (hb : s.effSlot b j = .ok ob)
  (t : BitVec 2) (z : Bool)
include ha hb

/-- An MMA whose slots are known waits for its resources and then takes its format word. -/
theorem exec_mma : exec (.mma t a b i j z) s =
    if s.cyc < s.core.array ∨ ¬Claims.tileFree s t then .next (s.stalled false 0)
    else wordM s i j (do
      let es ← s.peekFmt 1
      let o ← s.mmaChecks t oa ob z (Claims.frontFmt es)
      .ok ((s.popN 8 1).mmaRun t z o)) := by
  show execMma t a b i j z s = _
  simp only [execMma, ha, hb, bind, Except.bind, busy_iff, apply_ite (wordM s i j), wordM_wait]
  rfl

/-- An MMAS whose slots are known and whose entries are there goes by its stamp. -/
theorem exec_mmas {es : List (Ent PV)} (hes : s.peekFmt 2 = .ok es) : exec (.mmas t a b i j z) s =
    if (s.cyc : Int) < Claims.frontStamp es then .next (s.stalled false 0)
    else if Claims.frontStamp es < s.cyc then .next (s.takeTrap .m ⟨.scheduleMiss, 0, w64 (Claims.frontStamp es)⟩)
    else wordM s i j (do
      let o ← s.mmaChecks t oa ob z (Claims.frontFmt es)
      if s.cyc < s.core.array ∨ ¬Claims.tileFree s t ∨ (oa :: ob :: Claims.scaleSlots o).any s.pendingInto then
        raise .scheduleMiss 0 (w64 (Claims.frontStamp es))
      else .ok ((s.popN 8 2).mmaRun t z o)) := by
  show execMmas t a b i j z s = _
  simp only [execMmas, ha, hb, hes, bind, Except.bind, Bool.or_eq_true (decide _ || _ || _), busy_iff, or_assoc, apply_ite (wordM s i j),
    wordM_wait, wordM_raise]
  rfl

end

/-- The answers of MMA and MMAS, in the order of their checks. -/
theorem productWords : Claims.MatrixProducts := by
  intro s t a b i j z oa ob ha hb idle
  have hbusy : ¬idle ↔ s.cyc < s.core.array ∨ ¬Claims.tileFree s t := Classical.not_and_iff_not_or_not.trans (or_congr_left Nat.not_le)
  have hidle (h : idle) : exec (.mma t a b i j z) s = wordM s i j _ :=
    (exec_mma ha hb t z).trans (if_neg fun hw => hbusy.2 hw h)
  refine ⟨fun h => (exec_mma ha hb t z).trans (if_pos (hbusy.1 h)), fun h hes => ?_, fun es x h hes hx => ?_,
    fun es o h hes ho => ?_, fun es hes => ?_⟩
  · rw [hidle h, hes]
    rfl
  · rw [hidle h, hes]
    simp only [bind, Except.bind, hx, wordM_trap]
  · rw [hidle h, hes]
    simp only [bind, Except.bind, ho, wordM_ok]
  · rw [exec_mmas ha hb t z hes]
    refine ⟨fun h => if_pos h, fun h => ?_, fun o h ho => ?_⟩
    · rw [if_neg (by omega), if_pos h]
    · rw [if_neg (by omega), if_neg (by omega)]
      simp only [bind, Except.bind, ho, apply_ite (wordM s i j), wordM_ok, wordM_raise]
      exact (apply_ite Host.Outcome.next _ _ _).symm

/-- The stamp's cycle lies in its window and is congruent to the stamp. -/
theorem stampCycle : Claims.StampCycle := by
  intro sg p
  simp only [stampOf]
  omega

/-- Rows and columns in range take the sums (R219). -/
theorem productRows : Claims.ProductRows := by
  intro s t z o hmr u
  obtain ⟨h, hu⟩ := s.mmaRun_core t z o
  have hrow (r : Nat) : u.core.row r = (s.core.setRows (t.toNat * 64) o.mr (fun i => (o.row s t z i).1)).row r := by
    rw [show u.core = _ from hu]; rfl
  refine ⟨fun r _ hr => ?_, fun i j hi hj => ?_, ?_⟩
  · rw [hrow, Core.row_setRows, if_neg (by omega)]
  · rw [hrow, Core.row_setRows, if_pos (by omega), Nat.add_sub_cancel_left]
    simp only [MJob.row, lane_mergeRow (show 32 * 64 = 2048 from rfl) _ _ _ _ hj, decide_eq_true_eq]
  · rw [show u.core = _ from hu, Core.setRows_eq]
    exact ⟨rfl, rfl, rfl, rfl, rfl⟩

/-- Settles O35: the words by their waits and checks, the stamp by its window, the rows of a product by the rows that it replaces. -/
theorem matrixProducts : Obligations.MatrixProducts := ⟨tileWords, productWords, stampCycle, productRows⟩

end Sys2Proof.Machine
end

section
/-! Words of A on capabilities (04 R111, R112, R115, R119 to R123): the checks of a memory word, what a moved cursor keeps, what a request
of bounds grants, and what each word writes once its operands can be read. -/
namespace Sys2Proof.Machine

/-! ## The checks of a memory word (R115) -/

/-- Settles O20: each check decides the proposition that the statement names. -/
theorem capabilityChecks : Obligations.CapabilityChecks := by
  intro c ea n w
  have hprm : w.prm.all c.has = false ↔ ¬∀ b ∈ w.prm, c.has b = true := by
    rw [← Bool.not_eq_true, List.all_eq_true]
  simp only [capCheck, capFault, raise, w64, Bool.not_eq_true', Bool.or_eq_true, decide_eq_true_eq, hprm]
  rfl

/-! ## A moved cursor (R111) -/

/-- A capability with its cursor replaced reads back the new cursor. -/
theorem withCur_cursor (c : Cap) (v : W64) : (c.withCur v).bits.truncate 64 = v := by
  refine BitVec.eq_of_getLsbD_eq fun i hi => ?_
  simp [Cap.withCur, hi]

/-- The bits above the cursor stay. -/
theorem withCur_above (c : Cap) (v : W64) : (c.withCur v).bits >>> 64 = c.bits >>> 64 := by
  refine BitVec.eq_of_getLsbD_eq fun i hi => ?_
  rcases Nat.lt_or_ge (64 + i) 128 with h | h
  · simp [Cap.withCur, h]
  · simp [Cap.withCur, Nat.not_lt.2 h, BitVec.getLsbD_of_ge c.bits _ h]

/-- The tag stays inside the representable window. -/
theorem move_tag (c : Cap) (v : W64) :
    (c.move v).tag = true ↔ c.tag = true ∧ c.bounds.1 ≤ v.toNat ∧ v.toNat < c.bounds.1 + 2 ^ (c.e + 21) := by
  simp only [Cap.move, Bool.and_eq_true, decide_eq_true_eq, and_assoc]

/-- A region is shorter than the representable window, since its length in units of `2 ^ E` has 21 bits (R110). -/
theorem limit_lt_window (c : Cap) (he : c.e ≤ 43) : c.bounds.1 ≤ c.bounds.2 ∧ c.bounds.2 < c.bounds.1 + 2 ^ (c.e + 21) := by
  have hm : c.m < 2 ^ 21 := Nat.mod_lt _ (Nat.two_pow_pos 21)
  have hlen : c.m * 2 ^ c.e < 2 ^ (c.e + 21) := by
    rw [Nat.pow_add, Nat.mul_comm (2 ^ c.e)]
    exact Nat.mul_lt_mul_of_pos_right hm (Nat.two_pow_pos _)
  rw [Cap.bounds, if_neg (Nat.not_lt.2 he)]
  exact ⟨Nat.le_add_right _ _, Nat.add_lt_add_left hlen _⟩

/-- A moved cursor keeps the tag inside the window, where its limit also lies. -/
theorem cursorChange : Claims.CursorChange := by
  intro c v
  refine ⟨move_tag c v, withCur_cursor c v, withCur_above c v, fun ht he hl => ?_⟩
  rw [move_tag, BitVec.toNat_ofNat, Nat.mod_eq_of_lt hl]
  exact ⟨ht, limit_lt_window c he⟩

/-! ## Words on capabilities -/

/-- A word whose operand can be read takes its effect and ends. -/
theorem word_of_ok {α : Type} {k : Cl} {s : State} {r : Chk α} {x : α} (h : r = .ok x) (f : α → State) :
    word k s (r >>= fun y => .ok (f y)) = .next ((f x).retire k) := by
  rw [h]
  rfl

section
variable {s : State} {a b : BitVec 5} (d : BitVec 5)

/-- A form on two registers that can be read. -/
theorem cap2_of_aVal (f : Cap → Cap → Cap) {x y : Cap} (hx : s.aVal a 1 = .ok x) (hy : s.aVal b 2 = .ok y) :
    cap2 f d a b s = .next ((s.putA d (f x y)).retire .a) := by
  simp only [cap2, hx, hy, bind, Except.bind, word_ok]

/-- A comparison of two registers, whose poison makes no difference (R123). -/
theorem capTest_of_aRaw (f : Cap → Cap → Bool) {x y : Cap} {p q : Bool} (hx : s.aRaw a 1 = .ok (x, p)) (hy : s.aRaw b 2 = .ok (y, q)) :
    capTest f d a b s = .next ((s.putA d (plainCap (if f x y then 1 else 0))).retire .a) := by
  simp only [capTest, hx, hy, bind, Except.bind, word_ok]

end

/-- Each integer form on two cursors is the form of its function (R119). -/
theorem exec_cursorWords (d a b : BitVec 5) (s : State) : ∀ e ∈ Claims.cursorWords, exec (e.1 d a b) s = capInt e.2 d a b s := by
  simp only [Claims.cursorWords, List.forall_mem_cons, List.not_mem_nil, false_implies, implies_true, and_true]
  and_intros <;> rfl

/-- The space mask of CSETS keeps every bit below the space (R122). -/
theorem spaceMask : 0x0FFFFFFFFFFFFFFFFFFFFFFFFFFFFFFF#128 = BitVec.allOnes 128 >>> 4 := by decide

/-- The words that move, narrow, read and compare capabilities, by the operands that each reads. -/
theorem capabilityWordsIssue : Claims.CapabilityWords := by
  intro s d a b
  refine ⟨fun x p hx => ⟨?_, ?_, fun f => ?_⟩, fun i => rfl,
    fun x hx => ⟨fun i => ?_, fun p => ?_, fun n => ?_, fun y hy => ⟨?_, ?_, fun e he => ?_⟩⟩, fun x y p q hx hy => ⟨?_, ?_⟩⟩
  · exact word_of_ok hx fun r => s.putAP d r.1 r.2 1
  · exact word_of_ok hx fun r => s.putAP d ⟨false, r.1.bits⟩ r.2 1
  · exact word_of_ok hx fun r => s.putAP d (plainCap (capField r.1 f.toNat)) r.2 1
  · exact word_of_ok hx fun x => s.putA d (x.move (curOf x + i.signExtend 64))
  · exact word_of_ok hx fun x => s.putA d ⟨x.tag, x.bits &&& ~~~((~~~p).zeroExtend 128 <<< 112)⟩
  · rw [← spaceMask]
    exact word_of_ok hx fun x =>
      s.putA d ⟨x.tag && x.has pSp, (x.bits &&& 0x0FFFFFFFFFFFFFFFFFFFFFFFFFFFFFFF#128) ||| (n.zeroExtend 128 <<< 124)⟩
  · exact cap2_of_aVal d _ hx hy
  · exact cap2_of_aVal d _ hx hy
  · rw [exec_cursorWords d a b s e he]
    exact cap2_of_aVal d _ hx hy
  · exact capTest_of_aRaw d _ hx hy
  · show capTest (fun x y => decide (x = y)) d a b s = _
    rw [capTest_of_aRaw d _ hx hy]
    simp only [decide_eq_true_eq]

/-- Settles O18: the words by the operands that they read, the tag by the window. -/
theorem capabilityWords : Obligations.CapabilityWords := ⟨capabilityWordsIssue, cursorChange⟩

/-! ## Bounds (R112, R121) -/

/-- A request rounded up to units of `2 ^ e` (R112). -/
theorem le_cdiv_mul (n e : Nat) : n ≤ cdiv n (2 ^ e) * 2 ^ e := by
  have hp := Nat.two_pow_pos e
  have hdiv := Nat.div_add_mod (n + 2 ^ e - 1) (2 ^ e)
  have hmod := Nat.mod_lt (n + 2 ^ e - 1) hp
  rw [cdiv, Nat.mul_comm]
  omega

/-- A grant holds the region that was asked for and keeps the tag. -/
theorem boundsGrant : Claims.BoundsGrant := by
  intro c x rb rl lo hi h _
  unfold Cap.request at h
  split at h
  · cases h
  · next e _ =>
    simp only [Option.some.injEq, Prod.mk.injEq] at h
    obtain ⟨rfl, rfl, rfl⟩ := h
    have hlo : rb / 2 ^ e * 2 ^ e ≤ rb := Nat.div_mul_le_self rb _
    refine ⟨hlo, fun hl => ?_, rfl⟩
    have hup := le_cdiv_mul (rb + rl) e
    have hle : rb / 2 ^ e ≤ cdiv (rb + rl) (2 ^ e) := Nat.le_of_mul_le_mul_right (by omega) (Nat.two_pow_pos e)
    rw [if_neg (Nat.ne_of_gt hl), Nat.add_sub_cancel' hle]
    exact hup

/-- What each of the three words asks for, with the source and the length that it reads. -/
theorem exec_boundsWords {s : State} {d a b : BitVec 5} (i : BitVec 13) {x y : Cap} (hx : s.aVal a 1 = .ok x) (hy : s.aVal b 2 = .ok y) :
    ∀ e ∈ [(Instr.csetb d a b, y.cur, false), (Instr.csetbx d a b, y.cur, true), (Instr.csetbi d a i, i.toNat, false)],
      exec e.1 s = word .a s ((setBounds x e.2.1 e.2.2).map (s.putA d)) := by
  simp only [List.forall_mem_cons, List.not_mem_nil, false_implies, implies_true, and_true]
  refine ⟨?_, ?_, ?_⟩
  · show execCsetb d a b s = _
    simp only [execCsetb, hx, hy, bind, Except.bind]
    rfl
  · show execCsetbx d a b s = _
    simp only [execCsetbx, hx, hy, bind, Except.bind]
    rfl
  · show execCsetbi d a i s = _
    simp only [execCsetbi, hx, bind, Except.bind]
    rfl

/-- A grant is refused where it leaves the source's region, or is not exact where it has to be (R121). -/
theorem setBounds_of_request {x c : Cap} {n lo hi : Nat} (ht : x.tag = true) (hr : x.request x.cur n = some (c, lo, hi)) (ex : Bool) :
    setBounds x n ex =
      if lo < x.bounds.1 ∨ x.bounds.2 < hi ∨ (ex = true ∧ (lo ≠ x.cur ∨ hi ≠ x.cur + n)) then capFault 4 (curOf x) else .ok c := by
  simp only [setBounds, ht, hr, Bool.not_true, Bool.false_eq_true, if_false, Bool.or_eq_true, Bool.and_eq_true, decide_eq_true_eq,
    bne_iff_ne, ← or_assoc]
  by_cases hout : lo < x.bounds.1 ∨ x.bounds.2 < hi
  · rw [if_pos hout, if_pos (.inl hout)]
  · rw [if_neg hout]
    simp only [hout, false_or]

/-- The words of bounds, by the answers of `setBounds` in the order of its checks. -/
theorem boundsWordsIssue : Claims.BoundsWords := by
  intro s d a b i x y hx hy e he
  rw [exec_boundsWords i hx hy e he]
  refine ⟨fun ht => ?_, fun ht hr => ?_, fun c lo hi ht hr => ⟨fun hbad => ?_, fun hlo hhi hex => ?_⟩⟩
  · simp only [setBounds, ht]
    rfl
  · simp only [setBounds, ht, hr]
    rfl
  · rw [setBounds_of_request ht hr, if_pos hbad]
    rfl
  · rw [setBounds_of_request ht hr, if_neg (not_or.2 ⟨Nat.not_lt.2 hlo, not_or.2 ⟨Nat.not_lt.2 hhi,
      fun h => h.2.elim (· (hex h.1).1) (· (hex h.1).2)⟩⟩)]
    rfl

/-- Settles O19: the words by the checks of a grant, the grant by its rounding outwards. -/
theorem boundsWords : Obligations.BoundsWords := ⟨boundsWordsIssue, boundsGrant⟩

end Sys2Proof.Machine
end

section
/-! Loads and stores of A as they issue (04 R124, R125, R129, 06 R195): each word is a form of its size, and a form answers by the place
that its checks give. -/
namespace Sys2Proof.Machine

/-- Outside the FIFO banks an access lies in HBM, in SRAM or in core scratch. -/
theorem plainPlace_cases {p : Place} (h : Claims.plainPlace p = true) :
    (∃ a, p.loc = .hbm a) ∨ (∃ o, p.loc = .sram o) ∨ ∃ o, p.loc = .scr o := by
  cases hl : p.loc with
  | hbm a => exact .inl ⟨a, rfl⟩
  | sram o => exact .inr (.inl ⟨o, rfl⟩)
  | scr o => exact .inr (.inr ⟨o, rfl⟩)
  | fifo k =>
    rw [Claims.plainPlace, hl] at h
    cases h

/-! ## Scalar loads -/

/-- Each scalar load is the form of its size and sign (R124). -/
theorem exec_loadWords (b : BitVec 5) (q : BitVec 3) (cl : BitVec 4) (i : BitVec 13) (s : State) :
    ∀ e ∈ Claims.loadWords, exec (e.1 b q cl i) s = loadWord e.2.1 e.2.2 b q cl i s := by
  simp only [Claims.loadWords, List.forall_mem_cons, List.not_mem_nil, false_implies, implies_true, and_true]
  and_intros <;> rfl

section
variable {s : State} {n : Nat} (sx : Bool) {b : BitVec 5} {q : BitVec 3} (cl : BitVec 4) {i : BitVec 13} {c : Cap} {p : Place}
  (hb : s.baseReg b (i.toInt * n) = .ok c) (hr : s.room q.toNat = .ok ())
  (hp : s.access c (eaOf c (i.toInt * n)) n (Claims.wantLoad n) = .ok p)
include hb hr hp

/-- A load outside the FIFO banks reserves its entry and waits to perform. -/
theorem loadWord_of_plainPlace (hl : Claims.plainPlace p = true) : loadWord n sx b q cl i s =
    .next (((s.reserveQ q.toNat s.nextId).addAcc (s.newAcc cl p n (.load (q.zeroExtend 6) s.nextId sx) c)).retire .a) := by
  simp only [Claims.wantLoad] at hp
  simp only [loadWord, exts, hb, hr, hp, bind, Except.bind]
  rcases plainPlace_cases hl with ⟨_, h⟩ | ⟨_, h⟩ | ⟨_, h⟩ <;> simp only [h, word_ok]

/-- A load from a FIFO bank takes the oldest bytes at once (R129). -/
theorem loadWord_of_fifo {k : Nat} {t : State} {bs : List (Byte × Bool)} (hl : p.loc = .fifo k)
    (hf : s.fifoPop k n (s.newAcc cl p n (.load (q.zeroExtend 6) s.nextId sx) c) q.toNat = .ok (t, bs)) :
    loadWord n sx b q cl i s =
      .next ((t.pushQ q.toNat ⟨extend n sx (natLE (bs.map Prod.fst)), bs.any Prod.snd⟩).retire .a) := by
  simp only [Claims.wantLoad] at hp
  simp only [loadWord, exts, hb, hr, hp, hl, hf, bind, Except.bind, word_ok]

end

/-! ## Row loads -/

section
variable {s : State} {b : BitVec 5} (cl : BitVec 4) {i : BitVec 13} {c : Cap} (hb : s.baseReg b (i.toInt * 256) = .ok c)
  (hr : s.roomRow 6 = .ok ())
include hb hr

/-- A row load outside the FIFO banks reserves its entry and waits to perform. -/
theorem exec_ldrow_of_plainPlace {o m : Nat} {p : Place}
    (hp : s.rowPlaces c (eaOf c (i.toInt * 256)) (Claims.wantLoad 32) = .ok [(o, m, p)]) (hl : Claims.plainPlace p = true) :
    exec (.ldrow b cl i) s =
      .next (((s.reserveRow 6 s.nextId).addAcc (s.newAcc cl p 256 (.loadRow s.nextId 0) c)).retire .a) := by
  show execLdrow b cl i s = _
  simp only [Claims.wantLoad] at hp
  simp only [execLdrow, exts, hb, hr, hp, bind, Except.bind]
  rcases plainPlace_cases hl with ⟨_, h⟩ | ⟨_, h⟩ | ⟨_, h⟩ <;> simp only [h, word_ok]

/-- A row load from a FIFO bank takes the oldest bytes at once. -/
theorem exec_ldrow_of_fifo {o m k : Nat} {p : Place} {t : State} {bs : List (Byte × Bool)}
    (hp : s.rowPlaces c (eaOf c (i.toInt * 256)) (Claims.wantLoad 32) = .ok [(o, m, p)]) (hl : p.loc = .fifo k)
    (hf : s.fifoPop k 256 (s.newAcc cl p 256 (.loadRow s.nextId 0) c) 6 = .ok (t, bs)) :
    exec (.ldrow b cl i) s =
      .next ((t.pushRow 6 ⟨BitVec.ofNat 2048 (natLE (bs.map Prod.fst)), lanePois (bs.map Prod.snd)⟩).retire .a) := by
  show execLdrow b cl i s = _
  simp only [Claims.wantLoad] at hp
  simp only [execLdrow, exts, hb, hr, hp, hl, hf, bind, Except.bind, word_ok]

/-- A row load in two places loads each part from its own. -/
theorem exec_ldrow_of_parts {x y : RowPart} {t : State}
    (hp : s.rowPlaces c (eaOf c (i.toInt * 256)) (Claims.wantLoad 32) = .ok [x, y])
    (ht : (s.reserveRow 6 s.nextId).fresh.loadParts cl c s.nextId [x, y] = .ok t) : exec (.ldrow b cl i) s = .next (t.retire .a) := by
  show execLdrow b cl i s = _
  simp only [Claims.wantLoad] at hp
  simp only [execLdrow, exts, hb, hr, hp, ht, bind, Except.bind, word_ok]

end

/-- The loads, by the places that their checks give. -/
theorem loadWordsIssue : Claims.LoadWordsIssue := by
  intro s b q cl i
  refine ⟨fun e he c p hb hr hp => ?_, fun c ps hb hr hp =>
    ⟨fun o m p hps hl => ?_, fun o m p k t bs hps hl hf => ?_, fun x y t hps ht => ?_⟩⟩
  · rw [exec_loadWords b q cl i s e he]
    exact ⟨loadWord_of_plainPlace e.2.2 cl hb hr hp, fun k t bs => loadWord_of_fifo e.2.2 cl hb hr hp⟩
  · exact exec_ldrow_of_plainPlace cl hb hr (hps ▸ hp) hl
  · exact exec_ldrow_of_fifo cl hb hr (hps ▸ hp) hl hf
  · exact exec_ldrow_of_parts cl hb hr (hps ▸ hp) ht

/-! ## Scalar stores -/

/-- Each scalar store is the form of its size (R124). -/
theorem exec_storeWords (b : BitVec 5) (q : BitVec 3) (cl : BitVec 4) (i : BitVec 13) (s : State) :
    ∀ e ∈ Claims.storeWords, exec (e.1 b q cl i) s = storeWord e.2 b q cl i s := by
  simp only [Claims.storeWords, List.forall_mem_cons, List.not_mem_nil, false_implies, implies_true, and_true]
  and_intros <;> rfl

/-- A store whose value is there waits while the forwarding table is full (06 R195). -/
theorem storeWord_of_tableFull {s : State} (n : Nat) (b : BitVec 5) {q : BitVec 3} (cl : BitVec 4) (i : BitVec 13) {v : PV}
    (hv : s.peek q.toNat 1 = .ok [v]) (ht : s.tableFull = true) : storeWord n b q cl i s = .next (s.stalled false 0) := by
  simp only [storeWord, hv, ht, bind, Except.bind]
  rfl

section
variable {s : State} {n : Nat} {b : BitVec 5} {q : BitVec 3} (cl : BitVec 4) {i : BitVec 13} {c : Cap} {v : PV} {p : Place}
  (hb : s.baseReg b (i.toInt * n) = .ok c) (hv : s.peek q.toNat 1 = .ok [v]) (ht : s.tableFull = false)
  (hp : s.access c (eaOf c (i.toInt * n)) n (Claims.wantStore n) = .ok p)
include hb hv ht hp

/-- A store outside the FIFO banks takes its value and waits to perform. -/
theorem storeWord_of_plainPlace (hl : Claims.plainPlace p = true) : storeWord n b q cl i s =
    .next (((s.popN q.toNat 1).addAcc (s.newAcc cl p n (.store (bytesLE n v.v.toNat) v.p) c)).retire .a) := by
  simp only [Claims.wantStore] at hp
  simp only [storeWord, exts, hb, hv, ht, hp, List.headD_cons, bind, Except.bind, Bool.false_eq_true, if_false]
  rcases plainPlace_cases hl with ⟨_, h⟩ | ⟨_, h⟩ | ⟨_, h⟩ <;> simp only [h, word_ok]

/-- A store to a FIFO bank appends its bytes at once (R129). -/
theorem storeWord_of_fifo {k : Nat} {t : State} (hl : p.loc = .fifo k)
    (hf : s.fifoPush k ((bytesLE n v.v.toNat).map (fun x => (x, v.p))) (s.newAcc cl p n (.store (bytesLE n v.v.toNat) v.p) c) q.toNat =
      .ok t) : storeWord n b q cl i s = .next ((t.popN q.toNat 1).retire .a) := by
  simp only [Claims.wantStore] at hp
  simp only [storeWord, exts, hb, hv, ht, hp, List.headD_cons, hl, hf, bind, Except.bind, Bool.false_eq_true, if_false, word_ok]

end

/-! ## Row stores -/

/-- A row store whose row is there waits while the forwarding table is full. -/
theorem exec_strow_of_tableFull {s : State} (b : BitVec 5) (cl : BitVec 4) (i : BitVec 13) {r : RowV} (hv : s.peekRows 7 1 = .ok [r])
    (ht : s.tableFull = true) : exec (.strow b cl i) s = .next (s.stalled false 0) := by
  show execStrow b cl i s = _
  simp only [execStrow, hv, ht, bind, Except.bind]
  rfl

section
variable {s : State} {b : BitVec 5} (cl : BitVec 4) {i : BitVec 13} {c : Cap} {r : RowV} (hb : s.baseReg b (i.toInt * 256) = .ok c)
  (hv : s.peekRows 7 1 = .ok [r]) (ht : s.tableFull = false)
include hb hv ht

/-- A row store outside the FIFO banks takes its row and waits to perform. -/
theorem exec_strow_of_plainPlace {o m : Nat} {p : Place}
    (hp : s.rowPlaces c (eaOf c (i.toInt * 256)) (Claims.wantStore 32) = .ok [(o, m, p)]) (hl : Claims.plainPlace p = true) :
    exec (.strow b cl i) s = .next (((s.popRows 7 1).addAcc (s.newAcc cl p 256 (.storeRow s.nextId r) c)).retire .a) := by
  show execStrow b cl i s = _
  simp only [Claims.wantStore] at hp
  simp only [execStrow, exts, hb, hv, ht, hp, List.headD_cons, bind, Except.bind, Bool.false_eq_true, if_false]
  rcases plainPlace_cases hl with ⟨_, h⟩ | ⟨_, h⟩ | ⟨_, h⟩ <;> simp only [h, word_ok]

/-- A row store to a FIFO bank appends its bytes at once. -/
theorem exec_strow_of_fifo {o m k : Nat} {p : Place} {t : State}
    (hp : s.rowPlaces c (eaOf c (i.toInt * 256)) (Claims.wantStore 32) = .ok [(o, m, p)]) (hl : p.loc = .fifo k)
    (hf : s.fifoPush k (r.fifoBytes 256) (s.newAcc cl p 256 (.storeRow s.nextId r) c) 7 = .ok t) :
    exec (.strow b cl i) s = .next ((t.popRows 7 1).retire .a) := by
  show execStrow b cl i s = _
  simp only [Claims.wantStore] at hp
  simp only [execStrow, exts, hb, hv, ht, hp, List.headD_cons, hl, hf, bind, Except.bind, Bool.false_eq_true, if_false, word_ok]

/-- A row store in two places stores each part to its own. -/
theorem exec_strow_of_parts {x y : RowPart} {t : State}
    (hp : s.rowPlaces c (eaOf c (i.toInt * 256)) (Claims.wantStore 32) = .ok [x, y])
    (hs : (s.popRows 7 1).storeParts cl c s.nextId r [x, y] = .ok t) : exec (.strow b cl i) s = .next (t.retire .a) := by
  show execStrow b cl i s = _
  simp only [Claims.wantStore] at hp
  simp only [execStrow, exts, hb, hv, ht, hp, List.headD_cons, hs, bind, Except.bind, Bool.false_eq_true, if_false, word_ok]

end

/-- The stores, by the forwarding table and the places that their checks give. -/
theorem storeWordsIssue : Claims.StoreWordsIssue := by
  intro s b q cl i
  refine ⟨fun e he c v hb hv => ⟨fun ht => ?_, fun p ht hp => ?_⟩, fun c r hb hv => ⟨fun ht => ?_, fun ps ht hp =>
    ⟨fun o m p hps hl => ?_, fun o m p k t hps hl hf => ?_, fun x y t hps hs => ?_⟩⟩⟩
  · rw [exec_storeWords b q cl i s e he]
    exact storeWord_of_tableFull e.2 b cl i hv ht
  · rw [exec_storeWords b q cl i s e he]
    exact ⟨storeWord_of_plainPlace cl hb hv ht hp, fun k t => storeWord_of_fifo cl hb hv ht hp⟩
  · exact exec_strow_of_tableFull b cl i hv ht
  · exact exec_strow_of_plainPlace cl hb hv ht (hps ▸ hp) hl
  · exact exec_strow_of_fifo cl hb hv ht (hps ▸ hp) hl hf
  · exact exec_strow_of_parts cl hb hv ht (hps ▸ hp) hs

/-- Settles O21: each load and store by the place of its bytes. -/
theorem loadsAndStoresIssue : Obligations.LoadsAndStoresIssue := ⟨loadWordsIssue, storeWordsIssue⟩

end Sys2Proof.Machine
end

section
/-! Capabilities in memory and lanes of memory (04 R127, R128, R132, R133, 06 R195): LDC by where its bytes are, STC by what it may store,
GATH and SCAT by their active lanes. -/
namespace Sys2Proof.Machine

/-! ## LDC -/

/-- The pending access of an LDC. -/
abbrev ldcAcc (s : State) (d : BitVec 5) (cl : BitVec 4) (c : Cap) (p : Place) : Acc :=
  s.newAcc cl p 16 (.loadCap d (c.has pLc && (c.spc == 0 || c.spc == 1))) c

section
variable {s : State} (d : BitVec 5) {b : BitVec 5} (cl : BitVec 4) {i : BitVec 11} {c : Cap} {p : Place}
  (hb : s.baseReg b (i.toInt * 16) = .ok c)
  (hp : s.access c (eaOf c (i.toInt * 16)) 16 { spaces := [0, 1, 2, 3], prm := [pL], align := 16, ld := true } = .ok p)
include hb hp

/-- Outside core scratch an LDC waits to perform. -/
theorem exec_ldc_of_not_scr (hl : ∀ o, p.loc ≠ .scr o) : exec (.ldc d b cl i) s = .next ((s.addAcc (ldcAcc s d cl c p)).retire .a) := by
  show execLdc d b cl i s = _
  simp only [execLdc, exts, hb, hp, bind, Except.bind]
  cases h : p.loc with
  | scr o => exact absurd h (hl o)
  | hbm _ | sram _ | fifo _ => rfl

/-- From core scratch an LDC that may perform reads its register at once. -/
theorem exec_ldc_of_mayPerform {o : Nat} (hl : p.loc = .scr o) (hm : s.mayPerform (ldcAcc s d cl c p) = true) :
    exec (.ldc d b cl i) s =
      .next ((s.putAP d (s.readCap (scrKey s.k o) false).1 (s.readCap (scrKey s.k o) false).2 12).retire .a) := by
  show execLdc d b cl i s = _
  simp only [execLdc, exts, hb, hp, hl, hm, bind, Except.bind, if_true, word_ok]

/-- Behind stores that cover it, it takes their data. -/
theorem exec_ldc_of_forwarded {o : Nat} {bs : Bytes} {bad : Bool} (hl : p.loc = .scr o) (hm : s.mayPerform (ldcAcc s d cl c p) = false)
    (hf : s.forwarded (ldcAcc s d cl c p) 0 16 = some (bs, bad)) :
    exec (.ldc d b cl i) s = .next ((s.putAP d ⟨false, BitVec.ofNat 128 (natLE bs)⟩ bad 12).retire .a) := by
  show execLdc d b cl i s = _
  simp only [execLdc, exts, hb, hp, hl, hm, hf, bind, Except.bind, Bool.false_eq_true, if_false, word_ok]

end

/-! ## STC -/

section
variable {s : State} {d b : BitVec 5} (cl : BitVec 4) {i : BitVec 11} {c v : Cap} {bad : Bool}
  (hb : s.baseReg b (i.toInt * 16) = .ok c) (hv : s.aRaw d 2 = .ok (v, bad)) (ht : s.tableFull = false)
  (hc : capCheck c (eaOf c (i.toInt * 16)) 16 { spaces := if v.tag then [0, 1] else [0, 1, 2, 3], prm := [pS], align := 16 } = .ok ())
include hb hv ht hc

/-- A value that may not be stored is a Capability Fault, permission. -/
theorem exec_stc_of_lacks (hx : v.tag = true ∧ (c.has pSc = false ∨ (c.spc = 0 ∧ v.has pGb = false))) :
    exec (.stc d b cl i) s = .next (s.takeTrap .a ⟨.capabilityFault, 3, BitVec.ofInt 64 (eaOf c (i.toInt * 16))⟩) := by
  have hlack : (v.tag && (!c.has pSc || (c.spc == 0 && !v.has pGb))) = true := by simpa using hx
  show execStc d b cl i s = _
  simp only [execStc, exts, hb, hv, ht, hc, hlack, bind, Except.bind, Bool.false_eq_true, if_false, if_true]
  rfl

/-- Any other waits to perform, a tagged one where its home is this device. -/
theorem exec_stc_of_may {p : Place}
    (hp : s.placeOf c s.core.pc.ctx (eaOf c (i.toInt * 16)) 16 { spaces := [], prm := [], align := 16, st := true } = .ok p)
    (hx : v.tag = false ∨ (c.has pSc = true ∧ (c.spc ≠ 0 ∨ v.has pGb = true) ∧ ∀ pa, p.loc = .hbm pa → s.remote pa = false)) :
    exec (.stc d b cl i) s = .next ((s.addAcc (s.newAcc cl p 16 (.storeCap v bad) c)).retire .a) := by
  have hlack : (v.tag && (!c.has pSc || (c.spc == 0 && !v.has pGb))) = false := by
    rcases hx with hx | ⟨hsc, hgb, _⟩
    · simp [hx]
    · rcases hgb with h | h <;> simp [hsc, h]
  have hhome (pa : Nat) (h : p.loc = .hbm pa) : (v.tag && s.remote pa) = false := by
    rcases hx with hx | ⟨_, _, hx⟩
    · rw [hx, Bool.false_and]
    · rw [hx pa h, Bool.and_false]
  show execStc d b cl i s = _
  simp only [execStc, exts, hb, hv, ht, hc, hlack, hp, bind, Except.bind, Bool.false_eq_true, if_false]
  cases h : p.loc with
  | hbm pa => simp only [hhome pa h, Bool.false_eq_true, if_false, word_ok]
  | sram _ | scr _ | fifo _ => rfl

end

/-- LDC by the place of its bytes, STC by what it may store. -/
theorem capabilityTransfers : Claims.CapabilityTransfers := by
  intro s d b cl i c hb
  refine ⟨fun p hp => ⟨exec_ldc_of_not_scr d cl hb hp, fun o => exec_ldc_of_mayPerform d cl hb hp,
    fun o bs bad => exec_ldc_of_forwarded d cl hb hp⟩, fun v bad p hv ht hc hp => ⟨?_, ?_⟩⟩
  · exact exec_stc_of_lacks cl hb hv ht hc
  · exact exec_stc_of_may cl hb hv ht hc hp

/-! ## GATH and SCAT -/

/-- A gather whose lanes have passed their checks reserves its row and queues its lanes; without one it delivers zeros (R132, R133). -/
theorem exec_gath {s : State} {b : BitVec 5} (cl : BitVec 4) {i : BitVec 13} {c : Cap} {pb : Bool} {idx : RowV} {ls : List (Nat × Place)}
    (hb : s.aRaw b 1 = .ok (c, pb)) (hi : s.peekRows 7 1 = .ok [idx]) (hr : s.roomRow 6 = .ok ())
    (hl : s.lanePlaces c pb i idx { spaces := [0, 1, 2, 3], prm := [pL], align := 4, ld := true } (List.range 64) = .ok ls) :
    exec (.gath b cl i) s = .next ((if ls = [] then ((((s.popRows 7 1).reserveRow 6 s.nextId).fillRow 6 s.nextId ⟨0, 0⟩).fresh)
      else (((s.popRows 7 1).reserveRow 6 s.nextId).fresh.addLanes cl c (fun j => .gathLane s.nextId j) ls)).retire .a) := by
  show execGath b cl i s = _
  simp only [execGath, hb, hi, hr, hl, List.headD_cons, List.isEmpty_iff, bind, Except.bind]
  split <;> rfl

/-- A scatter whose lanes have passed their checks queues them with its data. -/
theorem exec_scat {s : State} {b : BitVec 5} (cl : BitVec 4) {i : BitVec 13} {c : Cap} {pb : Bool} {idx dat : RowV}
    {ls : List (Nat × Place)} (hb : s.aRaw b 1 = .ok (c, pb)) (hi : s.peekRows 7 2 = .ok [idx, dat]) (ht : s.tableFull = false)
    (hl : s.lanePlaces c pb i idx { spaces := [0, 1, 2, 3], prm := [pS], align := 4, st := true } (List.range 64) = .ok ls) :
    exec (.scat b cl i) s = .next (((s.popRows 7 2).addLanes cl c
      (fun j => .scatLane (bytesLE 4 (lane 32 dat.bits j)) (dat.p.toNat.testBit j)) ls).retire .a) := by
  show execScat b cl i s = _
  simp only [execScat, hb, hi, ht, hl, List.headD_cons, List.drop_succ_cons, List.drop_zero, bind, Except.bind, Bool.false_eq_true,
    if_false, word_ok]

/-- Settles O22: each transfer by the place, the value or the lanes that its checks give. -/
theorem transfersIssue : Obligations.TransfersIssue :=
  ⟨capabilityTransfers, fun _ _ cl _ _ _ hb => ⟨fun _ _ hi hr hl => exec_gath cl hb hi hr hl,
    fun _ _ _ hi ht hl => exec_scat cl hb hi ht hl⟩⟩

end Sys2Proof.Machine
end

section
/-! Atomics of A as they issue (04 R134 to R137): built-in atomics, handlers at home, and the lines of a row. -/
namespace Sys2Proof.Machine

/-! ## Built-in atomics -/

/-- A built-in atomic that has passed its checks looks at the poison of its operands and then takes them (R134). -/
theorem atomic_of_access {s : State} {spaces : List Nat} {b : BitVec 5} {q : BitVec 3} (cl : BitVec 4) {o : BitVec 5} {z : BitVec 2}
    {src : Bool} {c : Cap} {es : List PV} {p : Place} (hb : s.baseReg b 0 = .ok c) (ht : s.tableFull = false)
    (he : s.peek (if src then 3 else 1) (if o.truncate 4 = (6 : BitVec 4) then 2 else 1) = .ok es)
    (hr : o.toNat < 16 → s.room q.toNat = .ok ())
    (hp : s.access c c.cur (if z = 2 then 4 else 8) (Claims.wantAtom spaces (if z = 2 then 4 else 8)) = .ok p) :
    atomic spaces b q cl o z src s =
      if es.any PV.p then .next (s.takeTrap .a ⟨.poisonConsumed, 0, curOf c⟩)
      else
        let t := s.popN (if src then 3 else 1) (if o.truncate 4 = (6 : BitVec 4) then 2 else 1)
        .next (((if o.toNat < 16 then t.reserveQ q.toNat s.nextId else t).addAcc (s.newAcc cl p (if z = 2 then 4 else 8)
          (.atom (o.truncate 4) (if o.toNat < 16 then some (q.zeroExtend 6, s.nextId) else none) (es.headD ⟨0, false⟩).v
            ((es.drop 1).headD ⟨0, false⟩).v) c)).retire .a) := by
  simp only [Claims.wantAtom] at hp
  simp only [atomic, atomSrc, atomBytes, hb, ht, he, hp, bind, Except.bind, Bool.false_eq_true, if_false]
  by_cases h : o.toNat < 16
  · simp only [h, hr h, if_true, apply_ite (word .a s), word_ok]
    rfl
  · simp only [h, if_false, apply_ite (word .a s), word_ok]
    rfl

/-! ## Handlers at home -/

/-- A handler RATOM takes the header and the arguments that it counts (R136). -/
theorem exec_ratomH {s : State} {b : BitVec 5} {q : BitVec 3} (cl : BitVec 4) (o : BitVec 5) {r src : Bool} {c : Cap} {h : PV}
    {es : List PV} {p : Place} (hb : s.baseReg b 0 = .ok c) (ht : s.tableFull = false) (hh : s.peek (if src then 3 else 1) 1 = .ok [h])
    (he : s.peek (if src then 3 else 1) (1 + h.v.toNat % 8) = .ok es) (hr : r = true → s.room q.toNat = .ok ())
    (hp : s.access c c.cur 8 (Claims.wantAtom [0, 3] 8) = .ok p) (hc : es.any PV.p = false) :
    exec (.ratomH b q cl o r src) s =
      let t := s.popN (if src then 3 else 1) (1 + h.v.toNat % 8)
      .next (((if r then t.reserveQ q.toNat s.nextId else t).addAcc (s.newAcc cl p 8
        (.handler o (if r then some (q.zeroExtend 6, s.nextId) else none) ((es.drop 1).map PV.v)) c)).retire .a) := by
  have hcnt : nb h.v.toNat 0 3 = h.v.toNat % 8 := congrArg (· % 8) (Nat.div_one _)
  simp only [Claims.wantAtom] at hp
  show execRatomH b q cl o r src s = _
  simp only [execRatomH, atomSrc, List.headD_cons, hcnt, hb, ht, hh, he, hp, hc, bind, Except.bind, Bool.false_eq_true, if_false]
  cases r with
  | true => simp only [hr rfl, if_true, word_ok]
  | false => rfl

/-- Atomics by the poison of their operands. -/
theorem atomicWordsIssue : Claims.AtomicWordsIssue := by
  intro s b q cl o z src c hb ht
  refine ⟨fun e he es p hes hr hp => ?_, fun r h es p hh hes hr hp hc => exec_ratomH cl o hb ht hh hes hr hp hc⟩
  have hform : exec e.1 s = atomic e.2 b q cl o z src s := by
    simp only [List.mem_cons, List.not_mem_nil, or_false] at he
    rcases he with rfl | rfl <;> rfl
  rw [hform, atomic_of_access cl hb ht hes hr hp]
  exact ⟨fun h => if_pos h, fun h => if_neg (Bool.eq_false_iff.1 h)⟩

/-! ## Line atomics -/

/-- The pending addition of a LATOM at `pa` onto its line `j`. -/
def State.lineAcc (s : State) (cl : BitVec 4) (z : BitVec 2) (c : Cap) (p : Place) (pa : Nat) (bs : Bytes) (j : Nat) : Acc :=
  s.newAcc cl ⟨.hbm (pa + 128 * j), p.vers⟩ 128 (.line (z == 2) ((bs.drop (128 * j)).take 128)) c

/-- A LATOM takes its row and queues one addition for each of its lines, the lower first (R137). -/
theorem exec_latom {s : State} {b : BitVec 5} (cl : BitVec 4) (z : BitVec 2) {one : Bool} {c : Cap} {r : RowV} {p : Place} {pa : Nat}
    (hb : s.baseReg b 0 = .ok c) (ht : s.tableFull = false) (hr : s.peekRows 7 1 = .ok [r])
    (hp : s.access c c.cur (if one then 128 else 256) (Claims.wantAtom [0, 3] (if one then 128 else 256)) = .ok p) (hl : p.loc = .hbm pa)
    (hc : nb r.p.toNat 0 (if one then 32 else 64) = 0) :
    exec (.latom b cl z one) s =
      let bs := bytesLE (if one then 128 else 256) r.bits.toNat
      let t := s.popRows 7 1
      let u := t.addAcc (t.lineAcc cl z c p pa bs 0)
      .next ((if one then u else u.addAcc (u.lineAcc cl z c p pa bs 1)).retire .a) := by
  have hlanes : (if one then 128 else 256) / 4 = if one then 32 else 64 := apply_ite (· / 4) _ _ _
  simp only [Claims.wantAtom] at hp
  show execLatom b cl z one s = _
  simp only [execLatom, List.headD_cons, hlanes, hb, ht, hr, hp, hl, hc, bind, Except.bind, ne_eq, not_true_eq_false, Bool.false_eq_true,
    if_false, word_ok]
  rfl

/-- The pending accesses of the two additions, and what they leave alone. -/
theorem lineAtomicIssues : Claims.LineAtomicIssues := by
  intro s b cl z one c r p pa hb ht hr hp hl hc
  refine ⟨_, exec_latom cl z hb ht hr hp hl hc, ?_⟩
  cases one with
  | true => exact ⟨List.map_append, rfl, rfl⟩
  | false => exact ⟨List.map_append.trans (congrArg (· ++ _) List.map_append |>.trans (List.append_assoc _ _ _)), rfl, rfl⟩

/-- Settles O23: atomics by their operands, line atomics by their lines. -/
theorem atomicsIssue : Obligations.AtomicsIssue := ⟨atomicWordsIssue, lineAtomicIssues⟩

end Sys2Proof.Machine
end

section
/-! Prefetches, FENCE.C, BANKSET, BUSY and IDLE (04 R131, R139 to R141), and the branches of A and V (04 R142, R144, 05 R182). -/
namespace Sys2Proof.Machine

/-! ## BANKSET -/

/-- A switch waits behind those of earlier cycles and those of this cycle from cores up to its own (R140). -/
def bankFirst (s : State) (w : BitVec 2 × Nat × Nat) : Bool := decide (w.2.1 < s.cyc) || decide (w.2.2 ≤ s.k)

/-- BANKSET once its a register can be read: the checks of its capability, then the bank. -/
theorem exec_bankset {s : State} {a : BitVec 5} (m : BitVec 2) (n : BitVec 6) {c : Cap} (hc : s.aVal a 1 = .ok c) :
    exec (.bankset a m n) s =
      if c.tag = false then .next (s.takeTrap .a ⟨.capabilityFault, 1, curOf c⟩)
      else if c.spc ≠ 1 then .next (s.takeTrap .a ⟨.capabilityFault, 2, curOf c⟩)
      else if c.has pBk = false then .next (s.takeTrap .a ⟨.capabilityFault, 3, curOf c⟩)
      else if (s.bank s.clu n.toNat).mode = 3 then .next (s.retire .a)
      else .next ((s.setBank s.clu n.toNat { s.bank s.clu n.toNat with
        wait := (s.bank s.clu n.toNat).wait.filter (bankFirst s) ++
          (m, s.cyc, s.k) :: (s.bank s.clu n.toNat).wait.filter (fun w => !bankFirst s w) }).retire .a) := by
  show execBankset a m n s = _
  simp only [execBankset, hc, bind, Except.bind, Bool.not_eq_true', apply_ite (word .a s), word_ok]
  rfl

/-- Switches that come before a new one, and switches that come behind it. -/
theorem filter_bankFirst {s : State} {pre post : List (BitVec 2 × Nat × Nat)} (hpre : ∀ w ∈ pre, w.2.1 < s.cyc ∨ w.2.2 ≤ s.k)
    (hpost : ∀ w ∈ post, s.cyc ≤ w.2.1 ∧ s.k < w.2.2) :
    (pre ++ post).filter (bankFirst s) = pre ∧ (pre ++ post).filter (fun w => !bankFirst s w) = post := by
  have hfirst : ∀ w ∈ pre, bankFirst s w = true := fun w hw => by
    simpa only [bankFirst, Bool.or_eq_true, decide_eq_true_eq] using hpre w hw
  have hlast : ∀ w ∈ post, bankFirst s w = false := fun w hw => by
    simpa only [bankFirst, Bool.or_eq_false_iff, decide_eq_false_iff_not, Nat.not_lt, Nat.not_le] using hpost w hw
  simp only [List.filter_append]
  rw [List.filter_eq_self.2 hfirst, List.filter_eq_nil_iff.2 fun w hw => Bool.eq_false_iff.1 (hlast w hw), List.append_nil,
    List.filter_eq_nil_iff.2 fun w hw => by simp [hfirst w hw], List.filter_eq_self.2 fun w hw => by simp [hlast w hw], List.nil_append]
  exact ⟨rfl, rfl⟩

/-! ## BUSY and IDLE -/

/-- Reading a block after a write of a block of the cluster. -/
theorem State.block_setBlock (s : State) (clu b j : Nat) (x : Block) :
    (s.setBlock clu b x).block clu j = if j = b then x else s.block clu j := by
  split
  · next h => exact h ▸ Map.get_set_same blockEmpty x s.shr.blocks _
  · next h => exact Map.get_set_other blockEmpty x s.shr.blocks fun e => h (Nat.add_left_cancel e)

/-- A change of the in-use bit of a block of this cluster, behind those that wait. -/
def State.pendBlock (s : State) (b : Nat) (e : Nat × Bool × Nat × Nat × Nat) : State :=
  s.setBlock s.clu b { s.block s.clu b with pend := (s.block s.clu b).pend ++ [e] }

/-- A change that waits in each of `n` blocks from `b` on. -/
def State.pendBlocks (s : State) (b n : Nat) (e : Nat × Bool × Nat × Nat × Nat) : State :=
  (List.range n).foldl (fun s j => s.pendBlock (b + j) e) s

theorem State.pendBlocks_succ (s : State) (b n : Nat) (e : Nat × Bool × Nat × Nat × Nat) :
    s.pendBlocks b (n + 1) e = (s.pendBlocks b n e).pendBlock (b + n) e := by
  rw [State.pendBlocks, List.range_succ, List.foldl_append]
  rfl

/-- Only the shared state changes. -/
theorem State.pendBlocks_eq (s : State) (b n : Nat) (e : Nat × Bool × Nat × Nat × Nat) :
    s.pendBlocks b n e = s.setShr (s.pendBlocks b n e).shr := by
  induction n with
  | zero => rfl
  | succ n ih =>
    rw [State.pendBlocks_succ, ih]
    rfl

theorem State.pendBlocks_clu (s : State) (b n : Nat) (e : Nat × Bool × Nat × Nat × Nat) : (s.pendBlocks b n e).clu = s.clu := by
  rw [State.pendBlocks_eq]
  rfl

/-- Each of the blocks has the change, once. -/
theorem State.block_pendBlocks (s : State) (b n : Nat) (e : Nat × Bool × Nat × Nat × Nat) (j : Nat) :
    (s.pendBlocks b n e).block s.clu (b + j) =
      if j < n then { s.block s.clu (b + j) with pend := (s.block s.clu (b + j)).pend ++ [e] } else s.block s.clu (b + j) := by
  induction n generalizing j with
  | zero => rfl
  | succ n ih =>
    rw [State.pendBlocks_succ, State.pendBlock, State.pendBlocks_clu, State.block_setBlock]
    by_cases hj : j = n
    · subst hj
      rw [if_pos rfl, if_pos (Nat.lt_succ_self j), ih, if_neg (Nat.lt_irrefl j)]
    · rw [if_neg (fun h => hj (Nat.add_left_cancel h)), ih]
      have hiff : j < n ↔ j < n + 1 := by omega
      simp only [hiff]

/-- BUSY and IDLE whose blocks have passed the checks of R141. -/
theorem blocksWord_of_checks {s : State} {a : BitVec 5} (set : Bool) {n : BitVec 13} {c : Cap} (hb : s.baseReg a 0 = .ok c)
    (hc : capCheck c c.cur (4096 * (n.toNat + 1)) { spaces := [1], prm := [pS], align := 4096 } = .ok ())
    (hl : c.cur + 4096 * (n.toNat + 1) ≤ 24 * 2 ^ 20)
    (hm : s.banksCheck (curOf c) (unitsOf (2 ^ 19) c.cur (4096 * (n.toNat + 1))) = .ok ()) :
    blocksWord set a n s =
      .next ((s.pendBlocks (c.cur / 4096) (n.toNat + 1) (s.cyc + 3, set, s.k, s.core.pc.pid, s.core.pc.li)).retire .a) := by
  simp only [blocksWord, hb, hc, Nat.not_lt.2 hl, hm, State.pendBlocks, State.pendBlock, bind, Except.bind, if_false, word_ok]

/-- BANKSET by its checks and the bank, BUSY and IDLE by their blocks. -/
theorem bankAndBlockWords : Claims.BankAndBlockWords := by
  intro s a
  refine ⟨fun m n c hc => ?_, fun n c hb hc hl hm e he => ?_⟩
  · rw [exec_bankset m n hc]
    have htag (ht : c.tag = true) : ¬c.tag = false := ne_false_of_eq_true ht
    refine ⟨fun ht => if_pos ht, fun ht hs => ?_, fun ht hs hk => ?_, fun ht hs hk => ⟨fun h3 => ?_, fun r w => ?_,
      fun pre post h3 hw hpre hpost => ?_⟩⟩
    · rw [if_neg (htag ht), if_pos hs]
    · rw [if_neg (htag ht), if_neg (fun h => h hs), if_pos hk]
    · rw [if_neg (htag ht), if_neg (fun h => h hs), if_neg (ne_false_of_eq_true hk), if_pos h3]
    · simp [dropIdle]
    · obtain ⟨hfirst, hlast⟩ := filter_bankFirst hpre hpost
      rw [if_neg (htag ht), if_neg (fun h => h hs), if_neg (ne_false_of_eq_true hk), if_neg h3, hw, hfirst, hlast]
  · have hform : exec e.1 s = blocksWord e.2 a n s := by
      simp only [List.mem_cons, List.not_mem_nil, or_false] at he
      rcases he with rfl | rfl <;> rfl
    refine ⟨_, hform.trans (blocksWord_of_checks e.2 hb hc hl hm), ?_, ?_, fun j hj => ?_⟩
    · rw [State.pendBlocks_eq, State.setShr_mem]
    · rw [State.pendBlocks_eq, State.setShr_core]
    · rw [State.block_pendBlocks, if_pos (Nat.lt_succ_of_le hj)]

/-- Settles O24: prefetches and fences as they are defined, banks and blocks by their checks. -/
theorem fencesAndBanks : Obligations.FencesAndBanks :=
  ⟨fun _ _ _ _ _ _ => ⟨rfl, rfl, rfl, rfl⟩, bankAndBlockWords⟩

/-! ## Branches of A -/

/-- Each conditional branch of A is the branch on its condition (R142). -/
theorem exec_condAWords (c : BitVec 5) (o : BitVec 19) (s : State) : ∀ e ∈ Claims.condAWords, exec (e.1 c o) s = condA e.2 c o s := by
  simp only [Claims.condAWords, List.forall_mem_cons, List.not_mem_nil, false_implies, implies_true, and_true]
  and_intros <;> rfl

/-- BPUB with room in all three queues publishes its outcome and goes with it (R144). -/
theorem exec_bpub {s : State} {c : BitVec 5} (o : BitVec 19) {v : W64} (hv : s.aCur c 1 = .ok v) (h0 : s.room 10 = .ok ())
    (h1 : s.room 11 = .ok ()) (h2 : s.room 12 = .ok ()) :
    exec (.bpub c o) s =
      let e : PV := ⟨if v ≠ 0 then 1 else 0, false⟩
      .next (Claims.goes (((s.pushQ 10 e).pushQ 11 e).pushQ 12 e) .a (v != 0) (s.target .a o)) := by
  show execBpub c o s = _
  simp only [execBpub, execBpub.one64', hv, h0, h1, h2, bind, Except.bind, bne_iff_ne, issue_ok]
  rfl

/-- The branches of A, by their conditions. -/
theorem accessBranches : Claims.AccessBranches := by
  intro s c o
  refine ⟨rfl, fun v hv => ⟨fun e he => ?_, exec_bpub o hv, fun x hx => ?_⟩⟩
  · rw [exec_condAWords c o s e he, condA, hv]
    rfl
  · show execBpub c o s = _
    rw [execBpub, hx]
    rfl

/-! ## Branches of V -/

/-- A branch of V on an outcome that is there pops it and goes with it (R182). -/
theorem condQ_of_peek {s : State} {o : BitVec 19} {e : PV} (h : s.peek 11 1 = .ok [e]) (want : Bool) :
    condQ .v want o s = .ok (Claims.goes (s.popN 11 1) .v ((e.v != 0) == want) (s.target .v o)) := by
  rw [condQ, State.popBq, bqCode, h]
  rfl

/-- Settles O25: the branches by the condition or the outcome that they read. -/
theorem accessAndVectorBranches : Obligations.AccessAndVectorBranches := by
  refine ⟨accessBranches, fun s o => ⟨rfl, fun e he => ⟨?_, ?_⟩⟩⟩
  · show issue .v s (condQ .v true o s) = _
    rw [condQ_of_peek he, issue_ok, beq_true]
  · show issue .v s (condQ .v false o s) = _
    rw [condQ_of_peek he, issue_ok, beq_false, bne, Bool.not_not]

end Sys2Proof.Machine
end

section
/-! ENG (04 R146, 08 R241 to R248): the word by its decoding and its checks, and what the stack words do to the entries on top. -/
namespace Sys2Proof.Machine

/-! ## The word -/

/-- A word that names no engine is an Illegal Word. -/
theorem exec_eng_of_none {s : State} {sel : BitVec 3} (w0 w1 : BitVec 16) (h : engOf sel = none) :
    exec (.eng sel w0 w1) s = .next (s.takeTrap .a ⟨.illegalWord, 0, s.core.ca.iw.zeroExtend 64⟩) := by
  show execEng sel w0 w1 s = _
  rw [execEng, h]
  rfl

section
variable {s : State} {sel : BitVec 3} {w0 : BitVec 16} (w1 : BitVec 16) {e : Eng} (h : engOf sel = some e)
include h

/-- An undefined first engine word. -/
theorem exec_eng_of_first_undefined (h0 : decodeEW e w0 = none) : exec (.eng sel w0 w1) s =
    .next (s.takeTrap .a ⟨.illegalWord, 0, BitVec.ofNat 64 (s.core.ca.iw2.toNat + 2 ^ 32)⟩) := by
  show execEng sel w0 w1 s = _
  simp only [execEng, h, h0]
  rfl

/-- An undefined second engine word. -/
theorem exec_eng_of_second_undefined {w1 : BitVec 16} {x : EW} (h0 : decodeEW e w0 = some x) (h1 : decodeEW e w1 = none) :
    exec (.eng sel w0 w1) s =
      .next (s.takeTrap .a ⟨.illegalWord, 0, BitVec.ofNat 64 (s.core.ca.iw2.toNat + 2 ^ 32 + 2 ^ 33)⟩) := by
  show execEng sel w0 w1 s = _
  simp only [execEng, h, h0, h1]
  rfl

/-- Two defined words whose a registers are in order: the depth of the stack, an open FENCE.C, and then both take effect. -/
theorem exec_eng_of_decoded {w1 : BitVec 16} {x y : EW} (h0 : decodeEW e w0 = some x) (h1 : decodeEW e w1 = some y)
    (hx : s.capWord x = .ok ()) (hy : s.capWord y = .ok ()) : exec (.eng sel w0 w1) s = issue .a s (do
      depthCheck e [x, y] (s.core.stack e).length (s.core.armed e).isSome
      if (x.isLaunch || y.isLaunch) && s.fenceOpen then .error .wait
      else
        let u ← s.engWord e x
        let v ← u.engWord e y
        .ok ((v.noteDepths s.core.depths).retire .a 8)) := by
  show execEng sel w0 w1 s = _
  simp only [execEng, h, h0, h1, hx, hy, bind, Except.bind]

end

/-- ENG, in the order of its checks. -/
theorem engWords : Claims.EngineWords := by
  intro s sel w0 w1
  refine ⟨fun h => exec_eng_of_none w0 w1 (h ▸ rfl), fun e he => ⟨fun h0 => exec_eng_of_first_undefined w1 he h0,
    fun x h0 h1 => exec_eng_of_second_undefined he h0 h1, fun x y h0 h1 hx hy => ?_⟩⟩
  rw [exec_eng_of_decoded he h0 h1 hx hy]
  refine ⟨fun hd => ?_, fun hd => ⟨fun hl hf => ?_, fun u v hf hu hv => ?_⟩⟩
  · rw [hd]
    rfl
  · have hwait : ((x.isLaunch || y.isLaunch) && s.fenceOpen) = true := by
      rw [hf, Bool.and_true, Bool.or_eq_true]
      exact hl
    rw [hd, hwait]
    rfl
  · have hgo : ((x.isLaunch || y.isLaunch) && s.fenceOpen) = false := by
      cases hl : x.isLaunch || y.isLaunch with
      | false => rfl
      | true => rw [Bool.true_and, hf (Bool.or_eq_true_iff.1 hl)]
    rw [hd, hgo]
    simp only [bind, Except.bind, hu, hv, Bool.false_eq_true, if_false, issue_ok]

/-! ## The stack words -/

/-- A plain entry is an operand, any other is a fault (R249). -/
theorem plainArg_of_plain (e : Eng) {x : StkEnt} (h : x.attr = .plain) : plainArg e x = .ok x.v.toNat := by
  rw [plainArg, h]

theorem plainArg_of_ne_plain (e : Eng) {x : StkEnt} (h : x.attr ≠ .plain) : plainArg e x = operandFault e := by
  unfold plainArg
  split
  · next h' => exact absurd h' h
  · rfl

/-- The stack words, on a stack with two entries or more. -/
theorem engineStackWords : Claims.EngineStackWords := by
  intro s e x y r v n hst put
  refine ⟨rfl, ?_, ?_, ?_, ?_, ?_, ?_, fun hx => ?_, fun hx => ?_, fun hx hlt => ?_, fun hx hle => ?_, fun a c hc => ?_⟩
  all_goals simp only [State.engWord, hst, List.headD_cons, List.drop_succ_cons, List.drop_zero]
  · rfl
  · rfl
  · rfl
  · rfl
  · rfl
  · rfl
  · rw [plainArg_of_plain e hx]
    rfl
  · rw [plainArg_of_ne_plain e hx]
    rfl
  · rw [plainArg_of_plain e hx]
    exact if_neg (Nat.not_le.2 hlt)
  · rw [plainArg_of_plain e hx]
    exact if_pos hle
  · rw [hc]
    rfl

/-- Settles O37: ENG by its checks, the stack words by the entries on top. -/
theorem engineWords : Obligations.EngineWords := ⟨engWords, engineStackWords⟩

end Sys2Proof.Machine
end

section
/-! How accesses of A perform, page walks and time-outs (04 R125, 06 R195, R196, 09 R281, 14 R357, R358, 19 R442). -/
namespace Sys2Proof.Machine

/-! ## ACCESS_PERFORMED -/

/-- An access that is over changes nothing. -/
theorem exec_accessPerformed_of_none {s : State} {n : Nat} (h : s.core.pend.find? (fun a => a.id == n) = none) :
    exec (.accessPerformed n) s = .next s := by
  show execAccessPerformed n s = _
  rw [execAccessPerformed, h]

/-- A fence, an access that has left the device and one at a Dowel engine wait for what ends them. -/
theorem exec_accessPerformed_of_away {s : State} {n : Nat} {a : Acc} (h : s.core.pend.find? (fun a => a.id == n) = some a)
    (hw : a.isFence = true ∨ a.rid.isSome ∨ s.inDowel s.k a.id = true) : exec (.accessPerformed n) s = .next s := by
  show execAccessPerformed n s = _
  have haway : (a.isFence || a.rid.isSome || s.inDowel s.k a.id) = true := by
    simpa only [Bool.or_eq_true, or_assoc] using hw
  simp only [execAccessPerformed, h, haway, if_true]

section
variable {s : State} {n : Nat} {a : Acc} (h : s.core.pend.find? (fun a => a.id == n) = some a) (hf : a.isFence = false)
  (hr : a.rid = none) (hd : s.inDowel s.k a.id = false)
include h hf hr hd

/-- On this device an access performs in the turn of its bank. -/
theorem exec_accessPerformed_of_local (hl : ∀ pa, a.loc = .hbm pa → s.remote pa = false) :
    exec (.accessPerformed n) s = .next (Claims.inTurn s a (s.performLocal a)) := by
  show execAccessPerformed n s = _
  simp only [execAccessPerformed, h, hf, hr, hd, Option.isSome_none, Bool.or_self, Bool.false_eq_true, if_false]
  cases hloc : a.loc with
  | hbm pa =>
    rw [Claims.inTurn, hloc]
    exact congrArg Host.Outcome.next (if_neg (Bool.eq_false_iff.1 (hl pa hloc)))
  | sram _ =>
    rw [Claims.inTurn, hloc]
    rfl
  | scr _ | fifo _ => rw [Claims.inTurn, hloc]

/-- An access of another peer's memory. -/
theorem exec_accessPerformed_of_remote {pa : Nat} (hl : a.loc = .hbm pa) (hp : s.remote pa = true) :
    exec (.accessPerformed n) s = .next (s.performFar a pa) := by
  show execAccessPerformed n s = _
  simp only [execAccessPerformed, h, hf, hr, hd, hl, hp, Option.isSome_none, Bool.or_self, Bool.false_eq_true, if_false, if_true]

end

/-! ### On this device -/

/-- A store writes its bytes once its order allows it. -/
theorem State.performLocal_store {a : Acc} {bs : Bytes} {p : Bool} (h : a.op = .store bs p) (s : State) :
    s.performLocal a = if s.mayPerform a then (s.storeLocal a 0 bs p).dropAcc a.id else s := by
  rw [State.performLocal, h]

/-- An STC writes its granule. -/
theorem State.performLocal_storeCap {a : Acc} {c : Cap} {p : Bool} (h : a.op = .storeCap c p) (s : State) :
    s.performLocal a = if s.mayPerform a then (s.storeCapLocal a c p).dropAcc a.id else s := by
  rw [State.performLocal, h]

/-- A load takes what memory, or a store before it, holds. -/
theorem State.performLocal_load {s : State} {a : Acc} {q : BitVec 6} {id : Nat} {sx : Bool} {bs : Bytes} {bad : Bool}
    (h : a.op = .load q id sx) (hl : s.loadNow a 0 a.n = some (bs, bad)) :
    s.performLocal a = ((s.fillFor a).deliver a bs [bad]).dropAcc a.id := by
  simp only [State.performLocal, h, hl]

/-- An LDC whose bytes no copy has overwritten reads its memory. -/
theorem State.performLocal_loadCap {s : State} {a : Acc} {d : BitVec 5} {lc : Bool} (h : a.op = .loadCap d lc)
    (hm : s.mayPerform a = true) (hw : a.was = []) :
    s.performLocal a =
      ((s.fillFor a).loadedCap d (s.readCap (s.accKey a) lc).1 (s.readCap (s.accKey a) lc).2).dropAcc a.id := by
  simp only [State.performLocal, h, hm, State.capSeen, hw, List.isEmpty_nil, if_true]

/-- An LDC behind stores that cover it takes their data, and the tag of the last STC. -/
theorem State.performLocal_loadCap_forwarded {s : State} {a : Acc} {d : BitVec 5} {lc : Bool} {bs : Bytes} {bad : Bool}
    (h : a.op = .loadCap d lc) (hm : s.mayPerform a = false) (hf : s.forwarded a 0 16 = some (bs, bad)) :
    s.performLocal a = (s.loadedCap d
      ⟨lc && !bad && s.forwardTag (accBefore s.core.pend a.id) (s.accPos a), BitVec.ofNat 128 (natLE bs)⟩ bad).dropAcc a.id := by
  simp only [State.performLocal, h, hm, hf, Bool.false_eq_true, if_false]

/-! ### At another peer -/

/-- What does not read leaves the device when its order allows it. -/
theorem State.performFar_of_not_reads {s : State} {a : Acc} (h : a.reads = false) (pa : Nat) :
    s.performFar a pa = if s.mayPerform a then s.leave a pa else s := by
  simp only [State.performFar, h, Bool.false_and, Bool.false_eq_true, if_false]

/-- A load that stores before it cover takes their data. -/
theorem State.performFar_load_of_forwarded {s : State} {a : Acc} {q : BitVec 6} {id : Nat} {sx : Bool} {bs : Bytes} {bad : Bool}
    (h : a.op = .load q id sx) (hf : s.forwarded a 0 a.n = some (bs, bad)) (pa : Nat) :
    s.performFar a pa = (s.deliver a bs [bad]).dropAcc a.id := by
  simp [State.performFar, Acc.reads, Acc.isRow, AccOp.ret, h, hf]

/-- A load that they do not cover leaves the device when its order allows it. -/
theorem State.performFar_load_of_not_forwarded {s : State} {a : Acc} {q : BitVec 6} {id : Nat} {sx : Bool} (h : a.op = .load q id sx)
    (hf : s.forwarded a 0 a.n = none) (pa : Nat) : s.performFar a pa = if s.mayPerform a then s.leave a pa else s := by
  simp [State.performFar, Acc.reads, Acc.isRow, AccOp.ret, h, hf]

/-- An access performs by its operation and the place of its bytes. -/
theorem accessesPerformEach : Claims.AccessesPerform := by
  intro s n
  refine ⟨exec_accessPerformed_of_none, fun a h => ⟨exec_accessPerformed_of_away h, fun hf hr hd hl => ?_⟩,
    fun a pa h hf hr hd hl hp => ?_⟩
  · rw [exec_accessPerformed_of_local h hf hr hd hl]
    refine ⟨fun bs p ho => ?_, fun c p ho => ?_, fun d lc ho hm hw => ?_, fun d lc bs bad ho hm hfw => ?_, fun q id sx bs bad ho hn => ?_⟩
    · rw [State.performLocal_store ho]
    · rw [State.performLocal_storeCap ho]
    · rw [State.performLocal_loadCap ho hm hw]
    · rw [State.performLocal_loadCap_forwarded ho hm hfw]
    · rw [State.performLocal_load ho hn]
  · rw [exec_accessPerformed_of_remote h hf hr hd hl hp]
    refine ⟨fun hn => ?_, fun q id sx ho => ?_⟩
    · rw [State.performFar_of_not_reads hn]
    · cases hfw : s.forwarded a 0 a.n with
      | some v => rw [State.performFar_load_of_forwarded ho hfw]
      | none => rw [State.performFar_load_of_not_forwarded ho hfw]

/-! ## Translations -/

/-- A context reads back as it was written. -/
theorem State.ctx_setCtx (s : State) (c : Ctx) (x : CtxRec) : (s.setCtx c x).ctx c = x := Map.get_set_same CtxRec.reset x s.ctxs c.toNat

/-- The oldest walk makes the pages that hold its address known (R196). -/
theorem exec_translationWalkComplete {s : State} {c : Ctx} {va : Nat} {r : List (Ctx × Nat)} (h : s.walks = (c, va) :: r) :
    ∃ t, exec .translationWalkComplete s = .next t ∧ t.walks = r ∧ t.mem = s.mem ∧
      (t.ctx c).pages = (s.ctx c).pages.map (fun p => if p.va ≤ va ∧ va < p.va + 2 ^ p.sz then { p with walked := true } else p) := by
  show ∃ t, execTranslationWalkComplete s = .next t ∧ _
  rw [execTranslationWalkComplete, h]
  refine ⟨_, rfl, rfl, rfl, ?_⟩
  simp only [State.ctx_setCtx, Bool.and_eq_true, decide_eq_true_eq]

/-- A copy that has been stalled for too long goes on without the access, or is given up where its source was still being checked (R281,
R282). -/
def State.stopStalled (s : State) (x : Copy) : State :=
  let u := (x.stall.getD (0, 0)).1
  let t : Trap := ⟨.translationFault, 0, x.stallAddr s u⟩
  if x.unchecked then s.loseCopy x t else s.unitStop x u (.trap t)

section
variable {s : State} {e : Eng}

/-- A search that asks the same of each copy, case by case, finds the same. -/
theorem find?_of_late {p : Copy → Bool} {o : Option Copy} {x : Copy}
    (hp : ∀ y, p y = (y.op.eng == e && y.stall.any (fun p => decide (p.2 + 2 ^ 20 ≤ s.cyc)))) (ho : s.core.copies.find? p = o)
    (hx : s.core.copies.find? (fun y => y.op.eng == e && y.stall.any (fun p => decide (p.2 + 2 ^ 20 ≤ s.cyc))) = some x) :
    o = some x := by
  rw [← ho, ← hx, funext hp]

/-- The first copy of the engine that has been stalled for 2^20 cycles stops. -/
theorem exec_translationStallTimeout_of_late {x : Copy}
    (hx : s.core.copies.find? (fun x => x.op.eng == e && x.stall.any (fun p => decide (p.2 + 2 ^ 20 ≤ s.cyc))) = some x) :
    exec (.translationStallTimeout e) s = .next (s.stopStalled x) := by
  show execTranslationStallTimeout e s = _
  dsimp only [execTranslationStallTimeout]
  generalize ho : s.core.copies.find? _ = o
  have hsome : o = some x := find?_of_late (fun y => by
    rcases y.stall with _ | ⟨u, d⟩
    · rfl
    · rw [Option.any_some]) ho hx
  rw [hsome]
  rfl

/-- Without a stalled stream nothing happens. -/
theorem exec_translationStallTimeout_of_none (hc : s.core.copies.all (fun x => x.stall.isNone) = true)
    (hg : s.core.ga.all (fun x => x.stall.isNone) = true) : exec (.translationStallTimeout e) s = .next s := by
  show execTranslationStallTimeout e s = _
  dsimp only [execTranslationStallTimeout]
  split
  · next y hy =>
    have hlate := List.find?_some hy
    simp [Option.isNone_iff_eq_none.1 (List.all_eq_true.1 hc y (List.mem_of_find?_eq_some hy))] at hlate
  · split
    · next y hy =>
      have hlate := List.find?_some hy
      simp [Option.isNone_iff_eq_none.1 (List.all_eq_true.1 hg y (List.mem_of_find?_eq_some hy))] at hlate
    · rfl

end

/-- Page walks that return, and streams that stall. -/
theorem translationEvents : Claims.TranslationEvents := by
  intro s e
  refine ⟨fun h => ?_, fun c va r => exec_translationWalkComplete, fun x u d hx hs => ?_, exec_translationStallTimeout_of_none⟩
  · show execTranslationWalkComplete s = _
    rw [execTranslationWalkComplete, h]
  · rw [exec_translationStallTimeout_of_late hx, State.stopStalled, hs]
    rfl

/-! ## Time-outs -/

/-- A request by the cycle in which it was sent (R442). -/
theorem remoteTimeout : Claims.RemoteTimeout := by
  intro s rid
  refine ⟨fun h => ?_, fun r h => ⟨fun hc => ?_, fun hc => ?_⟩⟩
  all_goals show execRemoteAccessTimeout rid s = _
  · rw [execRemoteAccessTimeout, h]
  · simp only [execRemoteAccessTimeout, h, hc, if_true]
  · simp only [execRemoteAccessTimeout, h, Nat.not_lt.2 hc, if_false]
    rfl

/-- Settles O42: accesses by their operations and places, walks and stalls by their order, requests by their age. -/
theorem accessesPerform : Obligations.AccessesPerform := ⟨accessesPerformEach, translationEvents, remoteTimeout⟩

end Sys2Proof.Machine
end

section
/-! Words of V on lanes (05 R147, R148, R152, R154, R156 to R158, R162, R163, R166, R167): what a lane word answers once its operands can
be read, which lane word each instruction is, and moves, products, reductions and draws from clean operands. -/
namespace Sys2Proof.Machine

/-! ## Lane-by-lane words -/

/-- Some active lane of a lane word reads poison: of `x`, of `y`, or of the old destination `z` where the word counts it among its operands. -/
def lanePoisoned (w : Nat) (useD va : Bool) (p : BitVec 4) (m pm : BitVec 256) (x y z : RowV) : Bool :=
  anyPoison (rowCount w) (Claims.active m pm)
    (fun j => lanePoison w x (patOf p va j) || lanePoison w y (patOf p (!va) j) || (useD && lanePoison w z j))

section
variable {s : State} {w lat : Nat} {useD va : Bool} {f : Nat → Nat → Nat → Nat × Fl} {d a b : BitVec 6} {p : BitVec 4} {k : BitVec 3}
  {vt : BitVec 16} {m pm : BitVec 256} {x y z : RowV}

/-- A lane word whose operands can be read consumes poison or completes (R148). -/
theorem laneWord_eq (ho : Claims.VOps s a b k vt x y m) (hz : (if useD then s.vRead d 2 else .ok (s.vOld d)) = .ok z) :
    laneWord w lat useD f va d a b p k pm s =
      if lanePoisoned w useD va p m pm x y z then raise .poisonConsumed
      else .ok ((s.vWrite d (mergeRow w (rowCount w) (s.vOld d) (Claims.active m pm)
        (fun j => (f (lane w x.bits (patOf p va j)) (lane w y.bits (patOf p (!va) j)) (lane w z.bits j)).1) (fun _ => false)) lat).flagV
        (flagsOf (rowCount w) (Claims.active m pm)
          (fun j => (f (lane w x.bits (patOf p va j)) (lane w y.bits (patOf p (!va) j)) (lane w z.bits j)).2))) := by
  cases useD with
  | false =>
    obtain rfl := Except.ok.inj hz
    rw [laneWord, ho.x, ho.y, ho.m]
    rfl
  | true =>
    have hold : s.vRead d 2 = .ok z := hz
    rw [laneWord, ho.x, ho.y, ho.m, hold]
    rfl

/-- Clean active lanes read no poison. -/
theorem lanePoisoned_eq_false (hc : Claims.clean w va p m pm x y)
    (hz : useD = true → ∀ j, j < rowCount w → Claims.active m pm j = true → lanePoison w z j = false) :
    lanePoisoned w useD va p m pm x y z = false := by
  refine anyPoison_eq_false fun j hj hon => ?_
  obtain ⟨hx, hy⟩ := hc j hj hon
  cases useD with
  | false => simp only [hx, hy, Bool.or_self, Bool.false_and]
  | true => simp only [hx, hy, hz rfl j hj hon, Bool.or_self, Bool.and_false]

/-- A lane word on clean lanes completes. -/
theorem word_laneWord_of_clean (ho : Claims.VOps s a b k vt x y m) (hz : (if useD then s.vRead d 2 else .ok (s.vOld d)) = .ok z)
    (hc : Claims.clean w va p m pm x y)
    (hcz : useD = true → ∀ j, j < rowCount w → Claims.active m pm j = true → lanePoison w z j = false) :
    word .v s (laneWord w lat useD f va d a b p k pm s) = .next (Claims.laneResult s w lat va d p m pm x y z f) := by
  rw [laneWord_eq ho hz, lanePoisoned_eq_false hc hcz]
  rfl

end

/-- Each floating lane word, in both forms of its pattern. -/
theorem exec_vfWords (d a b : BitVec 6) (p : BitVec 4) (k : BitVec 3) (s : State) :
    ∀ e ∈ Claims.vfWords, ∀ q ∈ [(e.1, false), (e.2.1, true)], exec (q.1 d a b p k) s = vfBin e.2.2 q.2 d a b p k s := by
  simp only [Claims.vfWords, List.forall_mem_cons, List.not_mem_nil, false_implies, implies_true, and_true]
  and_intros <;> rfl

/-- Each integer lane word, in both forms of its pattern. -/
theorem exec_viWords (d a b : BitVec 6) (p : BitVec 4) (k : BitVec 3) (s : State) :
    ∀ e ∈ Claims.viWords, ∀ q ∈ [(e.1, false), (e.2.1, true)], exec (q.1 d a b p k) s = viBin e.2.2 q.2 d a b p k s := by
  simp only [Claims.viWords, List.forall_mem_cons, List.not_mem_nil, false_implies, implies_true, and_true]
  and_intros <;> rfl

/-- Settles O26: each word is the lane word of its function, and its active lanes are clean. -/
theorem vectorLaneWords : Obligations.VectorLaneWords := by
  intro s d a b p k vt x y m pm hs ho
  refine ⟨fun e he q hq hc => ?_, fun e he q hq hc => ?_, fun z hz q hq hc hcz => ?_⟩
  · rw [exec_vfWords d a b p k s e he q hq, vfBin, vword_vtNow hs ho.vt]
    exact word_laneWord_of_clean (z := s.vOld d) ho rfl hc (fun h => nomatch h)
  · rw [exec_viWords d a b p k s e he q hq, viBin, vword_vtNow hs ho.vt]
    exact word_laneWord_of_clean (z := s.vOld d) ho rfl hc (fun h => nomatch h)
  · have hform : exec (q.1 d a b p k) s = vfFma q.2 d a b p k s := by
      simp only [List.mem_cons, List.not_mem_nil, or_false] at hq
      rcases hq with rfl | rfl <;> rfl
    rw [hform, vfFma, vword_vtNow hs ho.vt]
    exact word_laneWord_of_clean ho hz hc (fun _ => hcz)

/-! ## Moves and carry-less products -/

/-- A carry-less product whose operand rows are clean completes under its stage predicate (R157). -/
theorem vClmul_of_clean {s : State} {pm : BitVec 256} {a b : BitVec 6} {x y : RowV} {p : BitVec 4} (hi va : Bool) (d : BitVec 6)
    (hs : Claims.stageOn s pm) (hx : s.vRead a 0 = .ok x) (hy : s.vRead b 1 = .ok y)
    (hc : ∀ j, j < 64 → lanePoison 32 x (patOf p va j) = false ∧ lanePoison 32 y (patOf p (!va) j) = false) :
    vClmul hi va d a b p s = .next ((s.vWrite d (mergeRow 32 64 (s.vOld d) (mbit pm) (fun j =>
      let pair (r : BitVec 2048) (on : Bool) := lane 32 r (patOf p on (2 * (j / 2))) + 2 ^ 32 * lane 32 r (patOf p on (2 * (j / 2) + 1))
      let z := clmulNat (pair x.bits va) (pair y.bits (!va))
      (if hi then z / 2 ^ 64 else z) / 2 ^ (32 * (j % 2)) % 2 ^ 32) (fun _ => false)) 2).retire .v) := by
  have hbad (j : Nat) (hj : j < 64) : (lanePoison 32 x (patOf p va j) || lanePoison 32 y (patOf p (!va) j)) = false :=
    Bool.or_eq_false_iff.2 (hc j hj)
  have hclean := anyPoison_eq_false (n := 64) (on := mbit pm) (p := fun j =>
    (lanePoison 32 x (patOf p va (j - j % 2)) || lanePoison 32 y (patOf p (!va) (j - j % 2))) ||
    (lanePoison 32 x (patOf p va (j - j % 2 + 1)) || lanePoison 32 y (patOf p (!va) (j - j % 2 + 1))))
    fun j hj _ => by rw [hbad _ (by omega), hbad _ (by omega), Bool.or_self]
  rw [vClmul, vword_of_stageOn hs, hx, hy]
  exact congrArg (word .v s) (if_neg (Bool.eq_false_iff.1 hclean))

/-- Settles O28: VSEL and VMOV as they are defined, the products by their clean rows. -/
theorem vectorMovesAndProducts : Obligations.VectorMovesAndProducts := by
  intro s d a b p k vt x y m pm hs ho
  refine ⟨fun q hq => ?_, ?_, fun q hq hc hp => ?_⟩
  · have hform : exec (q.1 d a b p k) s = vSel q.2 d a b p k s := by
      simp only [List.mem_cons, List.not_mem_nil, or_false] at hq
      rcases hq with rfl | rfl <;> rfl
    rw [hform, vSel, vword_vtNow hs ho.vt, ho.x, ho.y, ho.m]
    rfl
  · show execVmov d a p k s = _
    rw [execVmov, vword_vtNow hs ho.vt, ho.x, ho.m]
    rfl
  · have hform : exec (q.1 d a b p) s = vClmul q.2.1 q.2.2 d a b p s := by
      simp only [List.mem_cons, List.not_mem_nil, or_false] at hq
      rcases hq with rfl | rfl | rfl | rfl <;> rfl
    have hpat (on : Bool) (j : Nat) (hj : j < 64) : patOf p on j < 64 := by
      cases on with
      | false => exact hj
      | true => exact hp j hj
    rw [hform]
    exact vClmul_of_clean q.2.1 q.2.2 d hs ho.x ho.y fun j hj => ⟨(hc _ (hpat _ j hj)).1, (hc _ (hpat _ j hj)).2⟩

/-! ## Reductions -/

/-- Each reduction is the word of its operation. -/
theorem exec_redWords (d a : BitVec 6) (sc : BitVec 2) (p : BitVec 4) (k : BitVec 3) (s : State) :
    ∀ e ∈ Claims.redWords, exec (e.1 d a sc p k) s = vRed e.2 d a sc p k s := by
  simp only [Claims.redWords, List.forall_mem_cons, List.not_mem_nil, false_implies, implies_true, and_true]
  and_intros <;> rfl

/-- Settles O30: each shape of result from clean active lanes. -/
theorem vectorReductions : Obligations.VectorReductions := by
  intro s pm d a p k vt x m hs hvt hx hm e he w n xs f hc
  have hclean := anyPoison_eq_false hc
  have hred (sc : BitVec 2) := exec_redWords d a sc p k s e he
  simp only [vRed, vword_vtNow hs hvt, hx, hm] at hred
  refine ⟨(hred 0).trans ?_, (hred 1).trans ?_, (hred 2).trans ?_, (hred 3).trans ?_⟩ <;>
    exact congrArg (word .v s) (if_neg (Bool.eq_false_iff.1 hclean))

/-! ## Draws -/

/-- Without a write of a generator register in its window a draw reads the registers as they stand (R167). -/
theorem State.rngReg_of_settled {s : State} (h : s.core.pc.rngOld = []) (i : Nat) (v : W64) : s.rngReg i v = (v, 0) := by
  rw [State.rngReg, h]
  rfl

/-- Then a draw takes its coordinate from them. -/
theorem State.draw_of_settled {s : State} (h : s.core.pc.rngOld = []) (j : Nat) :
    s.draw j = kerfDraw (s.ctx s.core.pc.ctx).rngseed (s.ctx s.core.pc.ctx).step.k (s.core.pc.rngtid.truncate 32)
      ((s.core.pc.rngcrd.toNat + j * s.core.pc.rngstr.toNat) % 2 ^ 64) := by
  simp only [State.draw, State.rngReg_of_settled h]

/-- Then the coordinate advances by RNGADV. -/
theorem State.advance_of_settled {s : State} (h : s.core.pc.rngOld = []) : s.advance = s.drewNew s.core.pc.rngadv := by
  simp only [State.advance, State.rngReg_of_settled h, h]
  rfl

/-- Settles O32: VRNG as it is defined, the draw and the advance from settled registers. -/
theorem vectorRandom : Obligations.VectorRandom := by
  intro s pm d k vt m hs hvt hm w
  refine ⟨?_, State.draw_of_settled, fun h => ?_⟩
  · show execVrng d k s = _
    rw [execVrng, vword_vtNow hs hvt, hm]
    rfl
  · rw [State.advance_of_settled h]
    rfl

end Sys2Proof.Machine
end

section
/-! LOOPR (05 R177 to R181): words of V under a stage predicate of zeros, what LOOPR answers once its entries can be popped, and the end of
an iteration of its body. -/
namespace Sys2Proof.Machine

/-! ## Gated words (R179) -/

/-- Under a stage predicate of zeros a word of V that is legal and reads nothing early only moves on. -/
theorem vwordQ_of_gated {s : State} {wait : Chk Unit} {body : BitVec 256 → Chk State} (hp : s.stagePred = .ok (some 0))
    (hb : gatedTrap (body (BitVec.allOnes 256)) = none) : vwordQ s wait body = .next (s.retire .v) := by
  simp only [vwordQ, hp, hb, if_true, word_ok]

/-- A gated word that reads VT first. -/
theorem vword_vtNow_of_gated {s : State} {vt : BitVec 16} {body : BitVec 16 → BitVec 256 → Chk State}
    (hp : s.stagePred = .ok (some 0)) (hvt : s.vtNow = .ok vt) (hb : gatedTrap (body vt (BitVec.allOnes 256)) = none) :
    vword s (fun pm => do let vt ← s.vtNow; body vt pm) = .next (s.retire .v) :=
  vwordQ_of_gated hp (by rw [hvt]; exact hb)

/-- A pop that stalls, or deadlocks, is no trap that applies to a gated word. -/
theorem gatedTrap_popStop (s : State) (n : Nat) (empty : Bool) : gatedTrap (.error (s.popStop n empty)) = none :=
  iteInduction (motive := fun x => gatedTrap (.error x) = none) (fun _ => rfl) (fun _ => rfl)

/-- Nor is anything else of a word that pops and then completes. -/
theorem gatedTrap_peek_bind (s : State) (c n : Nat) (f : List PV → State) :
    gatedTrap ((s.peek c n).bind fun es => .ok (f es)) = none := by
  simp only [State.peek]
  split
  · rfl
  · exact gatedTrap_popStop s c _

theorem gatedTrap_peekRows_bind (s : State) (c n : Nat) (f : List RowV → State) :
    gatedTrap ((s.peekRows c n).bind fun rs => .ok (f rs)) = none := by
  simp only [State.peekRows]
  split
  · rfl
  · exact gatedTrap_popStop s c _

section
variable {s : State} {d a b : BitVec 6} {p : BitVec 4} {k : BitVec 3} {vt : BitVec 16} {m : BitVec 256} {x y : RowV}

/-- A lane word whose operands can be read has no trap that applies to a gated word. -/
theorem gatedTrap_laneWord (ho : Claims.VOps s a b k vt x y m) (w lat : Nat) (f : Nat → Nat → Nat → Nat × Fl) (va : Bool)
    (d : BitVec 6) (p : BitVec 4) (pm : BitVec 256) : gatedTrap (laneWord w lat false f va d a b p k pm s) = none := by
  rw [laneWord_eq ho rfl]
  split <;> rfl

/-- A floating lane word, gated. -/
theorem vfBin_of_gated (hp : s.stagePred = .ok (some 0)) (ho : Claims.VOps s a b k vt x y m) (f : Fmt → Nat → Nat → Nat × Fl) (va : Bool)
    (d : BitVec 6) (p : BitVec 4) : vfBin f va d a b p k s = .next (s.retire .v) := by
  rw [vfBin]
  exact vword_vtNow_of_gated hp ho.vt (gatedTrap_laneWord ho _ _ _ va d p _)

/-- An integer lane word, gated. -/
theorem viBin_of_gated (hp : s.stagePred = .ok (some 0)) (ho : Claims.VOps s a b k vt x y m) (f : IntOp) (va : Bool)
    (d : BitVec 6) (p : BitVec 4) : viBin f va d a b p k s = .next (s.retire .v) := by
  rw [viBin]
  exact vword_vtNow_of_gated hp ho.vt (gatedTrap_laneWord ho _ _ _ va d p _)

/-- VPOP, gated, pops nothing, whatever its queue holds. -/
theorem execVpop_of_gated (hp : s.stagePred = .ok (some 0)) (ho : Claims.VOps s a b k vt x y m) (d q : BitVec 6) :
    execVpop d q k s = .next (s.retire .v) := by
  refine vwordQ_of_gated hp ?_
  rw [ho.vt, ho.m]
  by_cases hq : q = 6
  · subst hq
    exact gatedTrap_peekRows_bind s 6 1 _
  · show gatedTrap (if q = 6 then _ else _) = none
    rw [if_neg hq]
    exact gatedTrap_peek_bind s q.toNat 1 _

end

/-- LOOPR, gated. -/
theorem execLoopr_of_gated {s : State} (hp : s.stagePred = .ok (some 0)) (src : BitVec 2) (rst : Bool) (g : BitVec 3) (o : BitVec 19) :
    execLoopr src rst g o s = .next (s.retire .v) := by
  rw [execLoopr, hp]
  rfl

/-- Under a stage predicate of zeros, by the words. -/
theorem stageGating : Claims.StageGating := by
  intro s d a b p k q vt x y m hp ho
  refine ⟨fun e he => ⟨?_, ?_⟩, fun e he => ⟨?_, ?_⟩, ?_, execVpop_of_gated hp ho d q, ?_, ?_, execLoopr_of_gated hp⟩
  · exact (exec_vfWords d a b p k s e he (e.1, false) (by simp)).trans (vfBin_of_gated hp ho ..)
  · exact (exec_vfWords d a b p k s e he (e.2.1, true) (by simp)).trans (vfBin_of_gated hp ho ..)
  · exact (exec_viWords d a b p k s e he (e.1, false) (by simp)).trans (viBin_of_gated hp ho ..)
  · exact (exec_viWords d a b p k s e he (e.2.1, true) (by simp)).trans (viBin_of_gated hp ho ..)
  · show execVmov d a p k s = _
    rw [execVmov]
    refine vword_vtNow_of_gated hp ho.vt ?_
    rw [ho.x, ho.m]
    rfl
  · show execVpush q a p s = _
    refine vwordQ_of_gated hp ?_
    rw [ho.vt, ho.x]
    rfl
  · show execVrng d k s = _
    rw [execVrng]
    refine vword_vtNow_of_gated hp ho.vt ?_
    rw [ho.m]
    rfl

/-! ## LOOPR that is not gated (R178) -/

/-- What LOOPR leaves before it looks at its count: the entries popped, the loop buffer empty, and with RST the base at 0. -/
def State.looprTaken (s : State) (q n : Nat) (rst : Bool) : State :=
  let t := ((s.popN q n).setCore { (s.popN q n).core with res := .issued }).emptyBuf .v
  if rst then t.setPiece { t.core.pc with vwin := withRb t.core.pc.vwin 0, vwinOld := withRb t.core.pc.vwinOld 0 } else t

/-- The masks with which a loop starts: the predicate of stage 0 all ones, those of the others zeros. -/
def State.startMasks (s : State) : Vector MReg 16 :=
  (List.range 8).foldl (fun m i => m.set! (8 + i) ⟨if i = 0 then BitVec.allOnes 256 else 0, s.cyc⟩) s.core.m

/-- A loop set up: its masks and its record, and V at the first word of the body. -/
def State.looprStarted (s : State) (l : LoopR) : State :=
  let t := s.setCore { s.core with m := s.startMasks }
  (t.setPiece { t.core.pc with loopr := some l }).setPc .v l.b

/-- A stage map fits its loop: stage 0 for the first word, no bit behind the body, and as many bits as there are further stages. -/
def mapFits (map : W64) (g : BitVec 3) (o : BitVec 19) : Prop :=
  map.toNat % 2 ≠ 1 ∧ map.toNat / 2 ^ (o.toNat - 1) = 0 ∧ popNat map.toNat 64 = g.toNat

@[simp] theorem State.looprTaken_mem (s : State) (q n : Nat) (rst : Bool) : (s.looprTaken q n rst).mem = s.mem := by
  cases rst <;> rfl

@[simp] theorem State.looprTaken_res (s : State) (q n : Nat) (rst : Bool) : (s.looprTaken q n rst).core.res = .issued := by
  cases rst <;> rfl

@[simp] theorem State.looprTaken_loopr (s : State) (q n : Nat) (rst : Bool) :
    (s.looprTaken q n rst).core.pc.loopr = s.core.pc.loopr := by
  cases rst <;> rfl

@[simp] theorem State.looprTaken_buf (s : State) (q n : Nat) (rst : Bool) : (s.looprTaken q n rst).core.cv.buf = [] := by
  cases rst <;> rfl

@[simp] theorem State.looprStarted_mem (s : State) (l : LoopR) : (s.looprStarted l).mem = s.mem := by
  simp [State.looprStarted]

@[simp] theorem State.looprStarted_res (s : State) (l : LoopR) : (s.looprStarted l).core.res = s.core.res := by
  simp [State.looprStarted]

@[simp] theorem State.looprStarted_loopr (s : State) (l : LoopR) : (s.looprStarted l).core.pc.loopr = some l := rfl
@[simp] theorem State.looprStarted_cv_pc (s : State) (l : LoopR) : (s.looprStarted l).core.cv.pc = l.b := rfl
@[simp] theorem State.looprStarted_cv_buf (s : State) (l : LoopR) : (s.looprStarted l).core.cv.buf = s.core.cv.buf := rfl
@[simp] theorem State.looprStarted_m (s : State) (l : LoopR) : (s.looprStarted l).core.m = s.startMasks := by
  rw [State.looprStarted, State.setPc_core_m]
  rfl

/-- The cursor of V alone moves. -/
@[simp] theorem State.setPc_v_buf (s : State) (x : W64) : (s.setPc .v x).core.cv.buf = s.core.cv.buf := rfl

@[simp] theorem State.startMasks_getElem_eight (s : State) : s.startMasks[8] = ⟨BitVec.allOnes 256, s.cyc⟩ := by
  simp [State.startMasks, List.range_succ]

@[simp] theorem State.startMasks_getElem_nine (s : State) : s.startMasks[9] = ⟨0, s.cyc⟩ := by
  simp [State.startMasks, List.range_succ]

/-- LOOPR outside a loop, once its entries can be popped. -/
theorem State.loopr_of_peek {s : State} {src : BitVec 2} {g : BitVec 3} {es : List PV} (rst : Bool) (o : BitVec 19)
    (hl : s.core.pc.loopr = none) (he : s.peek (if src = 0 then 4 else 2) (if g = 0 then 1 else 2) = .ok es) :
    let map : W64 := if g = 0 then 0 else ((es.drop 1).headD ⟨0, false⟩).v
    let n := (es.headD ⟨0, false⟩).v.toNat
    let t := s.looprTaken (if src = 0 then 4 else 2) es.length rst
    (es.any PV.p = true → s.loopr src rst g o = raise .poisonConsumed) ∧
    (es.any PV.p = false → ¬ mapFits map g o → s.loopr src rst g o = raise .loopFault) ∧
    (es.any PV.p = false → mapFits map g o → s.loopr src rst g o =
      .ok (if n = 0 then t.setPc .v (s.target .v o)
        else t.looprStarted ⟨n + g.toNat, 0, n, map, s.core.cv.pc + 4, s.target .v o⟩)) := by
  intro map n t
  have hform : s.loopr src rst g o =
      if es.any PV.p then raise .poisonConsumed
      else if map.toNat % 2 = 1 || map.toNat / 2 ^ (o.toNat - 1) ≠ 0 || popNat map.toNat 64 ≠ g.toNat then raise .loopFault
      else if n = 0 then .ok (t.setPc .v (s.target .v o))
      else .ok (t.looprStarted ⟨n + g.toNat, 0, n, map, s.core.cv.pc + 4, s.target .v o⟩) := by
    have hfree : ¬ s.core.pc.loopr.isSome = true := by rw [hl]; exact Bool.false_ne_true
    exact (if_neg hfree).trans (congrArg (Except.bind · _) he)
  have hfits : mapFits map g o ↔
      ¬ (map.toNat % 2 = 1 || map.toNat / 2 ^ (o.toNat - 1) ≠ 0 || popNat map.toNat 64 ≠ g.toNat) = true := by
    simp [mapFits, and_assoc]
  rw [hform]
  refine ⟨fun h => if_pos h, fun h hm => ?_, fun h hm => ?_⟩
  · rw [if_neg (Bool.eq_false_iff.1 h), if_pos (Classical.not_not.1 (mt hfits.2 hm))]
  · rw [if_neg (Bool.eq_false_iff.1 h), if_neg (hfits.1 hm), apply_ite Except.ok]

/-- LOOPR where no stage predicate gates it. -/
theorem execLoopr_of_not_gated {s : State} {pm : Option (BitVec 256)} (hp : s.stagePred = .ok pm) (h0 : pm ≠ some 0) (src : BitVec 2)
    (rst : Bool) (g : BitVec 3) (o : BitVec 19) : execLoopr src rst g o s = issue .v s (s.loopr src rst g o) := by
  rw [execLoopr, hp]
  split
  · next h => cases h
  · next h => exact absurd (Except.ok.inj h) h0
  · rfl

/-- LOOPR by its loop, its entries and its stage map. -/
theorem looprWord : Claims.LooprWord := by
  intro s src rst g o
  refine ⟨fun pm hp h0 hl => ?_, fun hp => execLoopr_of_gated hp src rst g o, fun es hl he => ?_⟩
  · exact (execLoopr_of_not_gated hp h0 src rst g o).trans (congrArg (issue .v s) (if_pos hl))
  · have hp : s.stagePred = .ok none := by rw [State.stagePred, hl]
    have hexec : exec (.loopr src rst g o) s = issue .v s (s.loopr src rst g o) :=
      execLoopr_of_not_gated hp (fun h => nomatch h) src rst g o
    obtain ⟨hpois, hbad, hok⟩ := State.loopr_of_peek rst o hl he
    rw [hexec]
    refine ⟨fun h => ?_, fun h => ⟨fun hm => ?_, fun hm => ?_⟩⟩
    · rw [hpois h]
      rfl
    · rw [hbad h hm]
      rfl
    · by_cases hn : (es.headD ⟨0, false⟩).v.toNat = 0
      · rw [hok h hm, if_pos hn]
        refine ⟨_, rfl, ?_, ?_, ?_, fun _ => ⟨?_, State.setPc_pc _ .v _⟩, fun h0 => absurd hn h0⟩
        all_goals simp [hl]
      · rw [hok h hm, if_neg hn]
        refine ⟨_, rfl, ?_, ?_, ?_, fun h0 => absurd h0 hn, fun _ => ⟨?_, ?_, ?_, ?_⟩⟩
        all_goals simp

/-! ## The end of an iteration (R178, R180) -/

/-- The predicate of stage 0 for the next iteration. -/
theorem State.shiftMasks_getElem_eight (s : State) (on : Bool) :
    (s.shiftMasks on)[8] = ⟨if on then BitVec.allOnes 256 else 0, s.cyc + 1⟩ :=
  Vector.getElem_set_self _

/-- Each further stage takes the predicate of the stage before it. -/
theorem State.shiftMasks_getElem_succ (s : State) (on : Bool) (i : Fin 7) :
    (s.shiftMasks on)[9 + i.val] = s.shifted s.core.m[8 + i.val] (i.val + 1) := by
  obtain ⟨k, hk⟩ := i
  have hcases : k = 0 ∨ k = 1 ∨ k = 2 ∨ k = 3 ∨ k = 4 ∨ k = 5 ∨ k = 6 := by omega
  rcases hcases with rfl | rfl | rfl | rfl | rfl | rfl | rfl <;> simp [State.shiftMasks]

/-- The masks below the stage predicates stay. -/
theorem State.shiftMasks_getElem_of_lt (s : State) (on : Bool) (i : Fin 8) : (s.shiftMasks on)[i.val] = s.core.m[i.val] := by
  simp (disch := omega) only [State.shiftMasks, Vector.getElem_set_ne]

/-- Every stage predicate can be read from the next cycle on. -/
theorem State.shiftMasks_getElem_rdy (s : State) (on : Bool) (i : Fin 8) : ((s.shiftMasks on)[8 + i.val]).rdy = s.cyc + 1 := by
  obtain ⟨k, hk⟩ := i
  cases k with
  | zero => exact congrArg MReg.rdy (s.shiftMasks_getElem_eight on)
  | succ j =>
    have hidx : 8 + (j + 1) = 9 + j := by omega
    have hj := s.shiftMasks_getElem_succ on ⟨j, by omega⟩
    simp only [hidx, hj, State.shifted]

/-- A mask whose bound has passed moves as it stands. -/
theorem State.shifted_of_ready {s : State} {r : MReg} (h : r.rdy ≤ s.cyc + 1) (k : Nat) : (s.shifted r k).v = r.v :=
  if_neg (Nat.not_lt.2 h)

/-- The last word of the body ends with the step of its loop. -/
theorem State.retire_v_of_last {s : State} {l : LoopR} (hl : s.core.pc.loopr = some l) (hpc : s.core.cv.pc = l.e - 4) :
    s.retire .v = (s.setCore { s.core with res := .issued }).looprStep l := by
  simp only [State.retire, hl]
  exact if_pos hpc

/-- With no write of VWIN in its window the rotation is not lost (R180). -/
theorem State.looprStep_vwin_of_settled {s : State} (h : s.core.pc.vwinAt = 0) (l : LoopR) :
    (s.looprStep l).core.pc.vwin = withRb s.core.pc.vwin ((rbOf s.core.pc.vwin + 15) % 16) := by
  simp [State.looprStep, h]

/-- The end of an iteration, by the fields it changes. -/
theorem looprIteration : Claims.LooprIteration := by
  intro s l hl hpc hw t
  have ht : t = (s.setCore { s.core with res := .issued }).looprStep l := State.retire_v_of_last hl hpc
  have hm : t.core.m = s.shiftMasks (decide (l.kk + 1 < l.cnt)) := by rw [ht]; rfl
  refine ⟨by rw [ht]; rfl, by rw [ht]; rfl, ?_, fun i hi => ?_, fun i => ?_, fun i => ?_, ?_⟩
  · simp only [hm, State.shiftMasks_getElem_eight, decide_eq_true_eq]
  · simp only [hm, State.shiftMasks_getElem_succ, State.shifted_of_ready hi]
  · simp only [hm, State.shiftMasks_getElem_rdy]
  · simp only [hm, State.shiftMasks_getElem_of_lt]
  · rw [ht]
    exact State.looprStep_vwin_of_settled hw l

/-- Settles O33: the word, its iterations and its gating. -/
theorem pipelinedLoops : Obligations.PipelinedLoops := ⟨looprWord, looprIteration, stageGating⟩

end Sys2Proof.Machine
end

section
/-! Copies and gathers of the engines (06 R198 to R201, 08 R254, R255, R259, 09 R281, R282, 14 R365): the start of a copy, the chunks and
sectors in which it lands, promises that are missed, and the sectors of a gather or scatter in their order. -/
namespace Sys2Proof.Machine

/-! ## Reports to the core in focus (09 R276) -/

@[simp] theorem State.focus_self (s : State) : s.focus s.k = s := if_pos rfl

/-- A change to the core in focus that leaves the focus there. -/
theorem State.at_self {s : State} {f : State → State} (hk : (f s).k = s.k) : s.at s.k f = f s := by
  rw [State.at, State.focus_self, ← hk, State.focus_self]

/-- A report to the piece that runs on the core in focus waits behind the others. -/
theorem State.report_self_of_run {s : State} (h : s.core.pc.run = true) (t : Trap) :
    s.report s.k t = s.setPiece { s.core.pc with reports := s.core.pc.reports ++ [⟨t, s.core.pc.stepIn⟩] } :=
  (State.at_self (by rw [if_pos h]; rfl)).trans (if_pos h)

/-- Without a piece there nobody takes it. -/
theorem State.report_self_of_not_run {s : State} (h : s.core.pc.run = false) (t : Trap) : s.report s.k t = s := by
  have hoff : ¬ s.core.pc.run = true := Bool.eq_false_iff.1 h
  exact (State.at_self (by rw [if_neg hoff])).trans (if_neg hoff)

/-! ## COPY_START (R198, R200) -/

/-- The copy that starts is the first of its queue, where it may. -/
theorem State.copyReady_eq (s : State) (e : Eng) :
    s.copyReady e = (Claims.nextCopy s e).filter (Claims.copyMayStart s e) := by
  rw [State.copyReady, Claims.nextCopy]
  cases (s.core.engineQueue e).find? Op.isCopy with
  | none => rfl
  | some o =>
    simp only [Option.filter_some, Claims.copyMayStart, ← Nat.not_lt, decide_not, ← Bool.not_or, Bool.not_eq_true',
      ← Bool.not_eq_true, ite_not]

/-- A copy that names a handle has one endpoint, the other is the tensor (R252, R254). -/
theorem Op.geo_h_or_endpoint (o : Op) : o.geo.h = none ∨ o.geo.dst = none ∨ o.geo.src = none := by
  by_cases hw : nb o.word.toNat 8 4 < 2
  · simp only [Op.geo, if_pos hw, true_or]
  · cases hld : nb o.word.toNat 8 4 == 2 with
    | false => simp only [Op.geo, if_neg hw, hld, Bool.false_eq_true, if_false, true_or, or_true]
    | true => simp only [Op.geo, if_neg hw, hld, if_true, or_true]

/-- So a copy inside the cluster names none. -/
theorem Op.geo_h_of_inCluster {o : Op} (h : o.geo.inCluster = true) : o.geo.h = none := by
  refine o.geo_h_or_endpoint.resolve_right fun hend => ?_
  rcases hend with hend | hend <;> simp [Geo.inCluster, hend] at h

/-- An in-cluster copy as it starts: nothing of it is read or seen, and it answers with no promise. -/
def State.inClusterCopy (s : State) (o : Op) : Copy :=
  { op := o, geo := o.geo, tensor := none, incl := true, start := s.cyc, n := o.geo.chunks, buf := [], seen := 0,
    promise := s.cyc + 1 + s.freeIdx 96, owed := false, done := [], lost := [], sent := [], bad := [], acks := [], chunks := [],
    conflict := false, missed := true, faulted := false, stall := none }

/-- The core in focus once an in-cluster copy has left its queue and is under way. -/
def State.copyBegun (s : State) (e : Eng) (o : Op) : Core :=
  { (s.core.setEngineQueue e ((s.core.engineQueue e).filter (fun x => x.id != o.id))) with
    started := Map.set 0 s.core.started (engIdx e) (Map.get 0 s.core.started (engIdx e) + 1),
    lastCopy := Map.set (0, 0) s.core.lastCopy (engIdx e) (s.cyc, o.geo.chunks),
    copies := s.core.copies ++ [s.inClusterCopy o] }

@[simp] theorem State.copyBegun_engineQueue (s : State) (e : Eng) (o : Op) :
    (s.copyBegun e o).engineQueue e = (s.core.engineQueue e).filter (fun x => x.id != o.id) :=
  Map.get_set_same [] _ s.core.engq (engIdx e)

@[simp] theorem State.copyBegun_lastCopy (s : State) (e : Eng) (o : Op) :
    Map.get (0, 0) (s.copyBegun e o).lastCopy (engIdx e) = (s.cyc, o.geo.chunks) :=
  Map.get_set_same (0, 0) _ s.core.lastCopy (engIdx e)

theorem State.startCopy_of_none {s : State} {e : Eng} (h : s.copyReady e = none) : s.startCopy e = s := by
  rw [State.startCopy, h]

theorem State.startCopy_of_inCluster {s : State} {e : Eng} {o : Op} (h : s.copyReady e = some o) (hc : o.geo.inCluster = true) :
    s.startCopy e = s.setCore (s.copyBegun e o) := by
  simp only [State.startCopy, h, hc, Op.geo_h_of_inCluster hc]
  rfl

/-- An in-cluster copy answers with no promise, so it never waits for those of ML. -/
theorem State.behindMl_of_inCluster {s : State} {o : Op} (h : s.copyReady .ms = some o) (hc : o.geo.inCluster = true) :
    s.behindMl = false := by
  simp [State.behindMl, h, hc]

/-- A copy of MS with a promise waits while ML has one that is ready, or A may issue one. -/
theorem State.behindMl_of_mlFirst {s : State} {q : MemQ} (h : Claims.mlFirst s q) : (q == .ms && s.behindMl) = true := by
  obtain ⟨rfl, ⟨o, ho, hmay, hc, hs, hown⟩, hml⟩ := h
  have hready : s.copyReady .ms = some o := by rw [State.copyReady_eq, ho, Option.filter_some_pos hmay]
  have hbehind : ((s.copyReady .ml).isSome || (s.core.ca.act && decide (s.core.ca.start ≤ s.cyc))) = true := by
    rcases hml with ⟨p, hp, hpmay⟩ | ⟨hact, hstart⟩
    · rw [State.copyReady_eq, hp, Option.filter_some_pos hpmay]
      rfl
    · rw [hact, decide_eq_true hstart, Bool.and_self, Bool.or_true]
  simp [State.behindMl, hready, hbehind, hc, hs, hown]

/-- A copy starts when it is the first of its queue and may. -/
theorem copyStarts : Claims.CopyStarts := by
  intro s q e
  have hexec : exec (.copyStart q) s = .next (if q == .ms && s.behindMl then s else s.startCopy e) := rfl
  have hready := s.copyReady_eq e
  refine ⟨fun hn => ?_, fun o ho hmay => ?_, fun hml => ?_, fun o ho hmay hc => ?_⟩
  · rw [hn, Option.filter_none] at hready
    rw [hexec, State.startCopy_of_none hready, ite_self]
  · rw [ho, Option.filter_some_neg hmay] at hready
    rw [hexec, State.startCopy_of_none hready, ite_self]
  · rw [hexec, if_pos (State.behindMl_of_mlFirst hml)]
  · rw [ho, Option.filter_some_pos hmay] at hready
    have hgo : (q == .ms && s.behindMl) = false := by
      cases q with
      | ml => rfl
      | ms => exact State.behindMl_of_inCluster hready hc
    rw [hexec, hgo, State.startCopy_of_inCluster hready hc]
    exact ⟨_, rfl, rfl, rfl, s.copyBegun_engineQueue e o, s.copyBegun_lastCopy e o,
      fun _ => ⟨s.inClusterCopy o, rfl, rfl, rfl, rfl, rfl⟩⟩

/-! ## COPY_CHUNK_SEEN and PROMISE_MISS (R198, R201) -/

/-- A chunk lands where one is due. -/
theorem exec_copyChunkSeen (s : State) (q : MemQ) :
    exec (.copyChunkSeen q) s = .next (match s.core.copies.find? (Claims.chunkDue s q) with
      | none => s
      | some x => s.seeChunk x x.seen) := rfl

/-- The promises of a core with one copy: its own is marked, and reported, once its cycle has ended (R201). -/
theorem State.missPromises_of_due {s : State} {x : Copy} {e : Eng} {n : Nat} (h : s.core.copies = [x]) (he : x.op.eng = e)
    (hm : x.missed = false) (hi : x.incl = false) (hn : x.promise < n) :
    s.missPromises e n =
      let t := Copy.setIn { x with missed := true } s
      if s.core.ownsOp x.op = true then
        t.report t.k ⟨.promiseMiss, BitVec.ofNat 16 (engIdx x.op.eng), BitVec.ofNat 64 x.promise⟩
      else t := by
  subst he
  simp only [State.missPromises, h, List.foldl_cons, List.foldl_nil, beq_self_eq_true, hm, hi, decide_eq_true hn, Bool.not_false,
    Bool.and_self, if_true]
  rfl

/-- Before that nothing happens. -/
theorem State.missPromises_of_not_due {s : State} {x : Copy} {n : Nat} (h : s.core.copies = [x]) (e : Eng) (hn : n ≤ x.promise) :
    s.missPromises e n = s := by
  simp only [State.missPromises, h, List.foldl_cons, List.foldl_nil, decide_eq_false (Nat.not_lt.2 hn), Bool.and_false,
    Bool.false_eq_true, if_false]

/-- A copy replaces itself among the copies. -/
theorem Copy.setIn_copies_of_singleton {s : State} {x y : Copy} (h : s.core.copies = [y]) (hid : y.op.id = x.op.id) :
    (x.setIn s).core.copies = [x] := by
  simp [Copy.setIn, h, hid]

/-- The piece that issued an operation runs. -/
theorem Core.run_of_ownsOp {c : Core} {o : Op} (h : c.ownsOp o = true) : c.pc.run = true :=
  (Bool.and_eq_true_iff.1 h).1

/-- Chunks by the cycle in which they are due, promises by the cycle that they name. -/
theorem copyChunks : Claims.CopyChunks := by
  intro s q
  refine ⟨fun x hx => ?_, fun hn => ?_, fun x hx he hm hi => ⟨fun hp => ?_, fun hp => ?_⟩⟩
  · rw [exec_copyChunkSeen, hx]
  · rw [exec_copyChunkSeen, hn]
  all_goals rw [show exec (.promiseMiss q) s = .next (s.missPromises (engOfQ q) s.cyc) from rfl]
  · rw [State.missPromises_of_not_due hx _ hp]
  · rw [State.missPromises_of_due hx he hm hi hp]
    have hcopies : (Copy.setIn { x with missed := true } s).core.copies = [{ x with missed := true }] :=
      Copy.setIn_copies_of_singleton hx rfl
    cases hown : s.core.ownsOp x.op with
    | false => exact ⟨_, rfl, hcopies, rfl, fun h => absurd h Bool.false_ne_true, fun _ => rfl⟩
    | true =>
      have hrun : (Copy.setIn { x with missed := true } s).core.pc.run = true := Core.run_of_ownsOp hown
      simp only [if_true, State.report_self_of_run hrun]
      exact ⟨_, rfl, hcopies, rfl, fun _ => rfl, fun h => absurd h.symm Bool.false_ne_true⟩

/-! ## PROMISE_SECTOR_PERFORM (R200, R255, R282, R365) -/

theorem exec_promiseSectorPerform_of_none {s : State} {id : Nat} (sec : Nat)
    (h : s.core.copies.find? (fun x => x.op.id == id) = none) : exec (.promiseSectorPerform id sec) s = .next s := by
  show execPromiseSectorPerform id sec s = _
  rw [execPromiseSectorPerform, h]

section
variable {s : State} {id sec : Nat} {x : Copy} (h : s.core.copies.find? (fun x => x.op.id == id) = some x)
include h

/-- A sector that may not perform now changes nothing. -/
theorem exec_promiseSectorPerform_of_held (hw : s.core.halt = .freeze ∨ x.incl = true ∨ sec ∈ x.done ∨ sec ∈ x.acks ∨
    x.inOrder sec = false ∨ s.core.stalledBefore x = true) : exec (.promiseSectorPerform id sec) s = .next s := by
  show execPromiseSectorPerform id sec s = _
  have hheld : (s.core.halt == .freeze || x.incl || x.done.contains sec || x.acks.contains sec || !x.inOrder sec ||
      s.core.stalledBefore x) = true := by
    simpa only [Bool.or_eq_true, beq_iff_eq, List.contains_iff_mem, Bool.not_eq_true', or_assoc] using hw
  simp only [execPromiseSectorPerform, h, hheld, if_true]

/-- One whose turn has come performs, behind the check of the source where that is still to be made. -/
theorem exec_promiseSectorPerform_of_turn (hf : s.core.halt ≠ .freeze) (hi : x.incl = false) (hd : sec ∉ x.done) (ha : sec ∉ x.acks)
    (ho : x.inOrder sec = true) (hb : s.core.stalledBefore x = false) :
    exec (.promiseSectorPerform id sec) s = .next (if x.unchecked then s.checkSource x sec else s.unitRun x sec) := by
  show execPromiseSectorPerform id sec s = _
  simp [execPromiseSectorPerform, h, hf, hi, hd, ha, ho, hb]

end

/-- A sector of a promise performs in its turn. -/
theorem promiseSectors : Claims.PromiseSectors := fun _ _ sec =>
  ⟨exec_promiseSectorPerform_of_none sec, fun _ h => ⟨exec_promiseSectorPerform_of_held h, exec_promiseSectorPerform_of_turn h⟩⟩

/-! ## GATHER_ROW_LAND (R259, R281, R365) -/

theorem exec_gatherRowLand_of_none {s : State} {id : Nat} (row : Nat) (h : s.core.ga.find? (fun x => x.op.id == id) = none) :
    exec (.gatherRowLand id row) s = .next s := by
  show execGatherRowLand id row s = _
  rw [execGatherRowLand, h]

section
variable {s : State} {id row : Nat} {x : GaRun} (h : s.core.ga.find? (fun x => x.op.id == id) = some x)
include h

/-- A row that is none of the operation, or over, and an operation that may not go on change nothing. -/
theorem exec_gatherRowLand_of_held (hw : x.op.gaGeo.rows ≤ row ∨ row ∈ x.rows ∨ s.core.halt = .freeze ∨ s.core.gaBehind x = true) :
    exec (.gatherRowLand id row) s = .next s := by
  show execGatherRowLand id row s = _
  have hheld : (decide (x.op.gaGeo.rows ≤ row) || x.rows.contains row || s.core.halt == .freeze || s.core.gaBehind x) = true := by
    simpa only [Bool.or_eq_true, decide_eq_true_eq, beq_iff_eq, List.contains_iff_mem, or_assoc] using hw
  simp only [execGatherRowLand, h, hheld, if_true]

/-- Else, with the indices read, the sectors of the row are tried in order. -/
theorem exec_gatherRowLand_of_turn (hr : row < x.op.gaGeo.rows) (hn : row ∉ x.rows) (hf : s.core.halt ≠ .freeze)
    (hb : s.core.gaBehind x = false) :
    exec (.gatherRowLand id row) s = .next (((s.gaIndices x).2.unitsOfRow row).foldl (fun t u => t.gaTry id u)
      (((s.gaIndices x).2.setIn (s.gaIndices x).1).gaSettle (s.gaIndices x).2)) := by
  show execGatherRowLand id row s = _
  simp [execGatherRowLand, h, Nat.not_le.2 hr, hn, hf, hb]

/-- A sector whose order does not allow it is not run. -/
theorem State.gaTry_of_not_inOrder {u : Nat} (ho : x.inOrder u = false) : s.gaTry id u = s := by
  simp [State.gaTry, h, ho]

end

/-- In a scatter a sector that has neither performed nor left holds every later one up. -/
theorem GaRun.not_inOrder_of_scatter {x : GaRun} {u v : Nat} (hv : v < u) (hd : v ∉ x.done) (ha : v ∉ x.acks)
    (hp : (x.plan v).isSome = true) (hs : x.op.gaGeo.gat = false) : x.inOrder u = false := by
  simp only [GaRun.inOrder, hs, Bool.false_eq_true, if_false, List.all_eq_false, List.mem_range]
  exact ⟨v, hv, by simp [hd, ha, Option.isNone_eq_false_iff.2 hp]⟩

/-- In a gather one that has not performed holds the later ones of its line up. -/
theorem GaRun.not_inOrder_of_gather {x : GaRun} {u v : Nat} (hv : v < u) (hd : v ∉ x.done) (hg : x.op.gaGeo.gat = true)
    (hl : (x.op.gaGeo.near / 32 + v) / 4 = (x.op.gaGeo.near / 32 + u) / 4) : x.inOrder u = false := by
  simp only [GaRun.inOrder, hg, if_true, List.all_eq_false, List.mem_range]
  exact ⟨v, hv, by simp [hd, hl]⟩

/-- The sectors of a row land in the order of their line, or behind every row before them. -/
theorem gatherRows : Claims.GatherRows := by
  intro s id row
  refine ⟨exec_gatherRowLand_of_none row, fun x h => ⟨exec_gatherRowLand_of_held h, exec_gatherRowLand_of_turn h⟩,
    fun x u v h hv hd hp hkind => State.gaTry_of_not_inOrder h ?_⟩
  rcases hkind with ⟨hs, ha⟩ | ⟨hg, hl⟩
  · exact GaRun.not_inOrder_of_scatter hv hd ha hp hs
  · exact GaRun.not_inOrder_of_gather hv hd hg hl

/-- Settles O39: starts by the copy that is ready, chunks and promises by their cycles, sectors by their order. -/
theorem copiesAndGathers : Obligations.CopiesAndGathers := ⟨copyStarts, copyChunks, promiseSectors, gatherRows⟩

end Sys2Proof.Machine
end

section
/-! What products and epilogues leave (06 R203, R204, 07 R219, R220, R228, R229, R231 to R233): the flags of a product, outputs that become
seen in their slots, and the rows that EPIR sends. -/
namespace Sys2Proof.Machine

/-! ## MMA_COMPLETE (R219, R220) -/

/-- A tile's hold reads back as it was set. -/
theorem Core.holdOf_set (c : Core) (t : Nat) (h : TileHold) :
    ({ c with hold := Map.set holdNone c.hold t h } : Core).holdOf t = h := Map.get_set_same holdNone h c.hold t

@[simp] theorem State.mmaFlags_mem (s : State) (t : Nat) : (s.mmaFlags t).mem = s.mem := by
  rw [State.mmaFlags]
  split <;> rfl

@[simp] theorem State.mmaFlags_tiles (s : State) (t : Nat) : (s.mmaFlags t).core.tiles = s.core.tiles := by
  rw [State.mmaFlags]
  split <;> rfl

/-- While a product holds its tile its flags wait. -/
theorem State.mmaFlags_of_held {s : State} {t : Nat} (h : s.cyc < (s.core.holdOf t).mFrom) : s.mmaFlags t = s := by
  simp [State.mmaFlags, h]

/-- Then they are set, and none is left to set. -/
theorem State.mmaFlags_of_passed {s : State} {t : Nat} (h : (s.core.holdOf t).mFrom ≤ s.cyc) :
    (s.mmaFlags t).core.pc.fpst = s.core.pc.fpst ||| (s.core.holdOf t).fl ∧ ((s.mmaFlags t).core.holdOf t).fl = 0 := by
  by_cases hfl : (s.core.holdOf t).fl = 0
  · simp [State.mmaFlags, hfl]
  · simp only [State.mmaFlags, hfl, Nat.not_lt.2 h, decide_false, Bool.or_self, Bool.false_eq_true, if_false]
    exact ⟨rfl, congrArg TileHold.fl (Core.holdOf_set ..)⟩

/-- Every part of a tile's hold has passed. -/
def State.holdPassed (s : State) (t : Nat) : Bool :=
  decide ((s.core.holdOf t).vFrom ≤ s.cyc) && decide ((s.core.holdOf t).mFrom ≤ s.cyc) && decide ((s.core.holdOf t).epi ≤ s.cyc)

/-- A hold that has passed is forgotten. -/
def State.forgetHold (s : State) (t : Nat) : State :=
  if s.holdPassed t then s.setCore { s.core with hold := Map.set holdNone s.core.hold t holdNone } else s

@[simp] theorem State.forgetHold_mem (s : State) (t : Nat) : (s.forgetHold t).mem = s.mem := by
  rw [State.forgetHold]
  split <;> rfl

@[simp] theorem State.forgetHold_tiles (s : State) (t : Nat) : (s.forgetHold t).core.tiles = s.core.tiles := by
  rw [State.forgetHold]
  split <;> rfl

@[simp] theorem State.forgetHold_pc (s : State) (t : Nat) : (s.forgetHold t).core.pc = s.core.pc := by
  rw [State.forgetHold]
  split <;> rfl

theorem State.forgetHold_of_held {s : State} {t : Nat} (h : s.cyc < (s.core.holdOf t).mFrom) : s.forgetHold t = s := by
  simp [State.forgetHold, State.holdPassed, Nat.not_le.2 h]

/-- A hold without flags has none afterwards. -/
theorem State.forgetHold_fl {s : State} {t : Nat} (h : (s.core.holdOf t).fl = 0) : ((s.forgetHold t).core.holdOf t).fl = 0 := by
  rw [State.forgetHold]
  split
  · exact congrArg TileHold.fl (Core.holdOf_set ..)
  · exact h

theorem exec_mmaComplete (s : State) (t : BitVec 2) :
    exec (.mmaComplete t) s = .next ((s.mmaFlags t.toNat).forgetHold t.toNat) := rfl

/-- The flags of a product by the hold on its tile. -/
theorem productFlags : Claims.ProductFlags := by
  intro s t
  refine ⟨_, exec_mmaComplete s t, by simp, by simp, fun h => ?_, fun h => ?_⟩
  · rw [State.mmaFlags_of_held h, State.forgetHold_of_held h]
  · obtain ⟨hfpst, hfl⟩ := State.mmaFlags_of_passed h
    exact ⟨by rw [State.forgetHold_pc, hfpst], State.forgetHold_fl hfl⟩

/-! ## EPI_OUTPUT_SEEN and XPOSE_OUTPUT_SEEN (R203, R204, R229, R233) -/

/-- Bytes put into a slot change nothing but the slots. -/
theorem Core.putSlot_eq (c : Core) (n off : Nat) (bs : Bytes) :
    c.putSlot n off bs = { c with slot := (c.putSlot n off bs).slot } := by
  induction bs generalizing c off with
  | nil => rfl
  | cons b r ih => exact ih { c with slot := Map.set none c.slot (n * slotSize + off) (some b) } (off + 1)

@[simp] theorem Core.putSlot_pc (c : Core) (n off : Nat) (bs : Bytes) : (c.putSlot n off bs).pc = c.pc := by
  rw [Core.putSlot_eq]

@[simp] theorem Core.putSlot_land (c : Core) (n off : Nat) (bs : Bytes) : (c.putSlot n off bs).land = c.land := by
  rw [Core.putSlot_eq]

/-- The core in focus once an output stands in its slot with its record. -/
def State.outputSeen (s : State) (l : Landing) : Core :=
  let n := l.slot.toNat
  let bs := l.bytes s
  let c := ((s.core.putSlot n 0 bs).putSlotPois n 0 bs.length l.pois).setShape n l.shp
  { c with shown := Map.set (0, 0) c.shown n (s.cyc + 1, max bs.length (s.overBytes n)) }

@[simp] theorem State.outputSeen_slot (s : State) (l : Landing) :
    (s.outputSeen l).slot = (s.core.putSlot l.slot.toNat 0 (l.bytes s)).slot := by
  simp only [State.outputSeen, Core.setShape, Core.putSlotPois]

@[simp] theorem State.outputSeen_pc (s : State) (l : Landing) : (s.outputSeen l).pc = s.core.pc := by
  simp only [State.outputSeen, Core.setShape, Core.putSlotPois, Core.putSlot_pc]

@[simp] theorem State.outputSeen_land (s : State) (l : Landing) : (s.outputSeen l).land = s.core.land := by
  simp only [State.outputSeen, Core.setShape, Core.putSlotPois, Core.putSlot_land]

theorem State.outputSeen_shapeOf (s : State) (l : Landing) : (s.outputSeen l).shapeOf l.slot.toNat = l.shp :=
  Map.get_set_same shapeEmpty l.shp _ l.slot.toNat

/-- An output is no longer on its way; its gauge gains 1. -/
def State.endLanding (s : State) (l : Landing) : State :=
  let t := s.setCore { s.core with land := s.core.land.filter (fun x => x != l) }
  match l.gauge with
  | some g => t.addGauge ⟨false, g.zeroExtend 8⟩ 1
  | none => t

@[simp] theorem State.endLanding_mem (s : State) (l : Landing) : (s.endLanding l).mem = s.mem := by
  rw [State.endLanding]
  split <;> rfl

@[simp] theorem State.endLanding_core (s : State) (l : Landing) :
    (s.endLanding l).core = { s.core with land := s.core.land.filter (fun x => x != l) } := by
  rw [State.endLanding]
  split <;> rfl

/-- Into a slot in use an output is discarded whole. -/
theorem State.landSlot_of_used {s : State} {l : Landing} (h : s.slotUsed l.slot = true) :
    s.landSlot l = (s.conflictSlot l.slot.toNat 0).endLanding l := by
  simp only [State.landSlot, h, if_true]
  rfl

/-- Into a free one it lands whole. -/
theorem State.landSlot_of_free {s : State} {l : Landing} (h : s.slotUsed l.slot = false) :
    s.landSlot l = (s.setCore (s.outputSeen l)).endLanding l := by
  simp only [State.landSlot, h, Bool.false_eq_true, if_false]
  rfl

/-- Each of the two events is the landing of its kind of output. -/
theorem exec_outputSeen (s : State) : ∀ e ∈ [(Instr.epiOutputSeen, true), (Instr.xposeOutputSeen, false)],
    exec e.1 s = .next (s.landDue e.2) := by
  simp only [List.forall_mem_cons, List.not_mem_nil, false_implies, implies_true, and_true]
  exact ⟨rfl, rfl⟩

theorem State.landDue_of_none {s : State} {epi : Bool} (h : s.core.land.find? (fun l => l.epi == epi && decide (l.at_ ≤ s.cyc)) = none) :
    s.landDue epi = s := by
  rw [State.landDue, h]

theorem State.landDue_of_some {s : State} {epi : Bool} {l : Landing}
    (h : s.core.land.find? (fun l => l.epi == epi && decide (l.at_ ≤ s.cyc)) = some l) : s.landDue epi = s.landSlot l := by
  rw [State.landDue, h]

/-- A due output by the slot that it lands in. -/
theorem outputsSeen : Claims.OutputsSeen := by
  intro s e he
  refine ⟨fun h => ?_, fun l h => ⟨_, exec_outputSeen s e he, ?_⟩⟩
  · rw [exec_outputSeen s e he, State.landDue_of_none h]
  · rw [State.landDue_of_some h]
    cases hu : s.slotUsed l.slot with
    | true =>
      rw [State.landSlot_of_used hu, State.conflictSlot]
      cases hrun : s.core.pc.run with
      | true => simp [State.report_self_of_run hrun]
      | false => simp [State.report_self_of_not_run hrun]
    | false =>
      have hshape : ((s.setCore (s.outputSeen l)).endLanding l).core.shapeOf l.slot.toNat = l.shp := by
        rw [State.endLanding_core]
        exact s.outputSeen_shapeOf l
      rw [State.landSlot_of_free hu, hshape]
      simp

/-! ## EPIR_ROW_PERFORM (R228, R231, R232) -/

/-- The lowest row left goes once it is read; an EPIR with none left is settled. -/
theorem epilogueRows : Claims.EpilogueRows := by
  intro s id
  refine ⟨fun h => ?_, fun x h => ⟨fun hl => ?_, fun r l hl => ⟨fun hc => ?_, fun hc => ?_⟩⟩⟩
  all_goals show execEpirRowPerform id s = _
  · rw [execEpirRowPerform, h]
  · simp only [execEpirRowPerform, h, hl]
  · simp only [execEpirRowPerform, h, hl, hc, if_true]
  · simp only [execEpirRowPerform, h, hl, Nat.not_lt.2 hc, if_false]

/-- Settles O41: flags by the hold of their tile, outputs by the slot that they land in, rows by the cycle that reads them. -/
theorem landingsAndFlags : Obligations.LandingsAndFlags := ⟨productFlags, outputsSeen, epilogueRows⟩

end Sys2Proof.Machine
end

section
/-! Branches of M, index words, CLAMP, FREE, SHAPE and REP (07 R208, R209, R215, R216, R224, R225, R236, R238): the end of a word of M
inside and outside a repetition, words that REP may not repeat, and what SHAPE grants. -/
namespace Sys2Proof.Machine

/-! ## The end of a word of M (R224, R238) -/

/-- Away from the last word of its body a loop goes on to the next word. -/
theorem loopEnd_of_not_last {l : Option LoopSt} {pc : W64} (h : ∀ x, l = some x → pc ≠ x.e - 4) (nxt : W64) :
    loopEnd l pc nxt = (nxt, l) := by
  cases l with
  | none => rfl
  | some x => exact if_neg (h x rfl)

/-- A repetition that is not the last leaves the cursor at the word. -/
theorem State.retire_m_again {s : State} {r : RepSt} (hr : s.core.pc.rep = some r) (hn : 1 < r.n) :
    s.retire .m = (s.setCore { s.core with res := .issued }).setPiece
      { s.core.pc with rep := some { r with n := r.n - 1, first := false } } := by
  simp only [State.retire, hr]
  exact if_pos hn

/-- The last repetition, and a word outside a repetition, move on; away from the last word of a body the loop is kept. -/
theorem State.retire_m_next {s : State} (hr : ∀ r, s.core.pc.rep = some r → r.n ≤ 1)
    (hl : ∀ l, s.core.pc.mloop = some l → s.core.cm.pc ≠ l.e - 4) :
    s.retire .m = ((s.setCore { s.core with res := .issued }).setPiece { s.core.pc with rep := none }).setPc .m (s.core.cm.pc + 4) := by
  have hend : loopEnd s.core.pc.mloop (s.core.strm .m).pc ((s.core.strm .m).pc + BitVec.ofNat 64 4) =
      (s.core.cm.pc + 4, s.core.pc.mloop) := loopEnd_of_not_last hl _
  cases hrep : s.core.pc.rep with
  | none => simp only [State.retire, hrep, hend, State.setCore_core]
  | some r => simp only [State.retire, hrep, hend, Nat.not_lt.2 (hr r hrep), if_false, State.setCore_core]

/-! ## Words that REP may not repeat (R224) -/

/-- Outside a repetition such a word issues like any other. -/
theorem issueM_of_rep_none {s : State} (h : s.core.pc.rep = none) (r : Chk State) : issueM s r = issue .m s r := by
  simp only [issueM, h, Option.isSome_none, Bool.false_eq_true, if_false]

/-- After REP it is an Illegal Word, whatever it would do, and the repetition is discarded. -/
theorem issueM_of_rep {s : State} (h : s.core.pc.rep ≠ none) (r : Chk State) :
    issueM s r = .next ((s.setPiece { s.core.pc with rep := none }).takeTrap .m ⟨.illegalWord, 0, s.core.cm.iw.zeroExtend 64⟩) :=
  if_pos (Option.isSome_iff_ne_none.2 h)

/-- Each of these words asks whether a repetition is under way before it does anything. -/
theorem exec_unrepeatable {s : State} (h : s.core.pc.rep ≠ none) (i j k : BitVec 3) (v : BitVec 16) (t u : BitVec 2) (b a : Bool)
    (n : BitVec 12) (o : BitVec 19) : ∀ w ∈ Claims.unrepeatable i j k v t u b a n o, ∃ r, exec w s = issueM s r := by
  have hbfol : execMBfol o s = issueM s (s.illegal .m) := if_pos (Option.isSome_iff_ne_none.2 h)
  simp only [Claims.unrepeatable, List.forall_mem_cons, List.not_mem_nil, false_implies, implies_true, and_true]
  exact ⟨⟨_, rfl⟩, ⟨_, rfl⟩, ⟨_, rfl⟩, ⟨_, rfl⟩, ⟨_, rfl⟩, ⟨_, rfl⟩, ⟨_, rfl⟩, ⟨_, rfl⟩, ⟨_, hbfol⟩,
    ⟨_, rfl⟩, ⟨_, rfl⟩, ⟨_, rfl⟩, ⟨_, rfl⟩⟩

/-! ## REP (R224, R225) -/

/-- REP as the last word of a LOOP body. -/
theorem exec_rep_of_last {s : State} {l : LoopSt} (hr : s.core.pc.rep = none) (hl : s.core.pc.mloop = some l)
    (hpc : s.core.cm.pc = l.e - 4) (b a : Bool) (n : BitVec 12) :
    exec (.rep b a n) s = .next (s.takeTrap .m ⟨.loopFault, 0, 0⟩) := by
  show execRep b a n s = _
  simp only [execRep, issueM_of_rep_none hr, hl, hpc, BEq.rfl, if_true]
  rfl

/-- REP anywhere else ends like any word and sets the repetition. -/
theorem exec_rep_of_not_last {s : State} (hr : s.core.pc.rep = none) (hl : ∀ l, s.core.pc.mloop = some l → s.core.cm.pc ≠ l.e - 4)
    (b a : Bool) (n : BitVec 12) :
    exec (.rep b a n) s =
      .next ((s.retire .m).setPiece { (s.retire .m).core.pc with rep := some ⟨n.toNat + 1, a, b, true⟩ }) := by
  show execRep b a n s = _
  rw [execRep, issueM_of_rep_none hr]
  cases hm : s.core.pc.mloop with
  | none => rfl
  | some l => simp only [beq_false_of_ne (hl l hm), Bool.false_eq_true, if_false, issue_ok]

/-- REP by its place, words after it by whether they may be repeated, the end of a repetition by what is left of it. -/
theorem repWord : Claims.RepWord := by
  intro s b a n
  refine ⟨fun l hr hl hpc => exec_rep_of_last hr hl hpc b a n, fun hr hl => ⟨_, exec_rep_of_not_last hr hl b a n, ?_⟩,
    fun i j k v t u c d m o h w hw => ?_, fun r hr hn => ?_, fun r hr hn hl => ?_⟩
  · rw [State.retire_m_next (fun r h => by rw [hr] at h; cases h) hl]
    exact ⟨rfl, rfl, rfl⟩
  · obtain ⟨r, hexec⟩ := exec_unrepeatable h i j k v t u c d m o w hw
    rw [hexec, issueM_of_rep h]
  · rw [State.retire_m_again hr hn]
    exact ⟨rfl, rfl⟩
  · have hone : ∀ x, s.core.pc.rep = some x → x.n ≤ 1 := fun x hx => Option.some.inj (hr.symm.trans hx) ▸ hn
    rw [State.retire_m_next hone (fun l h => by rw [hl] at h; cases h)]
    exact ⟨rfl, rfl⟩

/-! ## Branches of M (R238) -/

/-- A branch of M on an outcome that is there pops it and goes with it. -/
theorem condQ_m_of_peek {s : State} {o : BitVec 19} {e : PV} (h : s.peek 12 1 = .ok [e]) (want : Bool) :
    condQ .m want o s = .ok (Claims.goes (s.popN 12 1) .m ((e.v != 0) == want) (s.target .m o)) := by
  rw [condQ, State.popBq, bqCode, h]
  · rfl
  all_goals exact Cl.noConfusion

/-- The branches of M, by the outcome that they pop. -/
theorem matrixBranches : Claims.MatrixBranches := by
  intro s o hr
  refine ⟨issueM_of_rep_none hr _, fun e he => ⟨?_, ?_⟩⟩
  · show issueM s (condQ .m true o s) = _
    rw [issueM_of_rep_none hr, condQ_m_of_peek he, issue_ok, beq_true]
  · show issueM s (condQ .m false o s) = _
    rw [issueM_of_rep_none hr, condQ_m_of_peek he, issue_ok, beq_false, bne, Bool.not_not]

/-! ## Index words, CLAMP, FREE and SHAPE -/

/-- The effective slot of an operand (R209). -/
theorem State.effSlot_of_iVal {s : State} {i : BitVec 3} {x : BitVec 16} (h : s.iVal i 1 = .ok x) (n : BitVec 4) :
    s.effSlot n i = .ok (n + x.truncate 4) := by
  rw [State.effSlot, h]
  rfl

/-- Each word once its index registers can be read. -/
theorem indexWords : Claims.MatrixIndexWords := by
  intro s i j k v n
  refine ⟨fun x hx => ⟨?_, ?_, fun hr => ?_, fun y z hr hy hz => ?_⟩, fun hr => ⟨plainM_of_rep_none hr _, plainM_of_rep_none hr _⟩⟩
  · show execClamp n i s = _
    rw [execClamp, State.effSlot_of_iVal hx]
    rfl
  · show execFree n i s = _
    rw [execFree, State.effSlot_of_iVal hx]
    rfl
  · show execMIadd i v s = _
    rw [execMIadd, plainM_of_rep_none hr, hx]
    rfl
  · show execShape i j k s = _
    rw [execShape, plainM_of_rep_none hr, hx, hy, hz]
    rfl

/-! ## Grants (R236) -/

/-- A request rounded up to whole units. -/
theorem le_mul_cdiv_lt {u : Nat} (hu : 0 < u) (v : Nat) : v ≤ u * cdiv v u ∧ u * cdiv v u < v + u := by
  have hdiv := Nat.div_add_mod (v + u - 1) u
  have hmod := Nat.mod_lt (v + u - 1) hu
  rw [cdiv]
  omega

/-- A grant of up to `q` units. -/
theorem grantOf_spec {u q : Nat} (hu : 0 < u) (hq : 0 < q) (v : Nat) :
    grantOf u (u * q) v ≤ u * q ∧ u ∣ grantOf u (u * q) v ∧ (grantOf u (u * q) v = 0 ↔ v = 0) ∧
    (v ≤ u * q → v ≤ grantOf u (u * q) v ∧ grantOf u (u * q) v < v + u) ∧ (u * q < v → grantOf u (u * q) v = u * q) := by
  obtain ⟨hle, hlt⟩ := le_mul_cdiv_lt hu v
  have hpos := Nat.mul_pos hu hq
  rw [grantOf]
  split
  · next hv => exact ⟨Nat.zero_le _, Nat.dvd_zero u, by omega, by omega, by omega⟩
  · next hv =>
    have hdvd : u ∣ min (u * cdiv v u) (u * q) := by
      rcases Nat.le_total (u * cdiv v u) (u * q) with h | h
      · rw [Nat.min_eq_left h]
        exact Nat.dvd_mul_right u _
      · rw [Nat.min_eq_right h]
        exact Nat.dvd_mul_right u _
    exact ⟨Nat.min_le_right _ _, hdvd, by omega, by omega, by omega⟩

/-- Rows and columns come in units of 8, depth in units of 32. -/
theorem shapeGrants : Claims.ShapeGrants := by
  intro v
  obtain ⟨hle, hdvd, hzero, hup, hmax⟩ := grantOf_spec (u := 8) (q := 8) (by decide) (by decide) v
  obtain ⟨hle', hdvd', hzero', hup', hmax'⟩ := grantOf_spec (u := 32) (q := 16) (by decide) (by decide) v
  exact ⟨hle, hle', hdvd, hdvd', hzero, hzero', hup, hup', hmax, hmax'⟩

/-- Settles O34: branches and index words by what they read, grants by their units, REP by its place and what is left of it. -/
theorem matrixIndexWords : Obligations.MatrixIndexWords := ⟨matrixBranches, indexWords, shapeGrants, repWord⟩

end Sys2Proof.Machine
end

section
/-! Epilogues and XPOSE as they issue (07 R226 to R231, R233, R237): the epilogue unit and the format word that EPI and EPIR take, the
output that waits to be seen, the rows that leave on a route, and the rows and columns that a grant leaves. -/
namespace Sys2Proof.Machine

/-! ## What EPI and EPIR take (R210, R228) -/

/-- The format word is popped, unit and tile are held, and the flags are set. -/
def State.takeEpi (s : State) (t : BitVec 2) (fl : Fl) : State := ((s.popN 8 1).holdEpi t).flagM fl

/-- A queue after a pop. -/
theorem State.popN_q_ents (s : State) (c n : Nat) : ((s.popN c n).core.q c).ents = (s.core.q c).ents.drop n :=
  congrArg Queue.ents (Map.get_set_same qEmpty ((s.core.q c).drop n s.cyc) s.core.qs c)

/-- A trap whose detail is a register or a slot. -/
theorem wordM_raise_toNat {w : Nat} (s : State) (ia ib : BitVec 3) (c : Cause) (n : BitVec w) (a : W64) :
    wordM s ia ib (raise c n.toNat a) = .next (s.takeTrap .m ⟨c, n.zeroExtend 16, a⟩) :=
  congrArg (fun sub => Host.Outcome.next (s.takeTrap .m ⟨c, sub, a⟩)) (BitVec.ofNat_toNat 16 n)

/-! ## EPI (R229) -/

/-- The output of an EPI that issues now. -/
def State.epiLanding (s : State) (t : BitVec 2) (ob : BitVec 4) (tr ge : Bool) (g : BitVec 6) (o : EpiJob) : Landing :=
  let sh := s.core.pc.epiShape tr
  let out := s.epiRows t tr o sh
  let w := fmtBits o.of_
  { epi := true, at_ := s.cyc + 66, start := s.cyc, slot := ob, tile := t, tr := tr, nr := sh.1, ne := sh.2.1, w := w,
    data := out.1.flatten, pois := sectorPois sh.1 sh.2.1 w (cdiv (sh.2.1 * w) 8) out.2.1, und := out.2.2.2,
    shp := ⟨true, o.of_, BitVec.ofNat 7 sh.1, BitVec.ofNat 10 sh.2.1⟩, gauge := if ge then some g else none }

/-- A landing put behind those on their way. -/
def State.addLanding (s : State) (l : Landing) : State := s.setCore { s.core with land := s.core.land ++ [l] }

section
variable {s : State} (t : BitVec 2)

/-- An EPI whose slot is known waits for unit and tile, makes its checks and queues its output. -/
theorem exec_epi {b ob : BitVec 4} {j : BitVec 3} (hb : s.effSlot b j = .ok ob) (tr ge : Bool) (g : BitVec 6) :
    exec (.epi t b j tr ge g) s =
      if s.epiBusy = true ∨ s.heldM t = true then .next (s.stalled false 0)
      else wordM s 0 j (do
        let o ← s.epiChecks t (s.core.pc.epiShape tr).2.2
        .ok ((s.takeEpi t (s.epiRows t tr o (s.core.pc.epiShape tr)).2.2.1).addLanding (s.epiLanding t ob tr ge g o))) := by
  show execEpi t b j tr ge g s = _
  simp only [execEpi, hb, bind, Except.bind, Bool.or_eq_true s.epiBusy, apply_ite (wordM s 0 j), wordM_wait]
  rfl

/-- One that is free to go and passes its checks. -/
theorem exec_epi_of_checks {b ob : BitVec 4} {j : BitVec 3} {tr : Bool} {o : EpiJob} (hb : s.effSlot b j = .ok ob)
    (hfree : ¬(s.epiBusy = true ∨ s.heldM t = true)) (ho : s.epiChecks t (s.core.pc.epiShape tr).2.2 = .ok o) (ge : Bool) (g : BitVec 6) :
    exec (.epi t b j tr ge g) s = .next (Claims.repeated
      ((s.takeEpi t (s.epiRows t tr o (s.core.pc.epiShape tr)).2.2.1).addLanding (s.epiLanding t ob tr ge g o)) 0 j) := by
  rw [exec_epi t hb, if_neg hfree, ho]
  rfl

/-! ## EPIR (R230, R231) -/

/-- The EPIR that an issue now starts on a route. -/
def State.newEpir (s : State) (t : BitVec 2) (tr ge : Bool) (g : BitVec 6) (r : Route) (o : EpiJob) : Epir :=
  let sh := s.core.pc.epirShape tr
  let st := (s.ctx s.core.pc.ctx).step
  { id := s.nextId, core := s.k, start := s.cyc, tile := t, tr := tr, nr := sh.1, ne := sh.2.1, job := o, rows := [], und := 0, rt := r,
    ctx := s.core.pc.ctx, li := s.core.pc.li, pid := s.core.pc.pid, att := st.t, open_ := st.open_,
    gauge := if ge then some g else none, left := List.range sh.1, since := s.cyc, acks := [], conflict := false, faulted := false }

/-- An EPIR put behind those under way, its route advanced. -/
def State.addEpir (s : State) (n : Nat) (r : Route) (e : Epir) : State :=
  s.setCore { s.core.setRoute n { r with addr := r.addr + r.adv.signExtend 57, seq := r.seq + 1 } with epir := s.core.epir ++ [e] }

theorem State.addEpir_routeOf (s : State) (n : Nat) (r : Route) (e : Epir) :
    (s.addEpir n r e).core.routeOf n = { r with addr := r.addr + r.adv.signExtend 57, seq := r.seq + 1 } :=
  Map.get_set_same routeEmpty _ s.core.route n

/-- An output row of `len` bytes leaves the bounds of its route. -/
def Route.outside (r : Route) (len q : Nat) : Bool := decide (r.rowAddr q < r.lo) || decide (r.hi < r.rowAddr q + len)

/-- An EPIR that has passed the checks of the epilogue: its route valid, every row inside its bounds, then its rows. -/
def State.epirOnRoute (s : State) (t n : BitVec 2) (tr ge : Bool) (g : BitVec 6) (o : EpiJob) : Chk State :=
  let sh := s.core.pc.epirShape tr
  let r := s.core.routeOf n.toNat
  if r.val = false then raise .routeInvalid n.toNat
  else match (List.range sh.1).find? (r.outside (cdiv (sh.2.1 * fmtBits o.of_) 8)) with
    | some q => raise .capabilityFault 4 (BitVec.ofNat 64 (r.rowAddr q))
    | none => .ok ((s.takeEpi t (s.epiRows t tr o sh).2.2.1).fresh.addEpir n.toNat r (s.newEpir t tr ge g r o))

/-- An EPIR waits for unit and tile, makes its checks and then looks at its route. -/
theorem exec_epir (n : BitVec 2) (tr ge : Bool) (g : BitVec 6) :
    exec (.epir t n tr ge g) s =
      if s.epiBusy = true ∨ s.heldM t = true then .next (s.stalled false 0)
      else wordM s 0 0 (do
        let o ← s.epiChecks t (s.core.pc.epirShape tr).2.2
        s.epirOnRoute t n tr ge g o) := by
  show execEpir t n tr ge g s = _
  simp only [execEpir, bind, Except.bind, Bool.or_eq_true s.epiBusy, apply_ite (wordM s 0 0), wordM_wait, Bool.not_eq_true']
  rfl

end

/-- A route that is not valid comes before its bounds. -/
theorem State.epirOnRoute_of_invalid {s : State} {t n : BitVec 2} {tr ge : Bool} {g : BitVec 6} {o : EpiJob}
    (hv : (s.core.routeOf n.toNat).val = false) : s.epirOnRoute t n tr ge g o = raise .routeInvalid n.toNat := if_pos hv

section
variable {s : State} {n : BitVec 2} {tr : Bool} {o : EpiJob} (hv : (s.core.routeOf n.toNat).val = true)
  (t : BitVec 2) (ge : Bool) (g : BitVec 6)
include hv

/-- The lowest row that leaves the bounds of a valid route traps. -/
theorem State.epirOnRoute_of_outside {q : Nat}
    (hq : (List.range (s.core.pc.epirShape tr).1).find?
      ((s.core.routeOf n.toNat).outside (cdiv ((s.core.pc.epirShape tr).2.1 * fmtBits o.of_) 8)) = some q) :
    s.epirOnRoute t n tr ge g o = raise .capabilityFault 4 (BitVec.ofNat 64 ((s.core.routeOf n.toNat).rowAddr q)) := by
  simp only [State.epirOnRoute, hv, hq, Bool.true_eq_false, if_false]

/-- On a valid route with every row inside its bounds the rows are on their way. -/
theorem State.epirOnRoute_of_inside
    (hq : (List.range (s.core.pc.epirShape tr).1).find?
      ((s.core.routeOf n.toNat).outside (cdiv ((s.core.pc.epirShape tr).2.1 * fmtBits o.of_) 8)) = none) :
    s.epirOnRoute t n tr ge g o =
      .ok ((s.takeEpi t (s.epiRows t tr o (s.core.pc.epirShape tr)).2.2.1).fresh.addEpir n.toNat (s.core.routeOf n.toNat)
        (s.newEpir t tr ge g (s.core.routeOf n.toNat) o)) := by
  simp only [State.epirOnRoute, hv, hq, Bool.true_eq_false, if_false]

end

/-! ## Grants (R237) -/

/-- What a grant leaves of the output of EPI and of EPIR. -/
theorem Piece.shapes_of_grant {p : Piece} {m n k : Nat} (h : p.grant = some (m, n, k)) (tr : Bool) :
    p.epiShape tr = (if tr then (n, m, m) else (m, n, m)) ∧
    p.epirShape tr = (if tr then (n, 64, if n = 0 then 0 else 64) else (m, 64, m)) := by
  rw [Piece.epiShape, Piece.epirShape, h]
  exact ⟨rfl, rfl⟩

/-! ## XPOSE (R233) -/

/-- The record of a source that XPOSE takes. -/
abbrev Shape.xposeOk (r : Shape) : Prop := r.val = true ∧ r.rows ≠ 0 ∧ r.klen.toNat ≤ 64 ∧ fmtBits r.fmt ∈ [8, 16, 32]

/-- The transposed source, to be seen in its slot. -/
def State.xposeLanding (s : State) (oa ob : BitVec 4) : Landing :=
  let r := s.core.shapeOf oa.toNat
  let w := fmtBits r.fmt
  let rows := r.rows.toNat
  let kl := r.klen.toNat
  let off := fun k r' => r' * (kl * w / 8) + k * w / 8
  { epi := false, at_ := s.cyc + 66, start := s.cyc, slot := ob, tile := 0, tr := false, nr := kl, ne := rows, w := w,
    data := (List.range kl).flatMap (fun k =>
      packElems w ((List.range rows).map (fun r' => natLE (s.core.slotBytes oa.toNat (off k r') (w / 8))))),
    pois := sectorPois kl rows w (rows * w / 8) (fun k r' => s.core.slotBad oa.toNat (off k r')), und := 0,
    shp := ⟨true, r.fmt, BitVec.ofNat 7 kl, BitVec.ofNat 10 rows⟩, gauge := none }

/-- The check of XPOSE on its source. -/
theorem xposeFails_iff (r : Shape) :
    (!(r.val && r.rows.toNat != 0 && decide (r.klen.toNat ≤ 64) && (fmtBits r.fmt == 8 || fmtBits r.fmt == 16 || fmtBits r.fmt == 32))) = true ↔
      ¬r.xposeOk := by
  have hrows : r.rows.toNat = 0 ↔ r.rows = 0 := BitVec.toNat_inj (y := 0)
  rw [Bool.not_eq_true', ← Bool.not_eq_true]
  simp only [Shape.xposeOk, Bool.and_eq_true, Bool.or_eq_true, bne_iff_ne, ne_eq, hrows, decide_eq_true_eq, beq_iff_eq, List.mem_cons,
    List.not_mem_nil, or_false, or_assoc, and_assoc]

/-- An XPOSE whose slots are known waits for the permute path, checks its source and queues its output. -/
theorem exec_xpose {s : State} {a b oa ob : BitVec 4} {i j : BitVec 3} (ha : s.effSlot a i = .ok oa) (hb : s.effSlot b j = .ok ob) :
    exec (.xpose a b i j) s =
      if s.cyc < s.core.permute then .next (s.stalled false 0)
      else wordM s i j (if ¬(s.core.shapeOf oa.toNat).xposeOk then raise .shapeMismatch oa.toNat
        else .ok (s.setCore { s.core with permute := s.cyc + 64, land := s.core.land ++ [s.xposeLanding oa ob] })) := by
  show execXpose a b i j s = _
  simp only [execXpose, ha, hb, bind, Except.bind, xposeFails_iff, apply_ite (wordM s i j), wordM_wait]
  rfl

/-! ## The words -/

/-- Settles O36: unit and tile first, then the checks, then the output; a grant by what it leaves. -/
theorem epilogueWords : Obligations.EpilogueWords := by
  intro s t n b j tr ge g ob hb
  have hepi := exec_epi t hb tr ge g
  have hepir := exec_epir (s := s) t n tr ge g
  have hfree (h1 : s.epiBusy = false) (h2 : s.heldM t = false) : ¬(s.epiBusy = true ∨ s.heldM t = true) :=
    fun h => h.elim (Bool.eq_false_iff.1 h1) (Bool.eq_false_iff.1 h2)
  refine ⟨fun h => ⟨hepi.trans (if_pos h), hepir.trans (if_pos h)⟩, fun x h1 h2 => ⟨fun hx => ?_, fun hx => ?_⟩,
    fun o h1 h2 ho => ?_, fun o h1 h2 ho => ?_, fun m n' k hk => ?_, fun a i oa ha => ?_⟩
  · rw [hepi, if_neg (hfree h1 h2), hx]
    rfl
  · rw [hepir, if_neg (hfree h1 h2), hx]
    rfl
  · exact ⟨_, exec_epi_of_checks t hb (hfree h1 h2) ho ge g, rfl, s.popN_q_ents 8 1, rfl, rfl, _, rfl, rfl, rfl, rfl, rfl, rfl, rfl,
      rfl, rfl, rfl⟩
  · have hroute : exec (.epir t n tr ge g) s = wordM s 0 0 (s.epirOnRoute t n tr ge g o) := by
      rw [hepir, if_neg (hfree h1 h2), ho]
      rfl
    refine ⟨fun hv => ?_, fun q hv hq => ?_, fun hv hq => ⟨_, hroute.trans (congrArg _ (State.epirOnRoute_of_inside hv t ge g hq)), rfl,
      s.popN_q_ents 8 1, rfl, State.addEpir_routeOf .., _, rfl, rfl, rfl, rfl, rfl, rfl, rfl, rfl, rfl, rfl⟩⟩
    · rw [hroute, State.epirOnRoute_of_invalid hv, wordM_raise_toNat]
    · rw [hroute, State.epirOnRoute_of_outside hv t ge g hq]
      rfl
  · have hshape := Piece.shapes_of_grant hk
    obtain ⟨hepiF, hepirF⟩ := hshape false
    obtain ⟨hepiT, hepirT⟩ := hshape true
    refine ⟨hepiF, hepiT, congrArg Prod.fst hepirF, congrArg Prod.fst hepirT, fun b => ?_⟩
    cases b with
    | false => exact congrArg (fun e => e.2.1) hepirF
    | true => exact congrArg (fun e => e.2.1) hepirT
  · have hx := exec_xpose ha hb
    refine ⟨fun hp => hx.trans (if_pos hp), fun hp hok => ?_, fun hp hok => ?_⟩
    all_goals rw [if_neg (Nat.not_lt.2 hp)] at hx
    · rw [hx, if_pos hok, wordM_raise_toNat]
    · exact ⟨_, _, hx.trans (congrArg _ (if_neg (not_not_intro hok))), rfl, rfl, rfl, rfl, rfl⟩

end Sys2Proof.Machine
end

section
/-! Engines take operations (08 R250, R259, R264, R267, R268, 11 R313, 20 R465): what an engine does with the head of its queue, when a gadd
adds, and how the operation of a stop that has become true enters its engine's queue. -/
namespace Sys2Proof.Machine

/-! ## ENGINE_TAKES_OPERATION (R250, R259, R264) -/

/-- An engine finds nothing that it may take. -/
theorem exec_engineTakesOperation_of_idle {s : State} {e : Eng} (h : s.core.headOp e = none ∨ s.core.halt = .freeze) :
    exec (.engineTakesOperation e) s = .next s := by
  show execEngineTakesOperation e s = _
  rw [execEngineTakesOperation]
  rcases h with hn | hf
  · rw [hn]
  · split
    · rfl
    · rw [if_pos hf]

/-- Else it takes the head of its queue. -/
theorem exec_engineTakesOperation_of_headOp {s : State} {e : Eng} {o : Op} (h : s.core.headOp e = some o) (hf : s.core.halt ≠ .freeze) :
    exec (.engineTakesOperation e) s = .next (s.takeEngine o) := by
  show execEngineTakesOperation e s = _
  simp only [execEngineTakesOperation, h, if_neg hf]

/-- An operation is taken as its engine takes it. -/
theorem State.takeEngine_of_eng (s : State) {o : Op} :
    (o.eng = .ga → s.takeEngine o = s.takeGa o) ∧ (o.eng = .gl → s.takeEngine o = s.takeGl o) ∧
    (o.eng = .vc → s.takeEngine o = s.takeVc o) ∧
    (o.eng = .mo → s.takeEngine o = if s.moWaits s.k o then s else (s.takeMo o).leaves o) ∧
    (o.eng = .dv → s.takeEngine o = (s.takeDv o).leaves o) := by
  and_intros <;> (intro h; rw [State.takeEngine, h])

section
variable (s : State) {o : Op}

/-- A `glveto` sets flags of an attempt that is open. -/
theorem State.takeGl_of_veto (h : nb o.word.toNat 10 2 = 0) :
    s.takeGl o = if (s.ctx o.ctx).step.open_ = true then (s.setCore (s.core.takeOp o)).veto o.ctx (BitVec.ofNat 5 o.word.toNat)
      else s.setCore (s.core.takeOp o) := if_pos h

/-- A `glnote` of the attempt that is open waits for its decision. -/
theorem State.takeGl_of_note_open (h : nb o.word.toNat 10 2 ≠ 0)
    (hnow : (s.ctx o.ctx).step.open_ = true ∧ (s.ctx o.ctx).step.t = o.att) :
    s.takeGl o = (s.setCore (s.core.takeOp o)).setStep o.ctx { (s.ctx o.ctx).step with
      notes := (s.ctx o.ctx).step.notes ++ [(noteKey o, nb o.word.toNat 9 1 == 1)] } := by
  simp only [State.takeGl, if_neg h, hnow, beq_self_eq_true, Bool.and_self, if_true]

/-- One of an attempt that has been decided adds at once, but where it asks for a commit and the attempt is dead. -/
theorem State.takeGl_of_note_decided (h : nb o.word.toNat 10 2 ≠ 0)
    (hnow : ¬((s.ctx o.ctx).step.open_ = true ∧ (s.ctx o.ctx).step.t = o.att)) :
    s.takeGl o = if nb o.word.toNat 9 1 = 1 ∧ (Map.get none (s.ctx o.ctx).dead o.att.toNat).isSome then s.setCore (s.core.takeOp o)
      else (s.setCore (s.core.takeOp o)).addGaugeAt (noteKey o) 1 := by
  simp only [State.takeGl, if_neg h, Bool.and_eq_true, beq_iff_eq, if_neg hnow]

end

/-- The head of a queue by its engine, and an operation of GL by its word and its attempt. -/
theorem engineTakes : Claims.EngineTakes := by
  intro s e
  refine ⟨exec_engineTakesOperation_of_idle, fun o ho hf => ?_⟩
  rw [exec_engineTakesOperation_of_headOp ho hf]
  obtain ⟨hga, hgl, hvc, hmo, hdv⟩ := s.takeEngine_of_eng (o := o)
  refine ⟨fun h => ⟨congrArg _ (hga h), rfl, rfl⟩, fun h hw => ?_, fun h hw => ⟨fun hnow => ?_, fun hnow => ?_⟩,
    fun h => congrArg _ (hvc h), fun h => congrArg _ (hmo h), fun h => congrArg _ (hdv h)⟩
  · rw [hgl h, s.takeGl_of_veto hw]
  · rw [hgl h, s.takeGl_of_note_open hw hnow]
  · rw [hgl h, s.takeGl_of_note_decided hw hnow]

/-! ## GADD_APPLY (R267) -/

theorem exec_gaddApply_of_none {s : State} {e : Eng} (h : (s.core.engineQueue e).find? Op.isGadd = none) :
    exec (.gaddApply e) s = .next s := by
  show execGaddApply e s = _
  rw [execGaddApply, h]

section
variable {s : State} {e : Eng} {o : Op} (h : (s.core.engineQueue e).find? Op.isGadd = some o)
include h

/-- A gadd waits for what is before it in its queue. -/
theorem exec_gaddApply_of_held (hw : s.earlierOpen e o.id = true ∨ s.core.halt = .freeze) : exec (.gaddApply e) s = .next s := by
  show execGaddApply e s = _
  have hheld : (s.earlierOpen e o.id || s.core.halt == .freeze) = true := by
    simpa only [Bool.or_eq_true, beq_iff_eq] using hw
  simp only [execGaddApply, h, hheld, if_true]

/-- With all of that completed it leaves its queue and adds. -/
theorem exec_gaddApply_of_turn (he : s.earlierOpen e o.id = false) (hf : s.core.halt ≠ .freeze) :
    exec (.gaddApply e) s = .next ((s.setCore (s.core.takeOp o)).addGauge
      ⟨nb o.word.toNat 8 1 == 1, BitVec.ofNat 8 o.word.toNat⟩ ((o.args.headD ⟨0, .plain⟩).v.toNat % 2 ^ 32)) := by
  show execGaddApply e s = _
  simp [execGaddApply, h, he, hf]

end

/-! ## A log that is off (21 R496 to R498) -/

/-- SCRCFG of zero turns the log off: its size is none that R497 allows. -/
theorem GCtx.scribeMode_of_scrcfg_zero {g : GCtx} (h : g.scrcfg = 0) : g.scribeMode = 0 := by
  simp [GCtx.scribeMode, GCtx.lsz, h, bitsOf]

section
variable {s : State} {c : Ctx} (h : (s.gctx c).scribeMode = 0) (kind unit data : Nat)
include h

theorem State.nextLogged_of_scribeOff : s.nextLogged c kind unit = none := by
  simp only [State.nextLogged, State.source, h]

/-- Without a log to follow, no unit holds an event back. -/
theorem State.scribeAllows_of_scribeOff : s.scribeAllows c kind unit data = true := by
  rw [State.scribeAllows, State.nextLogged_of_scribeOff h]

/-- Nothing is recorded. -/
theorem State.scribeEvent_of_scribeOff : s.scribeEvent c kind unit data = s := by
  rw [State.scribeEvent, State.nextLogged_of_scribeOff h]
  exact if_pos (by rw [h]; decide)

end

/-! ## What a request changes (19 R441) -/

/-- A state with other packets and requests, and with other identifiers given out. -/
def State.withNet (s : State) (f : Fab) (n : Nat) : State := { s with fab := f, nextId := n }

/-- A packet that leaves is a change of the fabric. -/
theorem State.send_eq_setFab (s : State) (pk : Packet) : ∃ f, s.send pk = s.setFab f := by
  rw [State.send]
  split
  · exact ⟨s.fab, rfl⟩
  · exact ⟨_, rfl⟩

/-- A request changes packets and identifiers and nothing else. -/
theorem State.request_eq_withNet (s : State) (r : Req) (pk : Packet) : ∃ f n, s.request r pk = s.withNet f n := by
  obtain ⟨f, hf⟩ := State.send_eq_setFab _ _
  rw [State.request, hf]
  exact ⟨f, _, rfl⟩

theorem State.askFar_eq_withNet (s : State) (who pa : Nat) (c : Ctx) (li k : Nat) : ∃ f n, s.askFar who pa c li k = s.withNet f n := by
  rw [State.askFar]
  split
  · exact ⟨s.fab, s.nextId, rfl⟩
  · exact s.request_eq_withNet _ _

/-- Changes of packets and identifiers one after another are one. -/
theorem State.foldl_eq_withNet {α : Type} {f : State → α → State} (hf : ∀ s x, ∃ g n, f s x = s.withNet g n) (l : List α) (s : State) :
    ∃ g n, l.foldl f s = s.withNet g n :=
  List.foldlRecOn l f (motive := fun t => ∃ g n, t = s.withNet g n) ⟨s.fab, s.nextId, rfl⟩ fun t ht x _ => by
    obtain ⟨g, n, rfl⟩ := ht
    obtain ⟨g', n', h⟩ := hf (s.withNet g n) x
    exact ⟨g', n', h⟩

/-- The block of a `coll` is read into the operation, or asked for (20 R465). -/
theorem State.blockAtFire_eq_withNet (s : State) (o : Op) :
    (∃ f n, (s.blockAtFire o).1 = s.withNet f n) ∧ ∃ b, (s.blockAtFire o).2 = { o with blk := b } := by
  rw [State.blockAtFire]
  split
  · exact ⟨⟨_, s.nextId, rfl⟩, _, rfl⟩
  · exact ⟨⟨_, s.nextId, rfl⟩, _, rfl⟩
  · refine ⟨State.foldl_eq_withNet (fun t a => ?_) _ s, o.blk, rfl⟩
    split
    · exact t.askFar_eq_withNet ..
    · exact ⟨t.fab, t.nextId, rfl⟩

/-- An operation that is no `coll` keeps its block. -/
theorem State.blockIfColl_eq_withNet (s : State) (o : Op) :
    ∃ f n b, (if o.word.toNat / 256 = 0x70 then s.blockAtFire o else (s, o)) = (s.withNet f n, { o with blk := b }) ∧
      (o.word.toNat / 256 ≠ 0x70 → b = o.blk) := by
  split
  · next h =>
    obtain ⟨⟨f, n, hs⟩, b, ho⟩ := s.blockAtFire_eq_withNet o
    exact ⟨f, n, b, Prod.ext hs ho, fun hn => absurd h hn⟩
  · exact ⟨s.fab, s.nextId, o.blk, rfl, fun _ => rfl⟩

/-! ## STOP_FIRE (R268, R313) -/

/-- A firing stop's operation as it enters its queue: issued now, in the attempt held now, but for a note. -/
def State.firedOp (s : State) (o : Op) : Op :=
  { (if o.eng == .gl && nb o.word.toNat 10 2 ≠ 0 then o
      else { o with att := (s.ctx o.ctx).step.t, stepOpen := (s.ctx o.ctx).step.open_ }) with c := s.cyc, id := s.nextId }

/-- The same, with the condition of a note as the statement has it. -/
theorem State.firedOp_eq (s : State) (o : Op) :
    s.firedOp o = { (if o.eng = .gl ∧ nb o.word.toNat 10 2 ≠ 0 then o
      else { o with att := (s.ctx o.ctx).step.t, stepOpen := (s.ctx o.ctx).step.open_ }) with c := s.cyc, id := s.nextId } := by
  simp only [State.firedOp, Bool.and_eq_true, beq_iff_eq, decide_eq_true_eq]

/-- The firing keeps core, engine, word and block of its operation. -/
theorem State.firedOp_fields (s : State) (o : Op) :
    (s.firedOp o).core = o.core ∧ (s.firedOp o).eng = o.eng ∧ (s.firedOp o).word = o.word ∧ (s.firedOp o).blk = o.blk := by
  rw [State.firedOp]
  split <;> exact ⟨rfl, rfl, rfl, rfl⟩

/-- The firing leaves its stop, where others may wait. -/
def State.firedStop (s : State) (c : Ctx) (key : Nat) (rest : List (Nat × Op)) : State :=
  ((s.countOrdinal c (2048 + stopUnit key)).setStop key { s.stop key with fired := rest }).fresh

/-- A core with an operation at the end of its engine's queue; a `route` changes two cycles later (R262). -/
def Core.enqueued (c : Core) (now : Nat) (o : Op) : Core :=
  (match o.rt with
    | some r => { c with routePend := c.routePend ++ [(now + 2, o.word.toNat % 4, r)] }
    | none => c).setEngineQueue o.eng (c.engineQueue o.eng ++ [o])

theorem Core.enqueued_engineQueue (c : Core) (now : Nat) (o : Op) : (c.enqueued now o).engineQueue o.eng = c.engineQueue o.eng ++ [o] :=
  Map.get_set_same [] _ _ (engIdx o.eng)

/-- A stop with nothing to fire. -/
theorem State.fireStop_of_none {s : State} {key : Nat} (h : (s.stop key).fired = []) : s.fireStop key = s := by
  rw [State.fireStop, h]

/-- No stop goes ahead of the only one that fires. -/
theorem State.none_stopAhead {s : State} {key : Nat} (h : ∀ x ∈ s.shr.stops, x.1 ≠ key → x.2.fired = []) (d : Nat) :
    s.shr.stops.any (fun e => stopAhead key e.1 && e.2.fired.any (fun f => f.1 == d)) = false := by
  refine List.any_eq_false.2 fun x hx => ?_
  by_cases hk : x.1 = key
  · simp [stopAhead, hk]
  · simp [h x hx hk]

section
variable {s : State} {key d : Nat} {o : Op} {rest : List (Nat × Op)} (hfired : (s.stop key).fired = (d, o) :: rest)
  (hlog : (s.gctx o.ctx).scrcfg = 0) (hfirst : ∀ x ∈ s.shr.stops, x.1 ≠ key → x.2.fired = [])
include hfired hlog hfirst

/-- It fires: its operation enters its queue, a `coll` with its block read first. -/
theorem State.fireStop_eq_at :
    s.fireStop key =
      let u := s.firedStop o.ctx key rest
      let x := s.firedOp o
      let p := if x.word.toNat / 256 = 0x70 then u.blockAtFire x else (u, x)
      p.1.at p.2.core (fun t => t.setCore (t.core.enqueued p.1.cyc p.2)) := by
  have hoff := GCtx.scribeMode_of_scrcfg_zero hlog
  have hgo : ¬(s.shr.stops.any (fun e => stopAhead key e.1 && e.2.fired.any (fun f => f.1 == d)) ||
      !s.scribeAllows o.ctx 8 (stopUnit key) (s.stopEntry o.ctx key)) = true := by
    rw [State.none_stopAhead hfirst, State.scribeAllows_of_scribeOff hoff]
    exact Bool.false_ne_true
  rw [State.fireStop, hfired]
  refine (if_neg hgo).trans ?_
  rw [State.scribeEvent_of_scribeOff hoff]
  rfl

/-- On the core in focus that changes the stop, packets and identifiers, and the queue. -/
theorem State.fireStop_of_fired (hcore : o.core = s.k) :
    ∃ f n b, s.fireStop key = ((s.firedStop o.ctx key rest).withNet f n).setCore (s.core.enqueued s.cyc { s.firedOp o with blk := b }) ∧
      (o.word.toNat / 256 ≠ 0x70 → b = o.blk) := by
  obtain ⟨hc, -, hw, hb⟩ := s.firedOp_fields o
  obtain ⟨f, n, b, hread, hblk⟩ := (s.firedStop o.ctx key rest).blockIfColl_eq_withNet (s.firedOp o)
  rw [hw, hb] at hblk
  refine ⟨f, n, b, ?_, hblk⟩
  rw [State.fireStop_eq_at hfired hlog hfirst]
  simp only [hread, hc, hcore]
  exact State.at_self rfl

end

/-- A gadd by what is before it, a stop by what it has fired. -/
theorem gaddAndStops : Claims.GaddAndStops := by
  intro s e dev n
  have hexec : exec (.stopFire dev n) s = .next (s.fireStop (s.stopKey dev n.toNat)) := rfl
  refine ⟨exec_gaddApply_of_none, fun o h => ⟨exec_gaddApply_of_held h, exec_gaddApply_of_turn h⟩,
    fun h => by rw [hexec, State.fireStop_of_none h], fun d o rest hfired hcore hlog hfirst => ?_⟩
  obtain ⟨f, m, b, ht, hblk⟩ := State.fireStop_of_fired hfired hlog hfirst hcore
  obtain ⟨-, heng, -, -⟩ := s.firedOp_fields o
  refine ⟨_, { s.firedOp o with blk := b }, hexec.trans (congrArg _ ht), ?_, rfl, ?_, ?_, hblk⟩
  · exact congrArg Stop.fired (Map.get_set_same stopEmpty _ s.shr.stops _)
  · rw [← heng]
    exact s.core.enqueued_engineQueue s.cyc { s.firedOp o with blk := b }
  · rw [s.firedOp_eq o]

/-- Settles O40: an operation by its engine, a gadd by what is before it, a stop by what it has fired. -/
theorem engineOperations : Obligations.EngineOperations := ⟨engineTakes, gaddAndStops⟩

end Sys2Proof.Machine
end

section
/-! Commands of a stream (13 R328, R331, R332, R334, R514): what a command leaves by its result, the commands that a part that does not
run passes over, loops and conditions, signals, fences, writes, and deferred signals. -/
namespace Sys2Proof.Machine

/-! ## The command at HEAD (R328, R330, R334) -/

/-- What a command of stream `n` leaves of the state `s` that it found. -/
def CmdRes.leaves (s : State) (n : BitVec 6) : CmdRes → State
  | .done t => Claims.finished s n t
  | .goto t h => ((t.dropGot (whoStream n.toNat)).setStream n
      { (t.dropGot (whoStream n.toNat)).streamOf n with head := h, state := 1 }).went resStreams n.toNat
  | .hold t => Claims.held n t
  | .wait => Claims.waiting s n
  | .fault c => Claims.faults s n c

section
variable {s : State} {n : BitVec 6} {f : Stream → CmdRes}

theorem command_of_idle (h : s.streamRuns n = false) : command n s f = .next s := by
  rw [command, h]
  rfl

theorem command_of_runs {r : CmdRes} (h : s.streamRuns n = true) (hr : f (Claims.here s n) = r) : command n s f = .next (r.leaves s n) := by
  have hr' : f { s.streamOf n with busy := none } = r := hr
  simp only [command, h, hr', Bool.not_true, Bool.false_eq_true, if_false]
  cases r <;> rfl

theorem commandUnless_of_skip (h : s.streamRuns n = true) (hs : (s.streamOf n).skip ≠ 0) :
    commandUnless n s f = .next (Claims.finished s n s) :=
  command_of_runs h (r := .done s) (if_pos hs)

theorem commandUnless_of_runs {r : CmdRes} (h : Claims.runsCmd s n) (hr : f (Claims.here s n) = r) :
    commandUnless n s f = .next (r.leaves s n) :=
  command_of_runs h.1 ((if_neg (not_not_intro h.2)).trans hr)

end

/-! ## Commands passed over, and nests (R332) -/

theorem exec_eq_commandUnless_of_passedOver {n : BitVec 6} {a b : W64} {t : BitVec 32} {g f : BitVec 8} {m : BitVec 9} {h : Bool}
    {i : Instr} (hi : i ∈ Claims.passedOver n a b t g f m h) (s : State) : ∃ F, exec i s = commandUnless n s F := by
  simp only [Claims.passedOver, List.mem_cons, List.not_mem_nil, or_false] at hi
  rcases hi with rfl | rfl | rfl | rfl | rfl | rfl | rfl | rfl | rfl | rfl
  all_goals
    simp only [exec, execLaunch, launchCmd]
    exact ⟨_, rfl⟩

theorem exec_eq_command_of_nesting {n : BitVec 6} {a : W64} {h : Bool} {t : BitVec 32} {g : BitVec 8} {i : Instr}
    (hi : i ∈ [Instr.cmdLoop n a, .endLoop n, .cmdIf n h t g, .cmdElse n, .endIf n]) (s : State) : ∃ F, exec i s = command n s F := by
  simp only [List.mem_cons, List.not_mem_nil, or_false] at hi
  rcases hi with rfl | rfl | rfl | rfl | rfl
  all_goals
    simp only [exec]
    exact ⟨_, rfl⟩

theorem State.streamOf_setStream_same (s : State) (n : BitVec 6) (x : Stream) : (s.setStream n x).streamOf n = x :=
  Map.get_set_same streamEmpty x s.die.streams n.toNat

theorem State.streamOf_streamFault (s : State) (n : BitVec 6) (c : Nat) : (s.streamFault n c).streamOf n =
    { s.streamOf n with state := 4, fcode := BitVec.ofNat 8 c, intr := true } := by
  rw [State.streamFault, State.streamOf_setStream_same, Stream.interrupt, Bool.or_true]

theorem exec_of_noPartner {s : State} {n : BitVec 6} {i : Instr} (h : s.streamRuns n = true) (hn : (Claims.here s n).nest = [])
    (hi : i ∈ [Instr.endLoop n, .cmdElse n, .endIf n]) : exec i s = .next (Claims.faults s n 2) := by
  simp only [List.mem_cons, List.not_mem_nil, or_false] at hi
  rcases hi with rfl | rfl | rfl
  · show execEndLoop n s = _
    exact command_of_runs h (r := .fault 2) (by simp only [hn])
  · show execCmdElse n s = _
    exact command_of_runs h (r := .fault 2) (by simp only [hn])
  · show execEndIf n s = _
    exact command_of_runs h (r := .fault 2) (by simp only [hn])

/-- A stream by whether it runs, whether it passes over, and its nest. -/
theorem streamRules : Claims.StreamRules := by
  intro s n a b t g f m h
  refine ⟨fun hrun i hi => ?_, fun hrun hskip i hi => ?_, fun hrun hdeep => ⟨?_, ?_⟩, fun hrun hn i => exec_of_noPartner hrun hn,
    fun c => ?_⟩
  · rcases List.mem_append.1 hi with hi | hi
    · obtain ⟨F, hF⟩ := exec_eq_commandUnless_of_passedOver hi s
      exact hF.trans (command_of_idle hrun)
    · obtain ⟨F, hF⟩ := exec_eq_command_of_nesting hi s
      exact hF.trans (command_of_idle hrun)
  · obtain ⟨F, hF⟩ := exec_eq_commandUnless_of_passedOver hi s
    exact hF.trans (commandUnless_of_skip hrun hskip)
  · show execCmdLoop n a s = _
    exact command_of_runs hrun (r := .fault 2) (if_pos hdeep)
  · show execCmdIf n h t g s = _
    exact command_of_runs hrun (r := .fault 2) (if_pos hdeep)
  · rw [State.streamOf_streamFault]
    exact ⟨rfl, rfl, rfl, rfl⟩

/-! ## Loops and conditions (R331, R332) -/

section
variable {s : State} {n : BitVec 6} (h : s.streamRuns n = true)
include h

theorem execCmdLoop_runs {cnt : W64} (hn : (Claims.here s n).nest.length < 8) (hs : (Claims.here s n).skip = 0) (hc : cnt ≠ 0) :
    execCmdLoop n cnt s = .next (Claims.finished s n (s.setStream n { Claims.here s n with
      nest := .loop ((Claims.here s n).next (Claims.here s n).head).toNat cnt.toNat :: (Claims.here s n).nest })) :=
  command_of_runs h (r := .done _) ((if_neg (Nat.not_le.2 hn)).trans (if_neg (by simpa [hs] using hc)))

theorem execCmdLoop_passes {cnt : W64} (hn : (Claims.here s n).nest.length < 8) (hs : (Claims.here s n).skip ≠ 0 ∨ cnt = 0) :
    execCmdLoop n cnt s = .next (Claims.finished s n (s.setStream n { Claims.here s n with
      nest := .loop 0 0 :: (Claims.here s n).nest, skip := (Claims.here s n).skip + 1 })) :=
  command_of_runs h (r := .done _) ((if_neg (Nat.not_le.2 hn)).trans (if_pos (by simpa using hs)))

theorem execCmdIf_runs {neg : Bool} {tau : BitVec 32} {g : BitVec 8} (hn : (Claims.here s n).nest.length < 8)
    (hs : (Claims.here s n).skip = 0) : execCmdIf n neg tau g s = .next (Claims.finished s n (s.setStream n { Claims.here s n with
      nest := .cond (reached (s.gauge ⟨true, g⟩) tau != neg) false :: (Claims.here s n).nest,
      skip := if reached (s.gauge ⟨true, g⟩) tau != neg then 0 else 1 })) :=
  command_of_runs h (r := .done _) ((if_neg (Nat.not_le.2 hn)).trans (if_neg (not_not_intro hs)))

section
variable {p k : Nat} {r : List Nest} (hn : (Claims.here s n).nest = .loop p k :: r) (hs : (Claims.here s n).skip = 0)
include hn hs

theorem execEndLoop_again (hk : 1 < k) :
    execEndLoop n s = .next ((CmdRes.goto (s.setStream n { Claims.here s n with nest := .loop p (k - 1) :: r })
      (BitVec.ofNat 32 p)).leaves s n) :=
  command_of_runs h (by simp only [hn, hs, hk, ne_eq, not_true_eq_false, if_true, if_false])

theorem execEndLoop_over (hk : k ≤ 1) :
    execEndLoop n s = .next (Claims.finished s n (s.setStream n { Claims.here s n with nest := r })) :=
  command_of_runs h (r := .done _) (by simp only [hn, hs, ne_eq, not_true_eq_false, gt_iff_lt, Nat.not_lt.2 hk, if_false])

end

theorem execCmdElse_of_cond {b : Bool} {r : List Nest} (hn : (Claims.here s n).nest = .cond b false :: r) :
    execCmdElse n s = .next (Claims.finished s n (s.setStream n { Claims.here s n with
      nest := .cond b true :: r,
      skip := if (Claims.here s n).skip = 0 then 1 else if (Claims.here s n).skip = 1 then 0 else (Claims.here s n).skip })) :=
  command_of_runs h (r := .done _) (by simp only [hn])

theorem execEndIf_of_cond {b e : Bool} {r : List Nest} (hn : (Claims.here s n).nest = .cond b e :: r) :
    execEndIf n s = .next (Claims.finished s n (s.setStream n { Claims.here s n with nest := r, skip := (Claims.here s n).skip - 1 })) :=
  command_of_runs h (r := .done _) (by simp only [hn])

theorem execCmdWaitg_runs {tau : BitVec 32} {g : BitVec 8} (hs : (Claims.here s n).skip = 0) :
    execCmdWaitg n tau g s = .next (if reached (s.gauge ⟨true, g⟩) tau then Claims.finished s n s else Claims.waiting s n) := by
  have hgo : Claims.runsCmd s n := ⟨h, hs⟩
  split
  · next hc => exact commandUnless_of_runs hgo (r := .done s) (if_pos hc)
  · next hc => exact commandUnless_of_runs hgo (r := .wait) (if_neg hc)

end

/-- Each command by the nest that it finds and the part that it stands in. -/
theorem streamControl : Claims.StreamControl := by
  intro s n neg tau g cnt hrun
  exact ⟨execCmdLoop_runs hrun, execCmdLoop_passes hrun,
    fun _ _ _ hn hs => ⟨execEndLoop_again hrun hn hs, execEndLoop_over hrun hn hs⟩,
    execCmdIf_runs hrun, fun _ _ => execCmdElse_of_cond hrun, fun _ _ _ => execEndIf_of_cond hrun, execCmdWaitg_runs hrun⟩

/-! ## Signals, fences and HALT (R331) -/

theorem Stream.with_owed_wrote_nil {x : Stream} (ho : x.owed = []) (hw : x.wrote = []) : { x with owed := [], wrote := [] } = x := by
  cases x
  cases ho
  cases hw
  rfl

section
variable {s : State} {n : BitVec 6} (hgo : Claims.runsCmd s n)
include hgo

theorem execCmdFence_of_launches {fab : Bool} (hl : (Claims.here s n).launches ≠ []) :
    execCmdFence n fab s = .next (Claims.waiting s n) :=
  commandUnless_of_runs hgo (r := .wait) (if_pos (by simp [hl]))

theorem execCmdFence_of_writes {fab : Bool}
    (hw : ∃ e ∈ (Claims.here s n).wrote, ∃ c ∈ s.allCores, s.writesBefore c.1 e.1 e.2 = true) :
    execCmdFence n fab s = .next (Claims.waiting s n) := by
  obtain ⟨e, he, c, hc, hw⟩ := hw
  have hnear : (Claims.here s n).wrote.any (fun e => s.allCores.any (fun c => s.writesBefore c.1 e.1 e.2)) = true :=
    List.any_eq_true.2 ⟨e, he, List.any_eq_true.2 ⟨c, hc, hw⟩⟩
  exact commandUnless_of_runs hgo (r := .wait) (if_pos (by simp only [hnear, Bool.or_true, Bool.true_or]))

theorem execCmdFence_of_none {fab : Bool} (hl : (Claims.here s n).launches = []) (ho : (Claims.here s n).owed = [])
    (hw : (Claims.here s n).wrote = []) :
    execCmdFence n fab s = .next (Claims.finished s n (s.setStream n (Claims.here s n))) := by
  refine commandUnless_of_runs hgo (r := .done _) ((if_neg (by simp [hl, ho, hw])).trans ?_)
  simp only [ho, hw, List.filter_nil]
  exact congrArg (fun x => CmdRes.done (s.setStream n x)) (Stream.with_owed_wrote_nil ho hw)

theorem execSignalImmediate_runs {h : Bool} {amt : BitVec 32} {g : BitVec 8} :
    execSignalImmediate n h amt g s = .next (Claims.finished s n ((s.setStream n { Claims.here s n with
      intr := (Claims.here s n).intr || h }).addGaugeAt (65536 + g.toNat) amt)) :=
  commandUnless_of_runs hgo (r := .done _) rfl

theorem execSignalDeferred_runs {h : Bool} {amt : BitVec 32} {g : BitVec 8} :
    execSignalDeferred n h amt g s = .next (Claims.finished s n (s.setStream n { Claims.here s n with
      signals := (Claims.here s n).signals ++ [⟨(Claims.here s n).launches, g, amt, h⟩] })) :=
  commandUnless_of_runs hgo (r := .done _) rfl

theorem execHalt_runs {h : Bool} :
    execHalt n h s = .next (Claims.finished s n (s.setStream n { Claims.here s n with state := 3, intr := (Claims.here s n).intr || h })) :=
  commandUnless_of_runs hgo (r := .done _) rfl

/-! ## WRITE (R331, R514) -/

/-- The state in which a WRITE to a gauge has finished: the gauge write is to come, and the stream is busy until then. -/
def State.gaugeWriteOwed (s : State) (n : BitVec 6) (v : W64) (g : BitVec 8) : State :=
  (s.setStream n { Claims.here s n with busy := some (s.cyc + 20) }).setShr { s.shr with
    gaugeWr := Map.set [] s.shr.gaugeWr (65536 + g.toNat)
      (Map.get [] s.shr.gaugeWr (65536 + g.toNat) ++ [⟨s.cyc + 20, 0, v.truncate 32, true⟩]) }

theorem execWriteGauge_runs {v : W64} {g : BitVec 8} :
    execWriteGauge n v g s = .next (Claims.finished s n (s.gaugeWriteOwed n v g)) :=
  commandUnless_of_runs hgo (r := .done _) rfl

theorem execWrite_of_noPage {v ad : W64} (hp : s.page (Claims.here s n).ctx ad.toNat = none) :
    execWrite n v ad s = .next (Claims.faults s n 7) :=
  commandUnless_of_runs hgo (r := .fault 7) (by simp only [hp])

section
variable {v ad : W64} {p : Page} (hp : s.page (Claims.here s n).ctx ad.toNat = some p)
include hp

theorem execWrite_refused
    (hbad : ad.toNat % 8 ≠ 0 ∨ p.w = false ∨ (p.vers = true ∧ (s.ctx (Claims.here s n).ctx).step.open_ = false)) :
    execWrite n v ad s = .next (Claims.faults s n 7) := by
  have hcond : (decide (ad.toNat % 8 ≠ 0) || !p.w || (p.vers && !(s.ctx (Claims.here s n).ctx).step.open_)) = true := by
    simpa [or_assoc] using hbad
  exact commandUnless_of_runs hgo (r := .fault 7) (by simp only [hp, hcond, if_true])

section
variable (ha : ad.toNat % 8 = 0) (hw : p.w = true) (hv : p.vers = true → (s.ctx (Claims.here s n).ctx).step.open_ = true)
include ha hw hv

omit hgo hp in
/-- None of the refusals of R514. -/
theorem write_notRefused :
    (decide (ad.toNat % 8 ≠ 0) || !p.w || (p.vers && !(s.ctx (Claims.here s n).ctx).step.open_)) = false := by
  cases hvers : p.vers with
  | false => simp [ha, hw]
  | true => simp [ha, hw, hv hvers]

theorem execWrite_of_transit (ht : p.transit = true) : execWrite n v ad s = .next (Claims.waiting s n) := by
  have hgood := write_notRefused ha hw hv
  exact commandUnless_of_runs hgo (r := .wait) (by simp only [hp, hgood, ht, Bool.false_eq_true, if_true, if_false])

theorem execWrite_of_local (ht : p.transit = false) (hr : s.remote (p.pa + (ad.toNat - p.va)) = false) :
    execWrite n v ad s = .next (Claims.finished s n ((s.clean ((p.pa + (ad.toNat - p.va)) % 2 ^ 45)).vstore
      ((p.pa + (ad.toNat - p.va)) % 2 ^ 45) (bytesLE 8 v.toNat) false)) := by
  have hgood := write_notRefused ha hw hv
  exact commandUnless_of_runs hgo (r := .done _) (by simp only [hp, hgood, ht, hr, Bool.false_eq_true, if_false])

end
end
end

/-- Signals and HALT as they are defined, a fence by what it waits for, a write by its page. -/
theorem streamEffects : Claims.StreamEffects := by
  intro s n h fab amt g v ad hgo
  refine ⟨execSignalImmediate_runs hgo, execSignalDeferred_runs hgo, execHalt_runs hgo, execCmdFence_of_launches hgo,
    execCmdFence_of_writes hgo, execCmdFence_of_none hgo,
    ⟨s.gaugeWriteOwed n v g, execWriteGauge_runs hgo, ?_, Map.get_set_same [] _ s.shr.gaugeWr _, rfl⟩, execWrite_of_noPage hgo,
    fun p hp => ⟨execWrite_refused hgo hp, fun ha hw hv => ⟨execWrite_of_transit hgo hp ha hw hv, execWrite_of_local hgo hp ha hw hv⟩⟩⟩
  exact congrArg Stream.busy (s.streamOf_setStream_same n { Claims.here s n with busy := some (s.cyc + 20) })

/-! ## Deferred signals (R331) -/

/-- The oldest deferred SIGNAL decides. -/
theorem deferredSignals : Claims.DeferredSignals := by
  intro s n
  refine ⟨fun h => ?_, fun li l g amt b r h => ?_, fun g amt b r h => ?_⟩
  all_goals
    show execSignalDeferredApply n s = _
    simp only [execSignalDeferredApply, h]
  rfl

/-- Settles O44: a command by what the stream finds at HEAD, its nest and what it waits for. -/
theorem streamCommands : Obligations.StreamCommands := ⟨streamRules, streamControl, streamEffects, deferredSignals⟩

end Sys2Proof.Machine
end

section
/-! Launches (13 R331, R333, R340 to R343, R348, R350): LAUNCH and LAUNCHI by the record that they read, what the end of a launch changes,
acceptance, and the events of a launch. -/
namespace Sys2Proof.Machine

/-! ## LAUNCH and LAUNCHI (R331, R333) -/

/-- The stream at its command has the record `lr` accepted under the index `li`. -/
def State.launchedAs (s : State) (n : BitVec 6) (lr : LaunchRec) (li : Nat) : State :=
  (s.setStream n { Claims.here s n with launches := (Claims.here s n).launches ++ [li] }).acceptLaunch li lr n
    (Claims.here s n).head.toNat (s.ctx lr.ctx).step.open_

/-- What a command that may launch the record `lr` leaves: the launch under a free index, or without one the wait for it. -/
def State.launchUnder (s : State) (n : BitVec 6) (lr : LaunchRec) : Option Nat → State
  | none => Claims.waiting s n
  | some li => Claims.finished s n (s.launchedAs n lr li)

section
variable {s : State} {n : BitVec 6} {msk : BitVec 6} {ra xa : W64} (hgo : Claims.runsCmd s n)
include hgo

theorem launchCmd_of_trap {t : Trap} (h : s.readRecord (Claims.here s n).ctx ra msk xa (whoStream n.toNat) = .error (.trap t)) :
    launchCmd n msk ra xa s = .next (Claims.faults s n 3) :=
  commandUnless_of_runs hgo (r := .fault 3) (by simp only [h])

theorem launchCmd_of_wait (h : s.readRecord (Claims.here s n).ctx ra msk xa (whoStream n.toNat) = .error .wait) :
    launchCmd n msk ra xa s = .next (Claims.waiting s n) :=
  commandUnless_of_runs hgo (r := .wait) (by simp only [h])

theorem launchCmd_of_ask {who pa : Nat} (h : s.readRecord (Claims.here s n).ctx ra msk xa (whoStream n.toNat) = .error (.ask who pa)) :
    launchCmd n msk ra xa s = .next (Claims.held n (s.askFar who pa (Claims.here s n).ctx 1024 0)) :=
  commandUnless_of_runs hgo (r := .hold (s.askFar who pa (Claims.here s n).ctx 1024 0)) (by simp only [h])

section
variable {lr : LaunchRec} (h : s.readRecord (Claims.here s n).ctx ra msk xa (whoStream n.toNat) = .ok lr)
include h

theorem launchCmd_of_forbidden (hc : (Claims.here s n).cmsk.toNat.testBit lr.ctx.toNat = false) :
    launchCmd n msk ra xa s = .next (Claims.faults s n 4) :=
  commandUnless_of_runs hgo (r := .fault 4) (by simp only [h, hc, Bool.not_false, if_true])

theorem launchCmd_of_permitted {o : Option Nat} (hfree : s.freeLaunch = o)
    (hc : (Claims.here s n).cmsk.toNat.testBit lr.ctx.toNat = true) : launchCmd n msk ra xa s = .next (s.launchUnder n lr o) := by
  cases o with
  | none => exact commandUnless_of_runs hgo (r := .wait) (by simp only [h, hc, hfree, Bool.not_true, Bool.false_eq_true, if_false])
  | some li =>
    refine commandUnless_of_runs hgo (r := .done (s.launchedAs n lr li)) ?_
    simp only [h, hc, hfree, Bool.not_true, Bool.false_eq_true, if_false]
    rfl

end

theorem execLaunchi_of_badExtents (hx : xa.toNat % 32 ≠ 0 ∨ s.page (s.streamOf n).ctx xa.toNat = none) :
    execLaunchi n msk ra xa s = .next (Claims.faults s n 3) := by
  have hbad : ((s.streamOf n).skip = 0 && (decide (xa.toNat % 32 ≠ 0) || (s.page (s.streamOf n).ctx xa.toNat).isNone)) = true := by
    have hskip : (s.streamOf n).skip = 0 := hgo.2
    simpa [hskip] using hx
  exact (if_pos hbad).trans (command_of_runs hgo.1 (r := .fault 3) rfl)

omit hgo in
theorem execLaunchi_eq_launchCmd (ha : xa.toNat % 32 = 0) (hx : (s.page (Claims.here s n).ctx xa.toNat).isSome) :
    execLaunchi n msk ra xa s = launchCmd n msk ra xa s := by
  have hp : (s.page (s.streamOf n).ctx xa.toNat).isNone = false := Option.isNone_eq_false_iff.2 hx
  exact if_neg (by simp [ha, hp])

end

theorem State.readRecord_of_misaligned (s : State) (c : Ctx) {ra : W64} (msk : BitVec 6) (xa : W64) (who : Nat) (h : ra.toNat % 128 ≠ 0) :
    ∃ t, s.readRecord c ra msk xa who = .error (.trap t) := by
  rw [State.readRecord, if_pos (by simp only [ne_eq, h, not_false_eq_true, decide_true, Bool.true_or])]
  exact ⟨_, rfl⟩

/-- A launch command by the record that it reads and by the contexts that its stream may use. -/
theorem launchCommands : Claims.LaunchCommands := by
  intro s n msk ra xa hgo
  rcases hfree : s.freeLaunch with _ | li
  all_goals exact ⟨fun _ => launchCmd_of_trap hgo, launchCmd_of_wait hgo, fun _ _ => launchCmd_of_ask hgo,
    fun lr h => ⟨launchCmd_of_forbidden hgo h, launchCmd_of_permitted hgo h hfree⟩, execLaunchi_of_badExtents hgo,
    fun lr ha hx h => ⟨fun hc => (execLaunchi_eq_launchCmd ha hx).trans (launchCmd_of_forbidden hgo h hc),
      fun hc => (execLaunchi_eq_launchCmd ha hx).trans (launchCmd_of_permitted hgo h hfree hc)⟩,
    s.readRecord_of_misaligned _ msk xa _⟩

/-! ## The end of a launch (R341, R342) -/

theorem State.launch_setLaunch_same (s : State) (li : Nat) (l : Option Launch) : (s.setLaunch li l).launch li = l :=
  Map.get_set_same none l s.die.launches li

/-- A stream that no longer waits for the launch `li`: what it still has to see of it are requests `rs` and writes `ws`. -/
def Stream.without (x : Stream) (li : Nat) (rs ws : List (Nat × Nat)) : Stream :=
  { x with
    owed := if x.launches.contains li then x.owed ++ rs else x.owed,
    wrote := if x.launches.contains li then x.wrote ++ ws else x.wrote,
    launches := x.launches.filter (· != li),
    signals := x.signals.map (fun g => { g with after := g.after.filter (· != li) }) }

/-- The die with the index `li` free. -/
def Die.without (d : Die) (li : Nat) (rs ws : List (Nat × Nat)) : Die :=
  { d with
    launches := Map.set none d.launches li none,
    promoted := d.promoted.filter (· != li),
    streams := Map.mapVals streamEmpty (fun x => x.without li rs ws) d.streams }

/-- Writes of a launch that are outstanding, as FENCE counts them (R331). -/
def State.writesLeft (s : State) (li : Nat) : List (Nat × Nat) :=
  if s.allCores.any (fun c => s.writesBefore c.1 li s.nextId || s.answersBefore c.1 li s.nextId) then [(li, s.nextId)] else []

/-- The state in which the index of a launch has been freed. -/
def State.freed (s : State) (li : Nat) : State := s.setDie (s.die.without li (s.reqsOf li) (s.writesLeft li))

/-- Ends that set the error bit of DONE (R342). -/
def LEnd.fails : LEnd → Bool
  | .faulted | .cancelled | .rejected => true
  | .retired | .aborted => false

/-- What the end of a launch does to its gauge (R342). -/
def State.endDone (s : State) (l : Launch) (e : LEnd) : State :=
  let t := if e = .aborted || l.doneAdded then s else s.addDone l
  if bitsOf l.lr.w3 62 1 == 1 && e.fails then t.setGaugeErr (bitsOf l.lr.w3 54 8) true else t

theorem State.addDone_eq_setShr (s : State) (l : Launch) : ∃ h, s.addDone l = s.setShr h := by
  rw [State.addDone]
  split
  · exact ⟨_, rfl⟩
  · exact ⟨s.shr, rfl⟩

theorem State.endDone_eq_setShr (s : State) (l : Launch) (e : LEnd) : ∃ h, s.endDone l e = s.setShr h := by
  obtain ⟨h, hadd⟩ := s.addDone_eq_setShr l
  simp only [State.endDone, hadd]
  split <;> split
  · exact ⟨_, rfl⟩
  · exact ⟨_, rfl⟩
  · exact ⟨s.shr, rfl⟩
  · exact ⟨h, rfl⟩

theorem State.endDone_gauge {s : State} {l : Launch} {e : LEnd} (h : e = .aborted ∨ bitsOf l.lr.w3 62 1 = 0 ∨ l.doneAdded = true) :
    (s.endDone l e).shr.gauge = s.shr.gauge := by
  have hkept : (if e = .aborted || l.doneAdded then s else s.addDone l) = s := by
    rcases h with h | h | h
    · exact if_pos (by simp [h])
    · rw [State.addDone, h, if_neg Nat.zero_ne_one, ite_self]
    · exact if_pos (by simp [h])
  simp only [State.endDone, hkept]
  split <;> rfl

theorem State.endDone_gaugeErr {s : State} {l : Launch} {e : LEnd} (hd : bitsOf l.lr.w3 62 1 = 1) (he : e.fails = true) :
    (s.endDone l e).gaugeErr (bitsOf l.lr.w3 54 8) = true := by
  rw [State.endDone, if_pos (by simp [hd, he])]
  exact Map.get_set_same false true _ _

theorem State.setDove_eq_setFab (s : State) (d : Dove) : s.setDove d = (s.setDove d).setFab s.fab := rfl

/-- The Dovetail learns of the end (17 R413, R414): nothing but its own registers and packets changes. -/
theorem State.doveEnds_eq_setDove_setFab (s : State) (li : Nat) (e : LEnd) : ∃ d f, s.doveEnds li e = (s.setDove d).setFab f := by
  rw [State.doveEnds]
  split
  · exact ⟨s.pkg.dv, s.fab, rfl⟩
  · dsimp only
    split
    · split
      · split
        · exact ⟨_, State.send_eq_setFab _ _⟩
        · exact ⟨_, _, s.setDove_eq_setFab _⟩
      · exact ⟨_, _, s.setDove_eq_setFab _⟩
    · exact ⟨_, _, s.setDove_eq_setFab _⟩

section
variable {s : State} {li : Nat} {l : Launch} (h : s.launch li = some l) (e : LEnd)
include h

/-- The end of a launch: its index is freed, its gauge told, and then the Dovetail. -/
theorem State.finishLaunch_eq : s.finishLaunch li e = ((s.freed li).endDone l e).doveEnds li e := by
  simp only [State.finishLaunch, h]
  cases e <;> rfl

/-- Die and memory are what the freed index leaves, and the gauges what DONE adds to that. -/
theorem State.finishLaunch_frame : (s.finishLaunch li e).die = (s.freed li).die ∧ (s.finishLaunch li e).mem = s.mem ∧
    (s.finishLaunch li e).shr = ((s.freed li).endDone l e).shr := by
  obtain ⟨p, f, hdove⟩ := ((s.freed li).endDone l e).doveEnds_eq_setDove_setFab li e
  obtain ⟨x, hdone⟩ := (s.freed li).endDone_eq_setShr l e
  rw [State.finishLaunch_eq h, hdove, hdone]
  exact ⟨rfl, rfl, rfl⟩

theorem State.launch_finishLaunch : (s.finishLaunch li e).launch li = none := by
  obtain ⟨hdie, -, -⟩ := State.finishLaunch_frame h e
  rw [State.launch, hdie]
  exact Map.get_set_same none none s.die.launches li

theorem State.finishLaunch_named : (s.finishLaunch li e).die.named = s.die.named := by
  obtain ⟨hdie, -, -⟩ := State.finishLaunch_frame h e
  rw [hdie]
  rfl

theorem State.not_mem_launches_finishLaunch (n : BitVec 6) : li ∉ ((s.finishLaunch li e).streamOf n).launches := by
  obtain ⟨hdie, -, -⟩ := State.finishLaunch_frame h e
  have hx : (s.finishLaunch li e).streamOf n = (s.streamOf n).without li (s.reqsOf li) (s.writesLeft li) := by
    rw [State.streamOf, hdie]
    exact Map.get_mapVals streamEmpty (fun x => x.without li (s.reqsOf li) (s.writesLeft li)) rfl s.die.streams n.toNat
  simp [hx, Stream.without]

end

/-- The end of a launch by what it frees and by its gauge. -/
theorem launchEnds : Claims.LaunchEnds := by
  intro s li l e h _
  obtain ⟨-, hmem, hshr⟩ := State.finishLaunch_frame h e
  refine ⟨State.launch_finishLaunch h e, hmem, State.not_mem_launches_finishLaunch h e, fun hquiet => ?_,
    fun hd he => ?_⟩
  · rw [hshr, State.endDone_gauge hquiet]
    rfl
  · have hfails : e.fails = true := by rcases he with rfl | rfl | rfl <;> rfl
    rw [State.gaugeErr, hshr]
    exact State.endDone_gaugeErr hd hfails

/-! ## Acceptance (R340, R341) -/

section
variable (s : State) (li : Nat) (lr : LaunchRec) (n : BitVec 6) (head : Nat) (b : Bool)

/-- The state in which a launch has its index and has not been checked yet. -/
def State.indexed : State := (s.setLaunch li (some (newLaunch s.nextId lr n head b))).fresh

theorem State.launch_indexed : (s.indexed li lr n head b).launch li = some (newLaunch s.nextId lr n head b) :=
  s.launch_setLaunch_same li (some (newLaunch s.nextId lr n head b))

variable {lr}

theorem State.acceptLaunch_of_rejects (h : lr.rejects = true) : s.acceptLaunch li lr n head b =
    ((s.indexed li lr n head b).nameTrap li ⟨.extentOverflow, 0, 0⟩).finishLaunch li .rejected :=
  if_pos h

theorem State.acceptLaunch_of_empty (h : lr.rejects = false) (hc : lr.count = 0) :
    s.acceptLaunch li lr n head b = (s.indexed li lr n head b).finishLaunch li .retired :=
  (if_neg (Bool.eq_false_iff.1 h)).trans (if_pos hc)

theorem State.acceptLaunch_of_waits (h : lr.rejects = false) (hc : lr.count ≠ 0) :
    s.acceptLaunch li lr n head b = s.indexed li lr n head b :=
  (if_neg (Bool.eq_false_iff.1 h)).trans (if_neg hc)

end

theorem LaunchRec.rejects_of_ext {lr : LaunchRec} {k : Nat} (h : 2 ^ lr.wid k < lr.ext k) (hk : k < 6) : lr.rejects = true := by
  have hany : (List.range 6).any (fun n => decide (2 ^ lr.wid n < lr.ext n)) = true :=
    List.any_eq_true.2 ⟨k, List.mem_range.2 hk, decide_eq_true h⟩
  simp only [LaunchRec.rejects, hany, Bool.or_true, Bool.true_or]

/-- An accepted launch by the checks of R340 and by its number of pieces. -/
theorem launchAcceptance : Claims.LaunchAcceptance := by
  intro s li lr n head b
  have hidx := s.launch_indexed li lr n head b
  refine ⟨fun h hc => ?_, fun h => ?_, fun h => ?_, fun k h hk => LaunchRec.rejects_of_ext h hk⟩
  · rw [s.acceptLaunch_of_waits li n head b h hc]
    exact ⟨_, hidx, rfl, rfl, rfl, rfl, rfl, rfl⟩
  · cases hr : lr.rejects with
    | true =>
      rw [s.acceptLaunch_of_rejects li n head b hr]
      exact State.launch_finishLaunch (s := (s.indexed li lr n head b).nameTrap li _) hidx _
    | false =>
      rw [s.acceptLaunch_of_empty li n head b hr (h.resolve_left (Bool.eq_false_iff.1 hr))]
      exact State.launch_finishLaunch hidx _
  · rw [s.acceptLaunch_of_rejects li n head b h,
      State.finishLaunch_named (s := (s.indexed li lr n head b).nameTrap li ⟨.extentOverflow, 0, 0⟩) hidx]
    exact Map.get_set_same none (some ⟨.extentOverflow, 0, 0⟩) s.die.named li

/-! ## Events of a launch (R341, R343, R348, R350) -/

theorem exec_of_noLaunch {s : State} {li : Nat} (h : s.launch li = none) {i : Instr}
    (hi : i ∈ [Instr.launchReady li, .launchRetire li, .launchFaulted li, .promotion li, .preemption li]) : exec i s = .next s := by
  simp only [List.mem_cons, List.not_mem_nil, or_false] at hi
  rcases hi with rfl | rfl | rfl | rfl | rfl
  all_goals simp only [exec, execLaunchReady, execLaunchRetire, execLaunchFaulted, execPromotion, execPreemption, h]

section
variable {s : State} {li : Nat} {l : Launch} (h : s.launch li = some l)
include h

/-- Before its predicate has held, and once it is ready, the event changes nothing. -/
theorem execLaunchReady_of_idle (hw : l.state ≠ .waiting ∨ l.holds = false) : execLaunchReady li s = .next s := by
  have hidle : (decide (l.state ≠ .waiting) || !l.holds) = true := by simpa using hw
  simp only [execLaunchReady, h, hidle, if_true]

/-- What becomes of a launch whose predicate has held, by the error bits of the gauges that it uses. -/
theorem execLaunchReady_of_held (hw : l.state = .waiting) (hh : l.holds = true) : execLaunchReady li s = .next
    (if [false, true].any (fun b => (l.lr.term b).1 && s.gaugeErr ((l.lr.term b).2.g - 65536)) = true then s.finishLaunch li .cancelled
      else (s.setDie { s.die with seq := s.die.seq + 1 }).setLaunch li
        (some { l with state := .ready, seq := s.die.seq + 1, waitFrom := s.cyc })) := by
  have hgo : (decide (l.state ≠ .waiting) || !l.holds) = false := by simp [hw, hh]
  simp only [execLaunchReady, h, hgo, Bool.false_eq_true, if_false]
  rfl

theorem execLaunchRetire_of_done (hr : l.state = .running) (hp : l.ended = l.lr.count)
    (hem : bitsOf l.lr.w3 63 1 = 1 → l.doneAdded = true) (hw : ∀ e ∈ s.allCores, s.writesBefore e.1 li s.nextId = false) :
    execLaunchRetire li s = .next (s.finishLaunch li .retired) := by
  have hnone : s.allCores.any (fun e => s.writesBefore e.1 li s.nextId) = false :=
    List.any_eq_false.2 fun e he => Bool.eq_false_iff.1 (hw e he)
  have hadded : (bitsOf l.lr.w3 63 1 == 1 && !l.doneAdded) = false := by simpa using hem
  simp only [execLaunchRetire, h, hr, hp, hnone, hadded, decide_true, Bool.and_self, Bool.not_false, if_true]

theorem execLaunchRetire_of_pieces (hp : l.state ≠ .running ∨ l.ended ≠ l.lr.count) : execLaunchRetire li s = .next s := by
  have hopen : (decide (l.state = .running) && decide (l.ended = l.lr.count)) = false := by
    rcases hp with hp | hp
    · rw [decide_eq_false hp, Bool.false_and]
    · rw [decide_eq_false hp, Bool.and_false]
  simp only [execLaunchRetire, h, hopen, Bool.false_and, Bool.false_eq_true, if_false]

theorem execLaunchFaulted_of_empty (hf : l.state = .frozen) (hs : l.saved = []) (hr : s.runsOf li = false) :
    execLaunchFaulted li s = .next (s.finishLaunch li .faulted) := by
  simp only [execLaunchFaulted, h, hf, hs, hr, decide_true, List.isEmpty_nil, Bool.and_self, Bool.not_false, if_true]

theorem execLaunchFaulted_of_pieces (hp : l.state ≠ .frozen ∨ l.saved ≠ [] ∨ s.runsOf li = true) :
    execLaunchFaulted li s = .next s := by
  have hopen : (decide (l.state = .frozen) && l.saved.isEmpty && !s.runsOf li) = false := by
    rcases hp with hp | hp | hp
    · rw [decide_eq_false hp, Bool.false_and, Bool.false_and]
    · rw [List.isEmpty_eq_false_iff.2 hp, Bool.and_false, Bool.false_and]
    · rw [hp, Bool.not_true, Bool.and_false]
  simp only [execLaunchFaulted, h, hopen, Bool.false_eq_true, if_false]

/-- A launch is promoted that has waited for 2^24 cycles, once (R348). -/
theorem execPromotion_eq : execPromotion li s = .next
    (if (l.state = .ready ∨ l.state = .running) ∧ l.waits = true ∧ l.waitFrom + 2 ^ 24 ≤ s.cyc ∧ li ∉ s.die.promoted
      then s.setDie { s.die with promoted := s.die.promoted ++ [li] } else s) := by
  simp only [execPromotion, h, Bool.and_eq_true, Bool.or_eq_true, beq_iff_eq, decide_eq_true_eq, Bool.not_eq_true', List.contains_eq_mem,
    decide_eq_false_iff_not, and_assoc]

end

/-- Each event by the state of its launch and what is left of its pieces. -/
theorem launchEvents : Claims.LaunchEvents := by
  intro s li
  refine ⟨fun h i => exec_of_noLaunch h, fun l h => ⟨execLaunchReady_of_idle h, fun hw hh hbad => ?_, fun hw hh hbad => ?_,
    execLaunchRetire_of_done h, execLaunchRetire_of_pieces h, execLaunchFaulted_of_empty h, execLaunchFaulted_of_pieces h,
    fun hlate => ?_, fun hearly => ?_⟩⟩
  · exact (execLaunchReady_of_held h hw hh).trans (congrArg _ (if_pos hbad))
  · exact ⟨_, (execLaunchReady_of_held h hw hh).trans (congrArg _ (if_neg (Bool.eq_false_iff.1 hbad))),
      State.launch_setLaunch_same _ li _, rfl⟩
  · exact (execPromotion_eq h).trans (congrArg _ (if_pos hlate))
  · exact (execPromotion_eq h).trans (congrArg _ (if_neg hearly))

/-- Settles O45: commands by the record that they read, ends by what they free, events by the state of their launch. -/
theorem launchLife : Obligations.LaunchLife := ⟨launchCommands, launchAcceptance, launchEvents, launchEnds⟩

end Sys2Proof.Machine
end

section
/-! Packets, homes, Dowel engines and links (14 R361, R362, R370, 19 R439 to R458, 21 R500): what becomes of a packet that arrives, what the
home of an access answers, whom an answer reaches, what an engine performs, and how a link changes. -/
namespace Sys2Proof.Machine

/-! ## Packets that arrive (R370, R445, R447, R500) -/

/-- Each arrival takes its packet, for its OPs and its service. -/
theorem exec_arrivals (p : Packet) (s : State) : ∀ e ∈ Claims.arrivals p, exec e.1 s = .next (s.takePacket p e.2.1 e.2.2) := by
  simp only [Claims.arrivals, List.forall_mem_cons, List.not_mem_nil, false_implies, implies_true, and_true]
  and_intros <;> rfl

/-- What follows once the copies of a packet are on their way: its flow moves on, and it is served or waits aside, but at a device that is
none of its destinations. -/
def State.arrive (s : State) (p : Packet) (serve : State → Packet → Option State) : State :=
  let u := Claims.passed s p
  if p.mc ≠ [] ∧ ∀ x ∈ p.mc, x.1 ≠ s.peer then u
  else if u.flowHeld p = true then u.hold p
  else (serve u p).getD (u.hold p)

/-- Copies that enter the replication buffer leave the device who it is. -/
theorem State.replicate_peer {s v : State} {l : List Packet} (h : s.replicate l = some v) : v.peer = s.peer := by
  cases l with
  | nil => rw [Option.some.inj h]
  | cons q r =>
    simp only [State.replicate, Option.ite_none_left_eq_some, Option.some.injEq] at h
    rw [← h.2, State.setFab_peer]

/-- A packet that is no multicast copy is passed on to nobody. -/
theorem State.replicate_of_unicast {s : State} {p : Packet} (h : p.mc = []) : s.replicate (s.mcOnward p) = some s := by
  simp only [State.mcOnward, h, List.filter_nil, List.map_nil, State.replicate]

section
variable {s : State} {p : Packet} {ops : List Nat} {serve : State → Packet → Option State}

theorem State.takePacket_of_elsewhere (h : p.dst ≠ s.peer) : s.takePacket p ops serve = s := if_pos h

theorem State.takePacket_of_unsound (hd : p.dst = s.peer) (h : pkOk p = false ∨ opDefined p.op.toNat = false) :
    s.takePacket p ops serve = s.discardPk := by
  have hbad : (!pkOk p || !opDefined p.op.toNat) = true := by simpa using h
  simp only [State.takePacket, hd, hbad, ne_eq, not_true, if_true, if_false]

section
variable (hs : Claims.sound s p) (hop : p.op.toNat ∈ ops)
include hs hop

theorem State.takePacket_of_notNext (hn : p.seq ≠ Map.get 0 s.fab.seqIn (flowKey p.vc p.src)) : s.takePacket p ops serve = s := by
  obtain ⟨hd, hok, hdef, hsub⟩ := hs
  simp only [State.takePacket, hd, hok, hdef, hsub, List.contains_iff_mem.2 hop, hn, ne_eq, not_true, not_false_eq_true, Bool.not_true,
    Bool.or_self, Bool.false_eq_true, if_true, if_false]

variable (hn : p.seq = Map.get 0 s.fab.seqIn (flowKey p.vc p.src))
include hn

theorem State.takePacket_of_noRoom (hr : s.replicate (s.mcOnward p) = none) : s.takePacket p ops serve = s.mcWaits := by
  obtain ⟨hd, hok, hdef, hsub⟩ := hs
  simp only [State.takePacket, hd, hok, hdef, hsub, List.contains_iff_mem.2 hop, ← hn, hr, ne_eq, not_true, Bool.not_true,
    Bool.or_self, Bool.false_eq_true, if_false]

theorem State.takePacket_of_room {v : State} (hr : s.replicate (s.mcOnward p) = some v) :
    s.takePacket p ops serve = v.arrive p serve := by
  obtain ⟨hd, hok, hdef, hsub⟩ := hs
  have hmc : (!p.mc.isEmpty && !p.mc.any (fun e => e.1 == v.peer)) = true ↔ p.mc ≠ [] ∧ ∀ x ∈ p.mc, x.1 ≠ v.peer := by
    simp
  have hserve (o : Option State) (w : State) : (match o with | some t => t | none => w) = o.getD w := by cases o <;> rfl
  simp only [State.takePacket, hd, hok, hdef, hsub, List.contains_iff_mem.2 hop, ← hn, hr, ne_eq, not_true, Bool.not_true,
    Bool.or_self, Bool.false_eq_true, if_false]
  exact if_congr hmc rfl (if_congr Iff.rfl rfl (hserve ..))

end

/-- At a device that is none of its destinations a multicast copy is not served. -/
theorem State.arrive_of_relay (h : p.mc ≠ []) (ho : ∀ x ∈ p.mc, x.1 ≠ s.peer) : s.arrive p serve = Claims.passed s p :=
  if_pos ⟨h, ho⟩

/-- A packet of no multicast behind its flow. -/
theorem State.arrive_of_flowHeld (h : p.mc = []) (hf : (Claims.passed s p).flowHeld p = true) :
    s.arrive p serve = (Claims.passed s p).hold p :=
  (if_neg fun hx => hx.1 h).trans (if_pos hf)

/-- A packet of no multicast that nothing of its flow precedes. -/
theorem State.arrive_of_flowFree (h : p.mc = []) (hf : (Claims.passed s p).flowHeld p = false) :
    s.arrive p serve = (serve (Claims.passed s p) p).getD ((Claims.passed s p).hold p) :=
  (if_neg fun hx => hx.1 h).trans (if_neg (Bool.eq_false_iff.1 hf))

end

/-- An arrival by the header of its packet, the turn of its flow, and what its service answers. -/
theorem packetsTaken : Claims.PacketsTaken := by
  intro s p e he
  rw [exec_arrivals p s e he]
  refine ⟨fun h => congrArg _ (State.takePacket_of_elsewhere h), fun hd h => congrArg _ (State.takePacket_of_unsound hd h),
    fun hs hop => ⟨fun hn => congrArg _ (State.takePacket_of_notNext hs hop hn), fun hn =>
      ⟨fun hr => congrArg _ (State.takePacket_of_noRoom hs hop hn hr), fun v hr hmc ho => ?_, fun hmc => ?_⟩⟩⟩
  · rw [State.takePacket_of_room hs hop hn hr, State.arrive_of_relay hmc (State.replicate_peer hr ▸ ho)]
  · rw [State.takePacket_of_room hs hop hn (State.replicate_of_unicast hmc)]
    refine ⟨fun hf => congrArg _ (State.arrive_of_flowHeld hmc hf), fun hf hnone => ?_, fun t hf hsome => ?_⟩
    · rw [State.arrive_of_flowFree hmc hf, hnone, Option.getD_none]
    · rw [State.arrive_of_flowFree hmc hf, hsome, Option.getD_some]

/-! ## Homes (R361, R362, R370, R382, R441) -/

section
variable {s : State} {p : Packet}

theorem State.serveLoad_of_notOwned (h : s.homeRange p.ctx (pkLocal p) (p.sub.toNat + 1) = false) :
    s.serveLoad p = some (s.answer p 1 [] []) := by
  simp only [State.serveLoad, h, Bool.not_false, if_true]
  rfl

section
variable (ho : s.homeRange p.ctx (pkLocal p) (p.sub.toNat + 1) = true)
include ho

theorem State.serveLoad_of_waits (h : (s.pkVers p = true ∧ s.pkAge p = .newer) ∨ s.behindDowel p = true) : s.serveLoad p = none := by
  have hw : ((s.pkVers p && s.pkAge p == .newer) || s.behindDowel p) = true := by simpa using h
  simp only [State.serveLoad, ho, hw, Bool.not_true, Bool.false_eq_true, if_true, if_false]

theorem State.serveLoad_of_free (hb : s.behindDowel p = false) (h : s.pkVers p = false ∨ s.pkAge p ≠ .newer) :
    s.serveLoad p = some (s.answer p 0 (s.vload (pkLocal p) (p.sub.toNat + 1)) (s.poisOfRange (pkLocal p) (p.sub.toNat + 1))
      (s.tagsOfRange (pkLocal p) (p.sub.toNat + 1))) := by
  have hw : (s.pkVers p && s.pkAge p == .newer) = false := by simpa [Decidable.imp_iff_not_or] using h
  simp only [State.serveLoad, ho, hw, hb, Bool.not_true, Bool.or_self, Bool.false_eq_true, if_false]
  rfl

end

theorem State.serveStore_of_notOwned (h : s.homeRange p.ctx (pkLocal p) (pkLength p) = false) :
    s.serveStore p = some (s.answer p 1 [] []) := by
  simp only [State.serveStore, h, Bool.not_false, if_true]
  rfl

section
variable (ho : s.homeRange p.ctx (pkLocal p) (pkLength p) = true)
include ho

theorem State.serveStore_of_behind (hb : s.behindDowel p = true) : s.serveStore p = none := by
  simp only [State.serveStore, ho, hb, Bool.not_true, Bool.or_true, Bool.false_eq_true, if_true, if_false]

section
variable (hv : s.pkVers p = true)
include hv

theorem State.serveStore_of_newer (h : s.pkAge p = .newer) : s.serveStore p = none := by
  simp only [State.serveStore, ho, hv, h, BEq.rfl, Bool.not_true, Bool.true_or, Bool.true_and, Bool.false_eq_true, if_true, if_false]

variable (hb : s.behindDowel p = false)
include hb

theorem State.serveStore_of_older (h : s.pkAge p = .older) : s.serveStore p = some (s.answer p 0 [] []) := by
  have hn : (Age.older == .newer) = false := rfl
  simp only [State.serveStore, ho, hv, hb, h, hn, BEq.rfl, Bool.not_true, Bool.true_or, Bool.true_and, Bool.or_self, Bool.false_eq_true,
    if_true, if_false]
  rfl

variable (hs : s.pkAge p = .same)
include hs

theorem State.serveStore_of_bareRow (hr : pkRow p = true) (he : pkEpir p = false) : s.serveStore p = some (s.answer p 1 [] []) := by
  have hn : (Age.same == .newer) = false := rfl
  have hold : (Age.same == .older) = false := rfl
  simp only [State.serveStore, ho, hv, hb, hs, hn, hold, hr, he, Bool.not_true, Bool.not_false, Bool.true_or, Bool.true_and, Bool.or_self,
    Bool.false_eq_true, if_true, if_false]
  rfl

theorem State.serveStore_of_forbidden (hr : pkRow p = false ∨ pkEpir p = true) (hw : p.vw = false) :
    s.serveStore p = some (s.answer p 2 [] []) := by
  have hn : (Age.same == .newer) = false := rfl
  have hold : (Age.same == .older) = false := rfl
  have hrow : (pkRow p && !pkEpir p) = false := by
    rcases hr with hr | hr
    · rw [hr, Bool.false_and]
    · rw [hr, Bool.not_true, Bool.and_false]
  simp only [State.serveStore, ho, hv, hb, hs, hn, hold, hrow, hw, Bool.not_true, Bool.not_false, Bool.true_or, Bool.true_and,
    Bool.or_self, Bool.false_eq_true, if_true, if_false]
  rfl

end

/-- A store that is no row of an EPIR and may write its line writes it. -/
theorem State.serveStore_of_plain (hb : s.behindDowel p = false) (hm : p.mark = 0)
    (h : s.pkVers p = false ∨ (s.pkAge p = .same ∧ p.vw = true)) :
    s.serveStore p = some ((s.writePacket p).answer p 0 [] []) := by
  have hrow : pkRow p = false := by simp [pkRow, hm]
  have hepir : pkEpir p = false := by simp [pkEpir, hm]
  have hgauge : p.mark.toNat.testBit 15 = false := by simp [hm]
  have hn : (s.pkVers p && s.pkAge p == .newer) = false := by
    rcases h with h | ⟨h, _⟩ <;> simp [h]
  have hold : (s.pkVers p && s.pkAge p == .older) = false := by
    rcases h with h | ⟨h, _⟩ <;> simp [h]
  have hw : (s.pkVers p && !p.vw) = false := by
    rcases h with h | ⟨_, h⟩ <;> simp [h]
  simp only [State.serveStore, ho, hb, hrow, hepir, hgauge, hn, hold, hw, Bool.not_true, Bool.or_false, Bool.and_false, Bool.false_and,
    Bool.false_eq_true, if_false]
  rfl

end

theorem State.serveAtomic_of_behind (hb : s.behindDowel p = true) : s.serveAtomic p = none := by
  simp only [State.serveAtomic, hb, Bool.or_true, if_true]

/-- A packet that need not wait reaches the engine of its stack. -/
theorem State.serveAtomic_of_free (hb : s.behindDowel p = false) (h : s.pkVers p = false ∨ s.pkAge p ≠ .newer) :
    ∃ o, s.serveAtomic p = some (s.toDowel (stackOf (pkLocal p)) o) ∧ o.pk = p := by
  have hn : (s.pkVers p && s.pkAge p == .newer) = false := by simpa [Decidable.imp_iff_not_or] using h
  simp only [State.serveAtomic, hb, hn, Bool.false_and, Bool.or_self, Bool.false_eq_true, if_false]
  exact ⟨_, rfl, rfl⟩

end

theorem State.serveWrite_of_store {p : Packet} (h : p.op = 2) (s : State) : s.serveWrite p = s.serveStore p := if_pos h

theorem State.serveWrite_of_atomic {p : Packet} (h : p.op ≠ 2) (s : State) : s.serveWrite p = s.serveAtomic p := if_neg h

/-- A request at its home by its kind, its range, and what it waits for. -/
theorem homeServes : Claims.HomeServes := by
  intro s p
  refine ⟨State.serveLoad_of_notOwned, State.serveLoad_of_waits, State.serveLoad_of_free, fun hop => ?_, fun hop => ?_, fun hop => ?_⟩
  · rw [State.serveWrite_of_store hop]
    exact ⟨State.serveStore_of_notOwned, fun ho hv => ⟨State.serveStore_of_newer ho hv, State.serveStore_of_older ho hv,
      State.serveStore_of_bareRow ho hv, State.serveStore_of_forbidden ho hv⟩, State.serveStore_of_behind, State.serveStore_of_plain⟩
  · rw [State.serveWrite_of_atomic hop]
    exact State.serveAtomic_of_behind
  · rw [State.serveWrite_of_atomic hop]
    exact State.serveAtomic_of_free

/-! ## Answers (R441, R442) -/

section
variable {s : State} {p : Packet} {r : Req} (h : Map.get none s.fab.req p.rid.toNat = some r)
include h

theorem State.serveAnswer_of_otherPeer (hp : s.standIn (BitVec.ofNat 12 (r.addr / 2 ^ 45)) ≠ p.src) : s.serveAnswer p = some s := by
  simp only [State.serveAnswer, h, hp, ne_eq, not_false_eq_true, if_true]

variable (hp : s.standIn (BitVec.ofNat 12 (r.addr / 2 ^ 45)) = p.src)
include hp

theorem State.serveAnswer_of_late (hc : r.sent + 2 ^ 22 ≤ s.cyc) : s.serveAnswer p = some (s.timeOut p.rid.toNat r) := by
  simp only [State.serveAnswer, h, hp, hc, ne_eq, not_true, if_true, if_false]

theorem State.serveAnswer_of_inTime (hc : s.cyc < r.sent + 2 ^ 22) (hbs : pkBytes p ≠ []) : s.serveAnswer p =
    some ((s.dropReq p.rid.toNat).dispatchAnswer r (pkBytes p) ((List.range 8).map (pkBad p))
      (statusTrap p.sub.toNat (BitVec.ofNat 64 r.addr)) p.gtag) := by
  simp only [State.serveAnswer, h, hp, Nat.not_le.2 hc, hbs, ne_eq, not_true, if_false]

end

/-- An answer by the request whose identifier it carries. -/
theorem answersServed : Claims.AnswersServed := fun s p =>
  ⟨fun h => by simp only [State.serveAnswer, h], fun _ h => ⟨State.serveAnswer_of_otherPeer h, State.serveAnswer_of_late h,
    State.serveAnswer_of_inTime h, Map.get_set_same none none s.fab.req p.rid.toNat⟩⟩

/-! ## Dowel engines (R449 to R458) -/

/-- An engine without an operation whose turn it is performs none. -/
theorem exec_of_dowelIdle {s : State} {st : BitVec 4} (h : s.dowelHead st.toNat = none) :
    exec (.dowelOperation st) s = .next s ∧ exec (.dowelHandler st) s = .next s := by
  simp only [exec, execDowelOperation, execDowelHandler, h, and_self]

section
variable {s : State} {st : BitVec 4} {o : DowelOp} (h : s.dowelHead st.toNat = some o)
include h

theorem exec_of_dowelAtomic (hop : o.pk.op ≠ 4) :
    exec (.dowelOperation st) s = .next (s.dowelAtomic st.toNat o) ∧ exec (.dowelHandler st) s = .next s := by
  simp only [exec, execDowelOperation, execDowelHandler, h, hop, ne_eq, not_false_eq_true, if_true, if_false, and_self]

variable (hop : o.pk.op = 4)
include hop

theorem execDowelOperation_of_handler : execDowelOperation st s = .next s := by
  simp only [execDowelOperation, h, hop, if_true]

theorem execDowelHandler_of_notOwned (hl : o.loc = none) (ho : s.homeOk o.pk.ctx (pkLocal o.pk) = false) :
    execDowelHandler st s = .next ((s.dowelDrop st.toNat o).dowelReply o 1 0 true) := by
  simp only [execDowelHandler, h, hop, hl, ho, ne_eq, not_true, Option.isNone_none, Bool.not_false, Bool.and_self, if_true, if_false]
  rfl

theorem execDowelHandler_of_owned (ho : o.loc.isSome ∨ s.homeOk o.pk.ctx (pkLocal o.pk) = true) :
    execDowelHandler st s = .next (s.dowelHandler st.toNat o) := by
  have hgo : (o.loc.isNone && !s.homeOk o.pk.ctx (pkLocal o.pk)) = false := by
    rcases ho with ho | ho
    · rw [Option.isNone_eq_false_iff.2 ho, Bool.false_and]
    · rw [ho, Bool.not_true, Bool.and_false]
  simp only [execDowelHandler, h, hop, hgo, ne_eq, not_true, Bool.false_eq_true, if_false]

end

/-- A handler that ends well writes its words, in order, and answers its result (R458). -/
theorem State.dowelHandler_of_ok {s : State} {st : Nat} {o : DowelOp} {v : W64} {r : HRun}
    (hp : Map.get [] (s.gctx o.pk.ctx).prog (o.pk.sub.toNat % 32) ≠ [])
    (hr : s.hrun ⟨o.pk, st, Map.get [] (s.gctx o.pk.ctx).prog (o.pk.sub.toNat % 32)⟩ 258 (hstart o s.peer) = .ok (v, r)) :
    s.dowelHandler st o = ((r.wr.foldl (fun s w => (s.clean (s.homeKey w.1.toNat)).vstore (s.homeKey w.1.toNat)
      (bytesLE 8 w.2.toNat) false) (r.rd.foldl (fun s x => s.clean (s.homeKey x.toNat)) (s.clean (s.pkKey o.pk)))).dowelDone st
        o).dowelReply o 0 v false := by
  have hn : (BitVec.truncate 5 o.pk.sub).toNat = o.pk.sub.toNat % 32 := BitVec.toNat_setWidth ..
  simp only [State.dowelHandler, hn, if_neg hp, hr]
  rfl

theorem State.gctx_setGctx (s : State) (c : Ctx) (g : GCtx) : (s.setGctx c g).gctx c = g :=
  Map.get_set_same GCtx.reset g s.fab.gctx c.toNat

/-- A program whose words are all there and all defined is installed, filled up with `hfail 0` (R452). -/
theorem State.hloadEnd_of_defined {s : State} {c : Ctx} {h : HLoad} (hd : ∀ w ∈ h.words, hdefined w.toNat = true) :
    s.hloadEnd c h = s.setGctx c { s.gctx c with
      hload := none, herr := 0, hwidx := 0,
      prog := Map.set [] (s.gctx c).prog h.hn.toNat (h.words ++ List.replicate (64 - h.words.length) hfail0) } := by
  have hall : (List.range h.words.length).find? (fun i => !hdefined (h.words.getD i 0).toNat) = none := by
    refine List.find?_eq_none.2 fun i hi => ?_
    have hlt := List.mem_range.1 hi
    rw [List.getD_eq_getElem _ _ hlt, hd _ (List.getElem_mem hlt)]
    exact Bool.false_ne_true
  simp only [State.hloadEnd, hall]

theorem execHandlerLoadComplete_of_none {s : State} {c : Ctx} (h : (s.gctx c).hload = none) : execHandlerLoadComplete c s = .next s := by
  rw [execHandlerLoadComplete, State.hloadRun, h]

theorem execHandlerLoadComplete_of_read {s : State} {c : Ctx} {h : HLoad} (hl : (s.gctx c).hload = some h) (hn : h.words.length = h.n) :
    execHandlerLoadComplete c s = .next (s.hloadEnd c h) := by
  rw [execHandlerLoadComplete, State.hloadRun, hl]
  exact congrArg _ (if_pos hn)

/-- An engine by the operation whose turn it is, and a load by the words it has. -/
theorem dowelEvents : Claims.DowelEvents := by
  intro s st c
  refine ⟨exec_of_dowelIdle, fun o h => ⟨exec_of_dowelAtomic h, fun hop => ⟨execDowelOperation_of_handler h hop,
    execDowelHandler_of_notOwned h hop, fun v r ho hp hr => ?_⟩⟩, execHandlerLoadComplete_of_none, fun h hl hn hd => ?_⟩
  · exact (execDowelHandler_of_owned h hop ho).trans (congrArg _ (State.dowelHandler_of_ok hp hr))
  · refine ⟨_, execHandlerLoadComplete_of_read hl hn, ?_⟩
    rw [State.hloadEnd_of_defined hd, State.gctx_setGctx]
    exact ⟨rfl, rfl, Map.get_set_same ..⟩

/-! ## Links (R439, R440) -/

theorem Link.weak_n (l : Link) : l.weak.n = min l.tx.n l.rx.n := by
  unfold Link.weak
  split
  · next h =>
    simp only [Bool.or_eq_true, Bool.and_eq_true, decide_eq_true_eq, beq_iff_eq] at h
    omega
  · next h =>
    simp only [Bool.or_eq_true, decide_eq_true_eq, not_or] at h
    omega

/-- The state of a link after its fibres have changed, by the weaker of both directions. -/
theorem Link.settle_onFibre (l : Link) (gl rx : Bool) (f : Fibre → Fibre) (sfb : Bool) :
    ({ l.onFibre gl rx f with sfb := sfb } : Link).settle gl =
      (let tx := if gl = true ∧ rx = true then l.tx else f l.tx
       let rx := if gl = true ∧ rx = false then l.rx else f l.rx
       let whole := if gl = true then 32 else 16
       ⟨l.rty, tx, rx, sfb, if min tx.n rx.n = 0 then 0 else if min tx.n rx.n < whole then 2 else 1⟩) := by
  have hwhole : (Fibre.whole gl).n = if gl = true then 32 else 16 := by cases gl <;> rfl
  simp only [Link.settle, Link.onFibre, Link.weak_n, hwhole, Bool.and_eq_true, Bool.not_eq_true']

/-- The fibre of one direction. -/
def Link.fibre (l : Link) (rx : Bool) : Fibre := if rx then l.rx else l.tx

theorem Link.fibre_n (l : Link) (rx : Bool) : (l.fibre rx).n = if rx then l.rx.n else l.tx.n := apply_ite Fibre.n ..

/-- The part of a link that fails: a lane of one direction, or the whole fibre. -/
abbrev failing (fib rx : Bool) : LinkPart := if fib then .fibre rx else .lane rx

section
variable {s : State} {gl : Bool} {n : BitVec 7}

theorem exec_of_linkUnused (h : (s.linkOf gl n.toNat).st = 3) (part : LinkPart) :
    execFlitReplay gl n s = .next s ∧ execLaneSwap gl n part s = .next s ∧ execLinkDown gl n s = .next s := by
  simp only [execFlitReplay, execLaneSwap, execLinkDown, h, decide_true, Bool.true_or, if_true, and_self]

/-- A direction in which nothing works has nothing more to lose. -/
theorem execLaneSwap_of_dead {rx : Bool} (hd : ((s.linkOf gl n.toNat).fibre rx).n = 0) (fib : Bool) :
    execLaneSwap gl n (failing fib rx) s = .next s := by
  rw [Link.fibre_n] at hd
  cases fib <;> simp only [execLaneSwap, failing, if_true, Bool.false_eq_true, if_false, hd, decide_true, Bool.or_true]

variable (h : (s.linkOf gl n.toNat).st ≠ 3)
include h

theorem execFlitReplay_of_used :
    execFlitReplay gl n s = .next (s.setLinkOf gl n.toNat { s.linkOf gl n.toNat with rty := (s.linkOf gl n.toNat).rty + 1 }) := by
  simp only [execFlitReplay, h, if_false]

theorem execLinkDown_of_used :
    execLinkDown gl n s = .next (s.setLinkOf gl n.toNat { s.linkOf gl n.toNat with tx := ⟨0, 0⟩, rx := ⟨0, 0⟩, st := 0 }) := by
  simp only [execLinkDown, h, if_false]

section
variable {fib rx : Bool}

variable (hw : ((s.linkOf gl n.toNat).fibre rx).n ≠ 0)
include hw

/-- A lane fails, or the fibre of a local link, which is its lanes. -/
theorem execLaneSwap_of_lane (hl : fib = false ∨ gl = false) : execLaneSwap gl n (failing fib rx) s =
    .next (s.setLinkOf gl n.toNat (((s.linkOf gl n.toNat).onFibre gl rx Fibre.lose).settle gl)) := by
  rw [Link.fibre_n] at hw
  rcases hl with rfl | rfl
  · simp only [execLaneSwap, failing, Bool.false_eq_true, if_false, h, hw, decide_false, Bool.or_self, Bool.false_and]
  · cases fib <;> simp only [execLaneSwap, failing, if_true, Bool.false_eq_true, if_false, h, hw, decide_false, Bool.or_self,
      Bool.and_false]

/-- A fibre of a global link fails, and a spare fibre of the device replaces it. -/
theorem execLaneSwap_of_spareFibre (hf : fib = true) (hg : gl = true) (hs : 0 < s.fab.spf) : execLaneSwap gl n (failing fib rx) s =
    .next ((s.setFab { s.fab with spf := s.fab.spf - 1 }).setLinkOf gl n.toNat
      (({ (s.linkOf gl n.toNat).onFibre gl rx (fun _ => ⟨32, 2⟩) with sfb := true } : Link).settle gl)) := by
  rw [Link.fibre_n] at hw
  subst hf hg
  simp only [execLaneSwap, failing, if_true, if_false, h, hw, decide_false, Bool.or_self, Bool.and_self, Bool.false_eq_true,
    Nat.ne_of_gt hs, Fibre.whole]

/-- Without a spare fibre that direction has none. -/
theorem execLaneSwap_of_noSpareFibre (hf : fib = true) (hg : gl = true) (hs : s.fab.spf = 0) : execLaneSwap gl n (failing fib rx) s =
    .next (s.setLinkOf gl n.toNat (((s.linkOf gl n.toNat).onFibre gl rx (fun _ => ⟨0, 0⟩)).settle gl)) := by
  rw [Link.fibre_n] at hw
  subst hf hg
  simp only [execLaneSwap, failing, if_true, if_false, h, hw, decide_false, Bool.or_self, Bool.and_self, Bool.false_eq_true, hs]

end

end

/-- A link by whether it joins two devices, what works in the direction that fails, and the spare fibres of the device. -/
theorem linkEvents : Claims.LinkEvents := by
  intro s gl n fib rx
  have swapped (u : State) (f : Fibre → Fibre) (sfb : Bool) :=
    congrArg (u.setLinkOf gl n.toNat) (Link.settle_onFibre (s.linkOf gl n.toNat) gl rx f sfb)
  refine ⟨fun h => exec_of_linkUnused h (failing fib rx), fun h => ⟨execFlitReplay_of_used h, execLinkDown_of_used h,
    fun hd => execLaneSwap_of_dead hd fib, fun hw hl => ?_, fun hw hf hg hs => ?_, fun hw hf hg hs => ?_⟩⟩
  · exact (execLaneSwap_of_lane h hw hl).trans (congrArg _ (swapped s Fibre.lose _))
  · exact (execLaneSwap_of_spareFibre h hw hf hg hs).trans (congrArg _ (swapped _ _ true))
  · exact (execLaneSwap_of_noSpareFibre h hw hf hg hs).trans (congrArg _ (swapped s (fun _ => ⟨0, 0⟩) (s.linkOf gl n.toNat).sfb))

/-- Settles O53: packets by their turn, homes by their checks, answers by their request, engines by the operation whose turn it is, links
by what works. -/
theorem fabricEvents : Obligations.FabricEvents := ⟨packetsTaken, homeServes, answersServed, dowelEvents, linkEvents⟩

end Sys2Proof.Machine
end

section
/-! The owner and its requests (16 R380, R383, 18 R421 to R427): what a request of the mailbox answers, when a page may be marked, how
ownership changes hands, and the phases of a boot. -/
namespace Sys2Proof.Machine

/-! ## Requests of the mailbox (R423) -/

/-- A request of another master, or one while another is busy, is discarded. -/
theorem owner_of_discarded {s : State} {w : Nat} (h : s.pkg.owner.toNat ≠ w ∨ s.pkg.req.isSome) (h9 : s.pkg.req ≠ some (w, 9))
    (q : OwnReq) (f : Chk State) : owner w q s f = .next s := by
  simp only [owner, h9, decide_false, Bool.and_false, Bool.false_eq_true, if_false, Bool.or_eq_true, decide_eq_true_eq, if_pos h]

section
variable {s : State} {w : Nat} (ho : s.pkg.owner.toNat = w) (hr : s.pkg.req = none) (q : OwnReq)
include ho hr

/-- A request of the owner stands in the mailbox and ends there. -/
theorem owner_of_owner (f : Chk State) :
    owner w q s f = .next ((Claims.posted q s).mailEnds w q.bytes.1 (f.map (Claims.posted q))) := by
  simp only [owner, hr, ho, ne_eq, reduceCtorEq, not_true, decide_false, Bool.and_false, Option.isSome_none, Bool.or_self,
    Bool.false_eq_true, if_false]
  rfl

theorem owner_of_ok (t : State) : owner w q s (.ok t) = .next (Claims.granted q t) := owner_of_owner ho hr q _

theorem owner_of_trap (x : Trap) : owner w q s (.error (.trap x)) = .next (Claims.refused q s) := owner_of_owner ho hr q _

theorem owner_orRefuse (f : Option State) : owner w q s (orRefuse f) = .next (Claims.answered q s f) := by
  cases f with
  | none => exact owner_of_trap ho hr q _
  | some t => exact owner_of_ok ho hr q t

end

/-- What is granted differs from what has been done in the mailbox only. -/
theorem granted_mem (q : OwnReq) (t : State) : (Claims.granted q t).mem = t.mem := rfl
theorem granted_mail (q : OwnReq) (t : State) : (Claims.granted q t).pkg.mail = 2 := rfl
theorem granted_vrm (q : OwnReq) (t : State) : (Claims.granted q t).pkg.vrm = t.pkg.vrm := rfl
theorem granted_meas (q : OwnReq) (t : State) : (Claims.granted q t).pkg.meas = t.pkg.meas := rfl

/-! ## What a repair map update does at once (R388, R392, R425) -/

/-- The versions and measurements of images are kept. -/
def State.SameImages (s t : State) : Prop := t.pkg.vrm = s.pkg.vrm ∧ t.pkg.meas = s.pkg.meas

theorem State.SameImages.refl (s : State) : s.SameImages s := ⟨rfl, rfl⟩

theorem State.SameImages.trans {s t u : State} (h : s.SameImages t) (h' : t.SameImages u) : s.SameImages u :=
  ⟨h'.1.trans h.1, h'.2.trans h.2⟩

theorem State.SameImages.of_pkg {s t : State} (h : t.pkg = s.pkg) : s.SameImages t := ⟨congrArg Pkg.vrm h, congrArg Pkg.meas h⟩

theorem State.foldl_sameImages {α : Type} {f : State → α → State} (hf : ∀ (s : State) (x : α), s.SameImages (f s x)) (l : List α)
    (s : State) : State.SameImages s (l.foldl f s) :=
  List.foldlRecOn l f (motive := fun t : State => s.SameImages t) (.refl s) fun t ht x _ => ht.trans (hf t x)

theorem State.setStack_sameImages (s : State) (n : Nat) (x : Stack) : s.SameImages (s.setStack n x) := ⟨rfl, rfl⟩

theorem State.remap_pkg (s : State) (f : Nat) (new : Page → List Page) : (s.remap f new).pkg = s.pkg := rfl

theorem State.outOfService_sameImages (s : State) (l : List Nat) : s.SameImages (s.outOfService l) :=
  State.SameImages.trans (t := s.setPkg { s.pkg with retired := l.foldl (fun r g => Map.set false r g true) s.pkg.retired }) ⟨rfl, rfl⟩
    (State.foldl_sameImages (fun t f => t.setStack_sameImages (f % 12) _) l _)

theorem State.moveFrame_sameImages (s : State) (f t : Nat) : s.SameImages (s.moveFrame f t) := ⟨rfl, rfl⟩

/-- A state with other versioned frames. -/
def State.withFrames (s : State) (m : Map (Option Frame)) : State := { s with frames := m }

/-- The shadow of a frame moves too. -/
theorem State.moveShadow_sameImages (s : State) (m m' : Map (Option Frame)) (f t : Nat) :
    s.SameImages (((s.withFrames m).moveFrame f t).withFrames m') := ⟨rfl, rfl⟩

/-- A frame leaves service, with its content and its shadow moved or its pages unmapped. -/
theorem State.retireFrame_sameImages (s : State) (f : Nat) : s.SameImages (s.retireFrame f) := by
  unfold State.retireFrame
  extract_lets p olds t₁ n t₂ t₃ move t₄
  have h₂ : s.SameImages t₂ := (s.outOfService_sameImages olds).trans (t₁.moveFrame_sameImages p n)
  have h₃ : t₂.SameImages t₃ := by
    simp only [t₃]
    split
    · exact t₂.moveShadow_sameImages _ _ _ _
    · exact .refl t₂
  have h₄ : t₃.SameImages t₄ := .of_pkg (t₃.remap_pkg p _)
  split
  · exact (State.SameImages.of_pkg (s.remap_pkg p _)).trans (State.outOfService_sameImages _ olds)
  · exact (h₂.trans (h₃.trans h₄)).trans ⟨rfl, rfl⟩

theorem State.quarantine_pkg (s : State) (clu n : Nat) : (s.quarantine clu n).pkg = s.pkg := by
  unfold State.quarantine
  extract_lets t
  split <;> rfl

theorem State.bankSpare_pkg (s : State) (e : Nat × Nat) : (s.bankSpare e).pkg = s.pkg := by
  rw [State.bankSpare]
  split
  · exact s.quarantine_pkg _ _
  · rfl

/-- The spare channels that come into service. -/
def State.spareChannels (s : State) (img : RepairImage) : State :=
  (List.range 12).foldl (fun (s : State) n =>
    if img.spareCh.toNat.testBit n then s.setStack n { s.stackAt n with sch := true } else s) s

theorem State.spareChannels_sameImages (s : State) (img : RepairImage) : s.SameImages (s.spareChannels img) :=
  State.foldl_sameImages (fun t n => by split <;> [exact t.setStack_sameImages n _; exact .refl t]) _ s

theorem State.spareChannels_mem (s : State) (img : RepairImage) : (s.spareChannels img).mem = s.mem :=
  foldl_mem _ (fun t n => by split <;> rfl) _ s

theorem State.repairNow_sameImages (s : State) (img : RepairImage) : s.SameImages (s.repairNow img) := by
  refine (State.foldl_sameImages (fun t f => ?_) img.frames s).trans
    ((State.foldl_sameImages (fun t e => .of_pkg (t.bankSpare_pkg e)) img.banks _).trans (State.spareChannels_sameImages _ img))
  split
  · exact .refl t
  · exact (State.SameImages.of_pkg (t.remap_pkg _ _)).trans (State.retireFrame_sameImages _ f)

/-- An update that retires nothing moves no data. -/
theorem State.repairNow_mem {s : State} {img : RepairImage} (hf : img.frames = []) (hb : img.banks = []) :
    (s.repairNow img).mem = s.mem := by
  simp only [State.repairNow, hf, hb, List.foldl_nil]
  exact s.spareChannels_mem img

/-- The package with the version and the measurement of an update, and what it keeps for the next boot. -/
def Pkg.updated (p : Pkg) (img : RepairImage) : Pkg :=
  { p with
    vrm := img.img.ver
    meas := Map.set 0 p.meas 3 (sha256 (bytesLE 32 (Map.get 0 p.meas 3).toNat ++ bytesLE 32 img.img.digest.toNat))
    kept := ⟨p.kept.outCh ||| img.outCh, p.kept.cores ++ img.cores⟩ }

/-- The measurement of repair maps is extended (R426). -/
theorem Pkg.updated_meas (p : Pkg) (img : RepairImage) : Map.get 0 (p.updated img).meas 3 =
    sha256 (bytesLE 32 (Map.get 0 p.meas 3).toNat ++ bytesLE 32 img.img.digest.toNat) := by
  simp only [Pkg.updated, Map.get_set_same]

/-- The Mortise with the configuration that an owner gives it. -/
def Mortise.assigned (m : Mortise) (c : Ctx) (cfg : W64) : Mortise :=
  let m' := { m with cfg := BitVec.ofNat 64 (bitsOf cfg 16 5 * 2 ^ 16 + bitsOf cfg 8 1 * 2 ^ 8 + c.toNat * 2 ^ 4 + bitsOf cfg 0 1) }
  if m.ctx = c then m'
  else { m' with orph := [], dup := 0, rel := 0, orpl := 0, orphN := 0, tzr := 0, tout := 0, refuse := 0, stale := 0 }

/-- A Mortise that stays with its context keeps its episodes and orphans. -/
theorem Mortise.assigned_of_same {m : Mortise} {c : Ctx} (h : m.ctx = c) (cfg : W64) :
    (m.assigned c cfg).orph = m.orph ∧ (m.assigned c cfg).table = m.table := by
  simp only [Mortise.assigned, if_pos h, and_self]

/-- One that goes to another context starts anew. -/
theorem Mortise.assigned_of_other {m : Mortise} {c : Ctx} (h : m.ctx ≠ c) (cfg : W64) :
    (m.assigned c cfg).orph = [] ∧ (m.assigned c cfg).rel = 0 ∧ (m.assigned c cfg).dup = 0 := by
  simp only [Mortise.assigned, if_neg h, and_self]

/-! ## The requests (R378, R380, R394, R423, R425, R426, R429, R434) -/

section
variable {s : State} {w : Nat} (ho : s.pkg.owner.toNat = w) (hr : s.pkg.req = none)
include ho hr

theorem exec_setPowerCap_of_owner (cap : BitVec 16) :
    exec (.setPowerCap w cap) s = .next (if 1500 ≤ cap.toNat ∧ cap.toNat ≤ 5000
      then Claims.granted (.power cap) (s.setPkg { s.pkg with pcap := cap }) else Claims.refused (.power cap) s) := by
  show execSetPowerCap w cap s = _
  simp only [execSetPowerCap, Bool.and_eq_true, decide_eq_true_eq]
  split
  · exact owner_of_ok ho hr _ _
  · exact owner_of_trap ho hr _ _

/-- A restore ends with the state that it makes, or refused, or waits with status 1. -/
theorem exec_restoreStepPosition_of_owner (c : Ctx) (va : W64) :
    (∀ t, s.restore c va.toNat = .ok t → exec (.restoreStepPosition w c va) s = .next (Claims.granted (.restore c va) t)) ∧
    (∀ x, s.restore c va.toNat = .error (.trap x) → exec (.restoreStepPosition w c va) s = .next (Claims.refused (.restore c va) s)) ∧
    (s.restore c va.toNat = .error .wait → ∃ t, exec (.restoreStepPosition w c va) s = .next t ∧ t.pkg.mail = 1 ∧
      t.pkg.req = some (w, 6) ∧ t.mem = s.mem ∧ t.ctxs = s.ctxs) := by
  have hexec : exec (.restoreStepPosition w c va) s = owner w (.restore c va) s (s.restore c va.toNat) := rfl
  rw [hexec]
  refine ⟨fun t h => ?_, fun x h => ?_, fun h => ⟨_, owner_of_owner ho hr _ _, ?_⟩⟩
  · rw [h, owner_of_ok ho hr]
  · rw [h, owner_of_trap ho hr]
  · rw [h]
    exact ⟨rfl, rfl, rfl, rfl⟩

theorem exec_assignUnit_of_mortise (c : Ctx) (cfg : W64) :
    exec (.assignUnit w false c cfg) s = .next (Claims.granted (.unit false c cfg) (s.setMo (s.pkg.mo.assigned c cfg))) :=
  owner_of_ok ho hr (.unit false c cfg) (s.setMo (s.pkg.mo.assigned c cfg))

/-- An update whose image is wrong or too old is refused. -/
theorem exec_repairMapUpdate_of_bad {img : RepairImage} (h : imageWhy img.img true ≠ 0 ∨ img.img.ver.toNat < s.pkg.vmin.toNat) :
    exec (.repairMapUpdate w img) s = .next (Claims.refused .repair s) := by
  show execRepairMapUpdate w img s = _
  simp only [execRepairMapUpdate, Bool.or_eq_true, decide_eq_true_eq, if_pos h]
  exact owner_of_trap ho hr _ _

/-- One whose image is good is noted, measured and applied. -/
theorem exec_repairMapUpdate_of_good {img : RepairImage} (h0 : imageWhy img.img true = 0)
    (hv : s.pkg.vmin.toNat ≤ img.img.ver.toNat) :
    exec (.repairMapUpdate w img) s = .next (Claims.granted .repair ((s.setPkg (s.pkg.updated img)).repairNow img)) := by
  show execRepairMapUpdate w img s = _
  have hgood : ¬((decide (imageWhy img.img true ≠ 0) || decide (img.img.ver.toNat < s.pkg.vmin.toNat)) = true) := by
    simp only [h0, Nat.not_lt.2 hv, ne_eq, not_true, decide_false, Bool.or_self, Bool.false_eq_true, not_false_eq_true]
  simp only [execRepairMapUpdate, if_neg hgood]
  exact owner_of_ok ho hr .repair ((s.setPkg (s.pkg.updated img)).repairNow img)

end

/-- A ring in use keeps its context. -/
theorem State.assignRing_of_otherContext {s : State} {n : Nat} {d : BitVec 256} (he : (s.ring n).en = true)
    (hc : (s.ring n).ctx ≠ BitVec.ofNat 4 (nb d.toNat 160 8)) : s.assignRing n d = none :=
  if_pos (Bool.and_eq_true_iff.2 ⟨he, decide_eq_true hc⟩)

/-- Descriptors lie at multiples of 32 bytes. -/
theorem State.assignRing_of_unaligned {s : State} {n : Nat} {d : BitVec 256} (h : nb d.toNat 0 64 % 32 ≠ 0) : s.assignRing n d = none := by
  have hbad : (decide (nb d.toNat (8 * 0) (8 * 8) % 32 ≠ 0) || (s.page (BitVec.ofNat 4 (nb d.toNat (8 * 20) (8 * 1)))
      (nb d.toNat (8 * 0) (8 * 8))).isNone || !powerOfTwo (nb d.toNat (8 * 8) (8 * 4)) 1 16) = true := by
    simp only [Bool.or_eq_true, decide_eq_true_eq]
    exact .inl (.inl h)
  simp only [State.assignRing, if_pos hbad, ite_self]

/-- Each request of the mailbox, from another master or while one is busy, is discarded. -/
theorem exec_ownerRequests_of_discarded {s : State} {w : Nat} (h : s.pkg.owner.toNat ≠ w ∨ s.pkg.req.isSome)
    (h9 : s.pkg.req ≠ some (w, 9)) (c : Ctx) (idx : BitVec 12) (rec : BitVec 512) (va cfg : W64) (cores : BitVec 384) (stk : Cap)
    (dove : Bool) (tg : DebugTarget) (img : RepairImage) (nonce d : BitVec 256) (cap : BitVec 16) (ring : BitVec 7) :
    ∀ i ∈ Claims.ownerRequests w c idx rec va cfg cores stk dove tg img nonce d cap ring, exec i s = .next s := by
  simp only [Claims.ownerRequests, List.forall_mem_cons, List.not_mem_nil, false_implies, implies_true, and_true]
  simp only [exec, execInstallTensorHandle, execMarkVersioned, execUnmarkVersioned, execSetCoreSet, execAssignUnit,
    execRestoreStepPosition, execDebugHaltDrain, execDebugHaltFreeze, execDebugResume, execRepairMapUpdate, execQuote, execSetPowerCap,
    execAssignEthernetRing, owner_of_discarded h h9, and_self]

/-- A debugger's write and a descriptor of another master are discarded. -/
theorem exec_ownerWrites_of_notOwner {s : State} {w : Nat} (h : s.pkg.owner.toNat ≠ w) (dw : DebugWrite) (d : BitVec 256) :
    exec (.debugWrite w dw) s = .next s ∧ ∀ n, exec (.streamDescriptorWrite w n d) s = .next s := by
  refine ⟨?_, fun n => congrArg _ (if_pos h)⟩
  show execDebugWrite w dw s = _
  simp only [execDebugWrite, h, decide_false, Bool.false_and, Bool.false_eq_true, if_false]

/-- A request by its master and the mailbox, one of the owner by its conditions. -/
theorem ownerRequests : Claims.OwnerRequests := by
  intro s w c idx rec va cfg cores stk dove tg dw img nonce d cap ring
  refine ⟨fun h h9 => exec_ownerRequests_of_discarded h h9 c idx rec va cfg cores stk dove tg img nonce d cap ring,
    fun h => exec_ownerWrites_of_notOwner h dw d, fun ho hr => ?_⟩
  obtain ⟨hok, htrap, hwait⟩ := exec_restoreStepPosition_of_owner ho hr c va
  refine ⟨owner_of_ok ho hr (.handle c idx rec) _, owner_of_ok ho hr (.cores c cores stk.bits cfg) _,
    exec_setPowerCap_of_owner ho hr cap, owner_orRefuse ho hr (.version c va true) _,
    owner_orRefuse ho hr (.version c va false) _, hok, htrap, hwait, owner_of_ok ho hr (.quote nonce) _,
    owner_of_ok ho hr (.unit true c cfg) _, fun h => ?_, fun h => ?_,
    exec_repairMapUpdate_of_bad ho hr, fun h0 hv => ?_, owner_orRefuse ho hr (.ring ring d) _, State.assignRing_of_otherContext,
    State.assignRing_of_unaligned⟩
  · refine ⟨_, exec_assignUnit_of_mortise ho hr c cfg, ?_⟩
    obtain ⟨horph, htable⟩ := Mortise.assigned_of_same h cfg
    exact ⟨horph, rfl, htable⟩
  · refine ⟨_, exec_assignUnit_of_mortise ho hr c cfg, ?_⟩
    obtain ⟨horph, hrel, hdup⟩ := Mortise.assigned_of_other h cfg
    exact ⟨horph, hrel, hdup, rfl⟩
  · obtain ⟨hvrm, hmeas⟩ := (s.setPkg (s.pkg.updated img)).repairNow_sameImages img
    refine ⟨_, exec_repairMapUpdate_of_good ho hr h0 hv, ?_, granted_mail .repair _, ?_, fun hf hb => ?_⟩
    · rw [granted_vrm, hvrm]
      rfl
    · rw [granted_meas, hmeas, State.setPkg_pkg, Pkg.updated_meas]
    · rw [granted_mem, State.repairNow_mem hf hb]
      rfl

/-! ## Marking a page (R380, R383) -/

theorem State.setVersioned_of_unmapped {s : State} {c : Ctx} {va : Nat} (h : s.page c va = none) (on : Bool) :
    s.setVersioned c va on = none := by
  rw [State.setVersioned, h]

section
variable {s : State} {c : Ctx} {va : Nat} {on : Bool} {p : Page} (h : s.page c va = some p)
include h

theorem State.setVersioned_of_refused (hb : (s.ctx c).step.open_ = true ∨ (s.ctx c).step.wait = true ∨ p.vers = on ∨
    s.sharedRange c p.pa (2 ^ p.sz) = true) : s.setVersioned c va on = none := by
  simp only [State.setVersioned, h, Bool.or_eq_true, beq_iff_eq, or_assoc, if_pos hb]

/-- Of a page of another peer the mark is all that is held here. -/
theorem State.setVersioned_of_remote (ho : (s.ctx c).step.open_ = false) (hw : (s.ctx c).step.wait = false) (hv : p.vers ≠ on)
    (hs : s.sharedRange c p.pa (2 ^ p.sz) = false) (hr : s.remote p.pa = true) :
    s.setVersioned c va on = some (s.setCtx c { s.ctx c with
      pages := (s.ctx c).pages.map (fun q => if q.va = p.va then { q with vers := on } else q) }) := by
  have hgo : (p.vers == on) = false := beq_eq_false_iff_ne.2 hv
  simp only [State.setVersioned, h, ho, hw, hgo, hs, hr, Bool.or_self, Bool.false_eq_true, if_false, if_true, List.foldl_nil, ite_self,
    Option.map_some]

end

/-- A shadow lies in the stack of its frame, in a frame that nothing names. -/
theorem State.frameBeside_spec {s : State} {f g : Nat} (h : s.frameBeside f = some g) :
    stackOf (g * 65536) = stackOf (f * 65536) ∧ s.frameUsed g = false := by
  have hg := List.find?_some h
  simp only [Bool.and_eq_true, beq_iff_eq, Bool.not_eq_true'] at hg
  simpa only [stackOf, Nat.mul_div_cancel _ (show 0 < 65536 by decide)] using hg

section
variable {s : State} {f : Nat} (h : Map.get none s.frames f = none) (c : Ctx) (a n : Nat)
include h

theorem State.markFrame_of_noShadow (hb : s.frameBeside f = none) : s.markFrame c a n f = none := by
  simp only [State.markFrame, h, hb, Option.map_none]

/-- The frame is entered with its shadow in the table of versioned frames. -/
theorem State.markFrame_eq_withFrames {g : Nat} (hb : s.frameBeside f = some g) :
    ∃ (u : State) (x : Frame), s.markFrame c a n f = some (u.withFrames (Map.set none u.frames f (some x))) ∧ x.shadow = g := by
  simp only [State.markFrame, h, hb, Option.map_some]
  exact ⟨_, ⟨c, g, _, _, _⟩, rfl, rfl⟩

theorem State.markFrame_of_shadow {g : Nat} (hb : s.frameBeside f = some g) :
    ∃ t x, s.markFrame c a n f = some t ∧ Map.get none t.frames f = some x ∧ x.shadow = g := by
  obtain ⟨u, x, ht, hx⟩ := State.markFrame_eq_withFrames h c a n hb
  exact ⟨_, x, ht, Map.get_set_same none (some x) u.frames f, hx⟩

end

/-- A page by what it stands for, a frame by the shadow that it finds. -/
theorem markingPages : Claims.MarkingPages := fun s c _ on =>
  ⟨fun h => State.setVersioned_of_unmapped h on, fun _ h hb => State.setVersioned_of_refused h hb,
    fun _ h ho hw hv hs hr => ⟨_, State.setVersioned_of_remote h ho hw hv hs hr, rfl, rfl, congrArg CtxRec.pages (s.ctx_setCtx c _)⟩,
    fun _ _ => State.frameBeside_spec, fun a n _ h => ⟨State.markFrame_of_noShadow h c a n, fun _ => State.markFrame_of_shadow h c a n⟩⟩

/-! ## Ownership (R422) -/

/-- One OWNCMD write on the owner and the offer, by its operation. -/
theorem ownAfter_eq (o p t : BitVec 8) (w : Nat) :
    let me := BitVec.ofNat 8 w
    ownAfter (o, p) (w, 1, t) = (if o = 0xFF then me else o, p) ∧ ownAfter (o, p) (w, 2, t) = (o, if o = me then t else p) ∧
    ownAfter (o, p) (w, 3, t) = (if p = me then me else o, if p = me then 0xFF else p) ∧
    ownAfter (o, p) (w, 4, t) = (if o = me then 0xFF else o, if o = me then 0xFF else p) := by
  and_intros <;> (simp only [ownAfter]; split <;> rfl)

/-- A write that names a master or no one. -/
def OwnTarget (t : BitVec 8) : Prop := t.toNat ≤ 16 ∨ t = 0xFF

theorem State.ownCmd_of_badTarget {s : State} {t : BitVec 8} (ht : 16 < t.toNat) (hn : t ≠ 0xFF) (w op : Nat) : s.ownCmd w op t = s := by
  refine if_pos ?_
  simp only [ht, bne_iff_ne.2 hn, decide_true, Bool.and_self, Bool.or_true]

section
variable {s : State} {w : Nat} (hw : w ≤ 16)
include hw

theorem State.ownCmd_of_target {t : BitVec 8} (ht : OwnTarget t) (op : Nat) :
    s.ownCmd w op t =
      (let p := s.pkg
       let was := if p.own.isEmpty then (p.owner, p.pend) else p.ownWas
       let l := ownInsert (w, op, t) p.own
       let o := l.foldl ownAfter was
       s.setPkg { p with own := l, ownWas := was, owner := o.1, pend := o.2 }) := by
  refine if_neg ?_
  simp only [Bool.or_eq_true, Bool.and_eq_true, decide_eq_true_eq, bne_iff_ne]
  rintro (h | ⟨h, hn⟩)
  · omega
  · exact ht.elim (Nat.not_le.2 h) hn

/-- The first write of a cycle takes effect on what stands. -/
theorem State.ownCmd_of_first (h : s.pkg.own = []) {t : BitVec 8} (ht : OwnTarget t) (op : Nat) :
    s.ownCmd w op t = s.setPkg { s.pkg with
      own := [(w, op, t)], ownWas := (s.pkg.owner, s.pkg.pend),
      owner := (ownAfter (s.pkg.owner, s.pkg.pend) (w, op, t)).1, pend := (ownAfter (s.pkg.owner, s.pkg.pend) (w, op, t)).2 } := by
  rw [State.ownCmd_of_target hw ht]
  simp only [h, List.isEmpty_nil, if_true, ownInsert, List.foldl_cons, List.foldl_nil]

/-- An OWNCMD event that is the first write of a cycle changes owner and offer, and nothing of memory, cores and dies. -/
theorem exec_of_ownCmd_first {i : Instr} {op : Nat} {t o p : BitVec 8} (hi : exec i s = .next (s.ownCmd w op t)) (h : s.pkg.own = [])
    (ht : OwnTarget t) (ha : ownAfter (s.pkg.owner, s.pkg.pend) (w, op, t) = (o, p)) :
    ∃ u, exec i s = .next u ∧ u.pkg.owner = o ∧ u.pkg.pend = p ∧ u.mem = s.mem ∧ u.core = s.core ∧ u.die = s.die := by
  rw [hi, State.ownCmd_of_first hw h ht, ha]
  exact ⟨_, rfl, rfl, rfl, rfl, rfl, rfl⟩

end

theorem master_ne_none {w : Nat} (hw : w ≤ 16) : BitVec.ofNat 8 w ≠ 0xFF := by
  intro h
  have hnat : w % 2 ^ 8 = 255 := (BitVec.toNat_ofNat w 8).symm.trans (congrArg BitVec.toNat h)
  omega

theorem toNat_master {w : Nat} (hw : w ≤ 16) : (BitVec.ofNat 8 w).toNat = w := by
  rw [BitVec.toNat_ofNat]
  omega

/-- The link of a function that does not own the device, or that no request of its own holds, acts as RELEASE. -/
theorem exec_ownerLinkDown_of_idle {s : State} (h : s.pkg.req = none) (w : Nat) :
    exec (.ownerLinkDown w) s = .next (s.ownCmd w 4 0xFF) := by
  show execOwnerLinkDown w s = _
  simp only [execOwnerLinkDown, h, Option.isSome_none, Bool.false_and, Bool.false_eq_true, if_false]

theorem exec_ownerLinkDown_of_busy {s : State} {w : Nat} (h : s.pkg.req.isSome) (ho : s.pkg.owner.toNat = w) :
    exec (.ownerLinkDown w) s = .next (s.setPkg { s.pkg with ownDown := some w }) := by
  show execOwnerLinkDown w s = _
  simp only [execOwnerLinkDown, h, ho, decide_true, Bool.and_self, if_true]

/-- Of two CLAIMs of one cycle the lower master's goes first. -/
theorem claims_of_one_cycle {s : State} {v w : Nat} (h : s.pkg.own = []) (ho : s.pkg.owner = 0xFF) (hwv : w < v) (hv : v ≤ 16) :
    ((s.ownCmd v 1 0xFF).ownCmd w 1 0xFF).pkg.owner = BitVec.ofNat 8 w := by
  have hnot : ¬v ≤ w := Nat.not_le.2 hwv
  rw [State.ownCmd_of_target (Nat.le_of_lt (Nat.lt_of_lt_of_le hwv hv)) (.inr rfl), State.ownCmd_of_first hv h (.inr rfl)]
  simp only [State.setPkg_pkg, List.isEmpty_cons, Bool.false_eq_true, if_false, ownInsert, hnot, List.foldl_cons, List.foldl_nil, ho,
    (ownAfter_eq _ _ _ _).1, if_true, if_neg (master_ne_none (Nat.le_of_lt (Nat.lt_of_lt_of_le hwv hv)))]

/-- A register no wider than a field takes the low bits of what lies there. -/
theorem ofNat_nb (x lo : Nat) {w len : Nat} (h : w ≤ len) : BitVec.ofNat w (nb x lo len) = BitVec.ofNat w (x / 2 ^ lo) := by
  refine BitVec.eq_of_toNat_eq ?_
  rw [BitVec.toNat_ofNat, BitVec.toNat_ofNat, nb, Nat.mod_mod_of_dvd _ (Nat.pow_dvd_pow 2 h)]

/-- The host writes the fields of a stream descriptor, but for HEAD (R329, R421). -/
theorem State.putStream_fields (s : State) (n : BitVec 6) (d : BitVec 256) :
    let x := (s.putStream n d).streamOf n
    x.head = (s.streamOf n).head ∧ x.base = BitVec.ofNat 64 d.toNat ∧ x.tail = BitVec.ofNat 32 (d.toNat / 2 ^ 128) ∧
      x.ctx = BitVec.ofNat 4 (d.toNat / 2 ^ 160) := by
  simp only [State.putStream, State.streamOf_setStream_same, true_and]
  refine ⟨?_, ofNat_nb d.toNat 128 (Nat.le_refl 32), ofNat_nb d.toNat 160 (show 4 ≤ 8 by decide)⟩
  rw [ofNat_nb _ _ (Nat.le_refl 64), Nat.mul_zero, Nat.pow_zero, Nat.div_one]

/-! ## Reset and boot (R424, R427) -/

/-- A reset is the machine of State.reset, but for what has left service for good. -/
theorem State.afterReset_fields (s : State) :
    s.afterReset.mem = [] ∧ s.afterReset.cyc = 0 ∧ s.afterReset.pkg.retired = s.pkg.retired ∧ s.afterReset.pkg.owner = 0xFF ∧
      s.afterReset.pkg.bootst = bootWord 0 0 0 := ⟨rfl, rfl, rfl, rfl, rfl⟩

section
variable {s : State} {b : BootImages} (hb : s.pkg.booting = some b)
include hb

theorem State.bootNext_of_rom (h : s.pkg.bootst = bootWord 0 0 0) : s.bootNext.pkg.bootst = bootWord 1 0 0 := by
  have hph : bitsOf (bootWord 0 0 0) 0 4 = 0 := by decide
  simp only [State.bootNext, hb, h, hph, State.setPkg_pkg]

/-- Firmware is loaded, measured and noted, or stops the boot. -/
theorem State.bootNext_of_firmware (h : s.pkg.bootst = bootWord 1 0 0) :
    (imageWhy b.fw false = 0 → s.bootNext.pkg.bootst = bootWord 2 0 0 ∧ s.bootNext.pkg.vfw = b.fw.ver ∧
      Map.get 0 s.bootNext.pkg.meas 0 = b.fw.digest) ∧
    (imageWhy b.fw false ≠ 0 → s.bootNext.pkg.bootst = bootWord 5 1 (imageWhy b.fw false) ∧ s.bootNext.pkg.booting = none) := by
  have hph : bitsOf (bootWord 1 0 0) 0 4 = 1 := by decide
  constructor
  · intro h0
    simp only [State.bootNext, hb, h, hph, h0, ne_eq, not_true, if_false, State.setPkg_pkg, Map.get_set_same, and_self]
  · intro h0
    simp only [State.bootNext, hb, h, hph, h0, ne_eq, not_false_eq_true, if_true, State.setPkg_pkg, Pkg.stopped, and_self]

/-- A configuration that neither it nor the firmware is too old for names the peer. -/
theorem State.bootNext_of_config (h : s.pkg.bootst = bootWord 2 0 0) (h0 : imageWhy b.cfg true = 0)
    (hc : b.vmin.toNat ≤ b.cfg.ver.toNat) (hf : b.vmin.toNat ≤ b.fw.ver.toNat) :
    s.bootNext.pkg.bootst = bootWord 3 0 0 ∧ s.bootNext.peer = b.peer ∧ Map.get 0 s.bootNext.pkg.meas 1 = b.cfg.digest := by
  have hph : bitsOf (bootWord 2 0 0) 0 4 = 2 := by decide
  simp only [State.bootNext, hb, h, hph, h0, Nat.not_lt.2 hc, Nat.not_lt.2 hf, ne_eq, not_true, if_false, State.setPkg_pkg,
    State.setPkg_peer, State.setFab_peer, Map.get_set_same, and_self]

theorem State.bootNext_of_oldRepairMap (h : s.pkg.bootst = bootWord 3 0 0) (h0 : imageWhy b.rm true = 0)
    (hv : b.rm.ver.toNat < b.vmin.toNat) : s.bootNext.pkg.bootst = bootWord 5 3 2 := by
  have hph : bitsOf (bootWord 3 0 0) 0 4 = 3 := by decide
  simp only [State.bootNext, hb, h, hph, h0, hv, ne_eq, not_true, if_false, if_true, State.setPkg_pkg, Pkg.stopped]

end

/-- Ownership by the writes of a cycle, a boot by its phase. -/
theorem ownership : Claims.Ownership := by
  intro s w tgt n d b hw me gives
  refine ⟨fun h => ?_, fun ho => ⟨_, congrArg Host.Outcome.next (if_neg (not_not_intro ho)), s.putStream_fields n d⟩, ?_, fun hb =>
    ⟨State.bootNext_of_rom hb, State.bootNext_of_firmware hb, State.bootNext_of_config hb, State.bootNext_of_oldRepairMap hb⟩⟩
  · obtain ⟨hclaim, hgive, haccept, hrelease⟩ := ownAfter_eq s.pkg.owner s.pkg.pend 0xFF w
    have hnone : OwnTarget 0xFF := .inr rfl
    refine ⟨exec_of_ownCmd_first hw rfl h hnone hclaim,
      fun ht => exec_of_ownCmd_first hw rfl h ht (ownAfter_eq s.pkg.owner s.pkg.pend tgt w).2.1,
      fun ht hn => congrArg Host.Outcome.next (State.ownCmd_of_badTarget ht hn w 2), exec_of_ownCmd_first hw rfl h hnone haccept,
      exec_of_ownCmd_first hw rfl h hnone hrelease, fun ho hr => ?_, fun ho hr => ?_, fun ho v hwv hv =>
      ⟨_, _, rfl, rfl, claims_of_one_cycle h ho hwv hv⟩⟩
    · rw [if_pos ho, if_pos ho] at hrelease
      exact exec_of_ownCmd_first hw (exec_ownerLinkDown_of_idle hr w) h hnone hrelease
    · exact exec_ownerLinkDown_of_busy hr (by rw [ho]; exact toNat_master hw)
  · obtain ⟨hmem, hcyc, hret, hown, hst⟩ := s.afterReset_fields
    exact ⟨_, rfl, hmem, hcyc, hret, hown, hst, rfl⟩

/-- Settles O48: requests by their master and their conditions, pages by what stands for them, ownership by the writes of a cycle. -/
theorem ownerAndPages : Obligations.OwnerAndPages := ⟨ownerRequests, markingPages, ownership⟩

end Sys2Proof.Machine
end

section
/-! The Mortise, the Plane and the Dovetail (17 R398 to R404, R413, R416, R417, R419): what becomes of a reward and of an episode that times
out, the scan of the episode completed first, and the entry of the table at POS. -/
namespace Sys2Proof.Machine

/-! ## REWARD_ARRIVAL (R398, R399, R401) -/

/-- A due time-out goes ahead of a reward. -/
theorem exec_rewardArrival_of_due {s : State} (h : s.episodeDue.isSome) (tid : W64) (t : BitVec 12) (r : BitVec 32) (b : Bool) :
    exec (.rewardArrival tid t r b) s = .next s := by
  show execRewardArrival tid t r b s = _
  simp only [execRewardArrival, State.rewardTurn, State.rewardAsks, h, if_true, Option.getD_none]

section
variable {s : State} {tid : W64} {t : BitVec 12} {r : BitVec 32} {b : Bool} (hdue : s.episodeDue = none)
include hdue

/-- A reward that can be taken is taken after the operations of the cores. -/
theorem exec_rewardArrival_of_taken {u : State} (h : (s.moDrain (8 * s.allCores.length)).reward ⟨tid, t, r, b⟩ = some u) :
    exec (.rewardArrival tid t r b) s = .next (u.dropGot whoMo) := by
  show execRewardArrival tid t r b s = _
  simp only [execRewardArrival, State.rewardTurn, hdue, h, Option.isSome_none, Bool.false_eq_true, if_false, Option.map_some,
    Option.getD_some]

/-- One that lacks something asks for it. -/
theorem exec_rewardArrival_of_asks (h : (s.moDrain (8 * s.allCores.length)).reward ⟨tid, t, r, b⟩ = none) :
    exec (.rewardArrival tid t r b) s = .next (s.rewardAsks ⟨tid, t, r, b⟩) := by
  show execRewardArrival tid t r b s = _
  simp only [execRewardArrival, State.rewardTurn, hdue, h, Option.isSome_none, Bool.false_eq_true, if_false, Option.map_none,
    Option.getD_none]

end

/-- Without an operation that is ready, none goes ahead. -/
theorem State.moDrain_of_none {s : State} (h : s.moNext = none) (fuel : Nat) : s.moDrain fuel = s := by
  cases fuel with
  | zero => rfl
  | succ fuel => simp only [State.moDrain, h]

section
variable {s : State} {x : Reward}

theorem State.reward_of_disabled (h : s.pkg.mo.enabled = false) : s.reward x = some s.refuseMo := by
  simp only [State.reward, h, Bool.not_false, if_true]

variable (hen : s.pkg.mo.enabled = true)
include hen

theorem State.reward_of_unknown (h : s.pkg.mo.find x.tid = none) : s.reward x = some (s.orphan x) := by
  simp only [State.reward, hen, h, Bool.not_true, Bool.false_eq_true, if_false]

theorem State.reward_of_open {k : Nat} {e : Episode} (h : s.pkg.mo.find x.tid = some (k, e)) (ho : e.st = .open_) :
    s.reward x = s.rewardTo k e x := by
  simp only [State.reward, hen, h, ho, Bool.not_true, Bool.false_eq_true, if_true, if_false]

end

/-- A full orphan queue loses the message. -/
theorem State.orphan_eq (s : State) (x : Reward) :
    s.orphan x = s.setMo (if 1024 ≤ s.pkg.mo.orph.length then { s.pkg.mo with orpl := s.pkg.mo.orpl + 1 }
      else { s.pkg.mo with orph := s.pkg.mo.orph ++ [x], orphN := s.pkg.mo.orphN + 1 }) :=
  (apply_ite s.setMo ..).symm

section
variable {s : State} {k : Nat} {e : Episode} {x : Reward}

theorem State.rewardTo_of_beyond (h : e.len ≤ x.t.toNat) : s.rewardTo k e x = some s.refuseMo := if_pos h

variable (h : x.t.toNat < e.len)
include h

theorem State.rewardTo_of_received (hb : s.moBitAt e.rbmp x.t.toNat = .ok true) :
    s.rewardTo k e x = some (s.setMo { s.pkg.mo with dup := s.pkg.mo.dup + 1 }) := by
  simp only [State.rewardTo, if_neg (Nat.not_le.2 h), hb]

/-- The reward, its done bit and its received bit are written in this order, and then it counts. -/
theorem State.rewardTo_of_written {s1 s2 s3 : State} (hb : s.moBitAt e.rbmp x.t.toNat = .ok false)
    (h1 : s.moWrite (e.rwdp + 4 * x.t.toNat) (bytesLE 4 x.r.toNat) = (s1, none))
    (h2 : s1.moBit (e.rbmp + 512) x.t.toNat x.term = (s2, none)) (h3 : s2.moBit e.rbmp x.t.toNat true = (s3, none)) :
    s.rewardTo k e x = some ((s3.setMo (s3.pkg.mo.put k (some { e with nrec := e.nrec + 1 }))).moCheck k) := by
  simp only [State.rewardTo, if_neg (Nat.not_le.2 h), hb, h1, h2, h3, Wrote.andThen]

end

/-! ## EPISODE_TIMEOUT (R400) -/

section
variable {s : State} {tid : W64}

theorem exec_episodeTimeout_of_unknown (h : s.pkg.mo.find tid = none) : exec (.episodeTimeout tid) s = .next s := by
  show execEpisodeTimeout tid s = _
  simp only [execEpisodeTimeout, h]

variable {k : Nat} {e : Episode} (h : s.pkg.mo.find tid = some (k, e))
include h

theorem exec_episodeTimeout_of_notDue (hn : e.st ≠ .open_ ∨ e.deadline = 0 ∨ s.cyc < e.deadline.toNat) :
    exec (.episodeTimeout tid) s = .next s := by
  show execEpisodeTimeout tid s = _
  simp only [execEpisodeTimeout, h]
  rw [if_pos (by simpa only [Bool.or_eq_true, decide_eq_true_eq, or_assoc] using hn)]

variable (ho : e.st = .open_) (hd : e.deadline ≠ 0) (hc : e.deadline.toNat ≤ s.cyc)
include ho hd hc

/-- One that is due removes the episode where it may not zero what is missing, or has not all its values. -/
theorem exec_episodeTimeout_of_removed (hz : bitsOf s.pkg.mo.cfg 8 1 = 0 ∨ e.nval < e.len) :
    exec (.episodeTimeout tid) s = .next (s.setMo { (s.pkg.mo.put k none) with tout := s.pkg.mo.tout + 1 }) := by
  show execEpisodeTimeout tid s = _
  have hno : ¬((decide (bitsOf s.pkg.mo.cfg 8 1 = 1) && decide (e.len ≤ e.nval)) = true) := by
    simp only [Bool.and_eq_true, decide_eq_true_eq]
    omega
  simp only [execEpisodeTimeout, h, ho, hd, Nat.not_lt.2 hc, ne_eq, not_true, decide_false, Bool.or_self, Bool.false_eq_true, if_false,
    if_neg hno]

/-- Else it zeroes what is missing and completes the episode. -/
theorem exec_episodeTimeout_of_zeroed {z : State} (hz : bitsOf s.pkg.mo.cfg 8 1 = 1) (hl : e.len ≤ e.nval)
    (hs : s.zeroMissing e = some z) :
    exec (.episodeTimeout tid) s = .next ((z.setMo
      { (z.pkg.mo.put k (some { e with st := .complete, tz := true, seq := z.pkg.mo.seq })) with
        seq := z.pkg.mo.seq + 1, tzr := z.pkg.mo.tzr + 1 }).dropGot whoMo) := by
  show execEpisodeTimeout tid s = _
  simp only [execEpisodeTimeout, h, ho, hd, Nat.not_lt.2 hc, hz, hl, hs, ne_eq, not_true, decide_false, decide_true, Bool.or_self,
    Bool.and_self, Bool.false_eq_true, if_true, if_false]

end

/-- A reward by its episode and its step, a time-out by its deadline and what is missing. -/
theorem episodeEvents : Claims.EpisodeEvents := by
  intro s tid t r b m
  refine ⟨fun h => exec_rewardArrival_of_due h tid t r b, fun hdue => ?_, exec_episodeTimeout_of_unknown,
    fun k e h => ⟨exec_episodeTimeout_of_notDue h, exec_episodeTimeout_of_removed h,
      fun z ho hd hc => exec_episodeTimeout_of_zeroed h ho hd hc⟩⟩
  refine ⟨fun h => s.moDrain_of_none h _, fun hen => ?_, fun hen hf => ?_, fun k e hen hf ho ht => ?_, fun k e hen hf ho ht hb => ?_,
    fun k e s1 s2 s3 hen hf ho ht hb h1 h2 h3 => ?_, exec_rewardArrival_of_asks hdue⟩
  · exact exec_rewardArrival_of_taken hdue (State.reward_of_disabled hen)
  · rw [← State.orphan_eq]
    exact exec_rewardArrival_of_taken hdue (State.reward_of_unknown hen hf)
  · exact exec_rewardArrival_of_taken hdue ((State.reward_of_open hen hf ho).trans (State.rewardTo_of_beyond ht))
  · exact exec_rewardArrival_of_taken hdue ((State.reward_of_open hen hf ho).trans (State.rewardTo_of_received ht hb))
  · exact exec_rewardArrival_of_taken hdue ((State.reward_of_open hen hf ho).trans (State.rewardTo_of_written ht hb h1 h2 h3))

/-! ## PLANE_SCAN (R403, R404) -/

theorem exec_planeScan_of_idle {s : State} (h : s.pkg.mo.scan = none) (ho : s.pkg.mo.oldest = none) :
    exec .planeScan s = .next s := by
  show execPlaneScan s = _
  simp only [execPlaneScan, h, ho]

section
variable {s u : State} {k : Nat} {e : Episode} (h : s.pkg.mo.scan = none) (ho : s.pkg.mo.oldest = some (k, e)) (hs : s.scanStart k e = u)
include h ho hs

/-- A scan that does not start leaves only what reading has done. -/
theorem exec_planeScan_of_notStarted (hu : u.pkg.mo.scan = none) : exec .planeScan s = .next u := by
  show execPlaneScan s = _
  simp only [execPlaneScan, h, ho, hs, hu]

/-- One that starts goes on in the same step. -/
theorem exec_planeScan_of_started {x : Scan} (hu : u.pkg.mo.scan = some x) : exec .planeScan s = exec .planeScan u := by
  show execPlaneScan s = execPlaneScan u
  simp only [execPlaneScan, h, ho, hs, hu]

end

theorem exec_planeScan_of_episode {s : State} {x : Scan} {e : Episode} (h : s.pkg.mo.scan = some x)
    (he : Map.get none s.pkg.mo.table x.at_ = some e) : exec .planeScan s = .next (s.scanEnd x e) := by
  show execPlaneScan s = _
  simp only [execPlaneScan, h, he]

/-- A request leaves the package as it is. -/
theorem State.askFar_pkg (s : State) (who pa : Nat) (c : Ctx) (li k : Nat) : (s.askFar who pa c li k).pkg = s.pkg := by
  obtain ⟨f, n, h⟩ := s.askFar_eq_withNet who pa c li k
  rw [h]
  rfl

section
variable {s : State} {k : Nat} {e : Episode}

theorem State.scanStart_of_poisoned (h : s.planeIn e = .ok none) : s.scanStart k e = (s.dropGot whoPlane).planeDrop k := by
  simp only [State.scanStart, h]

theorem State.scanStart_of_trap {x : Trap} (h : s.planeIn e = .error (.trap x)) : s.scanStart k e = (s.dropGot whoPlane).planeDrop k := by
  simp only [State.scanStart, h]

theorem State.scanStart_of_wait (h : s.planeIn e = .error .wait) : s.scanStart k e = s := by
  simp only [State.scanStart, h, State.unitWaits]

theorem State.scanStart_of_ask {who pa : Nat} (h : s.planeIn e = .error (.ask who pa)) :
    s.scanStart k e = s.askFar who pa s.pkg.mo.ctx 1024 s.k := by
  simp only [State.scanStart, h, State.unitWaits, State.moAuth, State.unitAuth]

theorem State.scanStart_of_read {xs : List PlaneIn} (h : s.planeIn e = .ok (some xs)) :
    s.scanStart k e =
      (let last := (xs.getLast?.map PlaneIn.d).getD false
       (s.dropGot whoPlane).setMo { s.pkg.mo with scan := some ⟨k, planeScan (bitsOf s.pkg.mo.parm 0 32) (bitsOf s.pkg.mo.parm 32 32)
         xs.reverse 0 (if last then 0 else e.boot.toNat), last⟩ }) := by
  simp only [State.scanStart, h]

end

section
variable {s t : State} {x : Scan} {e : Episode}

theorem State.scanEnd_of_stalls (h : s.unitStalls unitRight s.moAuth e.advp (8 * x.out.length) = true) : s.scanEnd x e = s := if_pos h

variable (h : s.unitStalls unitRight s.moAuth e.advp (8 * x.out.length) = false)
include h

theorem State.scanEnd_of_fault {f : Stop'}
    (hw : s.moWrite e.advp (x.out.flatMap (fun p => bytesLE 4 p.1 ++ bytesLE 4 p.2)) = (t, some f)) :
    s.scanEnd x e = t.planeDrop x.at_ := by
  simp only [State.scanEnd, h, hw, Bool.false_eq_true, if_false]

/-- With its outputs written, the episode enters the window. -/
theorem State.scanEnd_of_written (hw : s.moWrite e.advp (x.out.flatMap (fun p => bytesLE 4 p.1 ++ bytesLE 4 p.2)) = (t, none)) :
    s.scanEnd x e = t.setMo { (t.pkg.mo.put x.at_ (some { e with
      st := .windowed, nf := x.out.any (fun p => !finite32 p.1 || !finite32 p.2), term := x.last, win := t.cyc })) with scan := none } := by
  simp only [State.scanEnd, h, hw, Bool.false_eq_true, if_false]

end

/-- A scan by the episode that it starts with, and by what holds back the outputs that it has. -/
theorem planeScans : Claims.PlaneScans := by
  intro s m drop
  refine ⟨exec_planeScan_of_idle, fun k e hn ho => ⟨fun h => ?_, fun x h => ?_, fun h => ?_, fun who pa h => ?_, fun xs h => ?_⟩,
    fun x e hx he => ?_⟩
  · exact exec_planeScan_of_notStarted hn ho (State.scanStart_of_poisoned h) rfl
  · exact exec_planeScan_of_notStarted hn ho (State.scanStart_of_trap h) rfl
  · exact exec_planeScan_of_notStarted hn ho (State.scanStart_of_wait h) hn
  · refine exec_planeScan_of_notStarted hn ho (State.scanStart_of_ask h) ?_
    rw [State.askFar_pkg]
    exact hn
  · exact exec_planeScan_of_started hn ho (State.scanStart_of_read h) rfl
  · rw [exec_planeScan_of_episode hx he]
    refine ⟨fun hs => by rw [State.scanEnd_of_stalls hs], fun t f hs hw => ?_, fun t hs hw => ?_⟩
    · rw [State.scanEnd_of_fault hs hw]
      rfl
    · rw [State.scanEnd_of_written hs hw]

/-! ## DOVETAIL_ENTRY_START and the end of a cycle (R313, R413, R416) -/

/-- No entry is at POS of a table that does not run, that waits for a launch to become early, or that has run out. -/
theorem State.doveAt_of_stopped {s : State} (h : s.pkg.dv.st ≠ 2 ∨ s.pkg.dv.cur.isSome ∨ s.pkg.dv.n ≤ s.pkg.dv.pos) :
    s.doveAt = none :=
  if_pos (by simpa only [Bool.or_eq_true, decide_eq_true_eq, or_assoc] using h)

theorem State.doveAt_of_running {s : State} (hst : s.pkg.dv.st = 2) (hc : s.pkg.dv.cur = none) (hp : s.pkg.dv.pos < s.pkg.dv.n) :
    s.doveAt = some (s.pkg.dv.entry s.pkg.dv.pos) := by
  simp only [State.doveAt, hst, hc, Nat.not_le.2 hp, Option.isSome_none, ne_eq, not_true, decide_false, Bool.or_self, Bool.false_eq_true,
    if_false]

theorem State.doveEntry_of_none {t : State} (h : t.doveAt = none) : t.doveEntry = t := by
  simp only [State.doveEntry, h]

section
variable {t : State} {e : BitVec 128} (h : t.doveAt = some e)
include h

theorem State.doveEntry_of_overflow (hb : t.doveBlock e = .overflow) : t.doveEntry = t.doveOverflow (some e) := by
  simp only [State.doveEntry, h, hb, if_true]

theorem State.doveEntry_of_fired (hb : t.doveBlock e ≠ .overflow) (hf : t.pkg.dv.fired.isSome) : t.doveEntry = t.doveStart e := by
  simp only [State.doveEntry, h, hb, hf, if_true, if_false]

theorem State.doveEntry_of_waits (hb : t.doveBlock e ≠ .overflow) (hf : t.pkg.dv.fired = none) : t.doveEntry = t := by
  simp only [State.doveEntry, h, hb, hf, Option.isSome_none, Bool.false_eq_true, if_false]

end

/-- A cycle in which the entry waits is counted under what holds it back. -/
def State.doveCount (t : State) (n : Nat) : State :=
  t.setDove { t.pkg.dv with bub := Map.set 0 t.pkg.dv.bub n (Map.get 0 t.pkg.dv.bub n + 1) }

/-- The end of a cycle decides the start of an entry that nothing holds back, and counts one that waits. -/
theorem State.doveCycle_of_unfired {s : State} {e : BitVec 128} (h : s.doveSettle.doveAt = some e)
    (hf : s.doveSettle.pkg.dv.fired = none) :
    let t := s.doveSettle
    (t.doveBlock e = .none → s.doveCycle = t.setDove { t.pkg.dv with fired := some t.cyc }) ∧
    (t.doveBlock e = .input → s.doveCycle = t.doveCount (if dvKind e = 1 then 0 else 2)) ∧
    (t.doveBlock e = .free → s.doveCycle = t.doveCount 1) ∧ (t.doveBlock e = .stash → s.doveCycle = t.doveCount 3) := by
  have hno : s.doveSettle.pkg.dv.fired.isSome = false := Option.isSome_eq_false_iff.2 (Option.isNone_iff_eq_none.2 hf)
  and_intros <;> (intro hb; simp only [State.doveCycle, State.doveCount, h, hno, hb, Bool.false_eq_true, if_false])

/-! ## DOVETAIL_TABLE_END (R417, R419) -/

section
variable {s : State}

theorem exec_dovetailTableEnd_of_goesOn (h : s.doveSettle.pkg.dv.st ≠ 2 ∨ s.doveSettle.pkg.dv.cur.isSome ∨
    s.doveSettle.pkg.dv.pos < s.doveSettle.pkg.dv.n ∨ s.doveSettle.pkg.dv.live ≠ []) : exec .dovetailTableEnd s = .next s.doveSettle :=
  congrArg _ (if_pos (by
    simpa only [Bool.or_eq_true, decide_eq_true_eq, or_assoc, Bool.not_eq_true', List.isEmpty_eq_false_iff] using h))

/-- A table that has run out ends, or overflows where a slot is not empty. -/
theorem exec_dovetailTableEnd_of_runOut (hst : s.doveSettle.pkg.dv.st = 2) (hc : s.doveSettle.pkg.dv.cur = none)
    (hp : s.doveSettle.pkg.dv.n ≤ s.doveSettle.pkg.dv.pos) (hl : s.doveSettle.pkg.dv.live = []) :
    exec .dovetailTableEnd s = .next (if s.doveSettle.pkg.dv.slots = [] then
      s.doveSettle.setDove { s.doveSettle.pkg.dv with st := 3, ina := false } else s.doveSettle.doveOverflow none) := by
  show execDovetailTableEnd s = _
  simp only [execDovetailTableEnd, hst, hc, hl, Nat.not_lt.2 hp, Option.isSome_none, ne_eq, not_true, decide_false, List.isEmpty_nil,
    Bool.not_true, Bool.or_self, Bool.false_eq_true, if_false, List.isEmpty_iff]

end

/-- The Dovetail once its table has stopped. -/
theorem State.doveStop_dv (s : State) (code : BitVec 8) :
    (s.doveStop code).pkg.dv = { s.pkg.dv with st := 4, code := code, fired := none } := by
  simp only [State.doveStop]
  split <;> rfl

/-- A table that overflows with nothing owed stops with Stash Overflow. -/
theorem State.doveOverflow_dv {s : State} (h : s.pkg.dv.owed = []) :
    (s.doveOverflow none).pkg.dv.st = 4 ∧ (s.doveOverflow none).pkg.dv.code = 0x1E := by
  have howed : (s.doveStop 0x1E).pkg.dv.owed ++ (none : Option (BitVec 128)).toList = [] := by
    rw [State.doveStop_dv, Option.toList_none, List.append_nil]
    exact h
  have hnone : s.doveOverflow none = (s.doveStop 0x1E).setDove { (s.doveStop 0x1E).pkg.dv with owed := [] } := by
    simp only [State.doveOverflow, howed]
    rfl
  rw [hnone]
  show (s.doveStop 0x1E).pkg.dv.st = 4 ∧ (s.doveStop 0x1E).pkg.dv.code = 0x1E
  rw [State.doveStop_dv]
  exact ⟨rfl, rfl⟩

/-- The entry at POS by what holds it back, the table by what is left of it. -/
theorem dovetailEvents : Claims.DovetailEvents := by
  intro s
  have hstart : exec .dovetailEntryStart s = .next s.doveOwed.doveSettle.doveEntry := rfl
  refine ⟨⟨fun h => ?_, fun hst hc hp => ?_⟩, fun hst hc hp hf => ?_, exec_dovetailTableEnd_of_goesOn, fun hst hc hp hl => ?_⟩
  · rw [hstart, State.doveEntry_of_none (State.doveAt_of_stopped h)]
  · have he := State.doveAt_of_running hst hc hp
    rw [hstart]
    exact ⟨fun hb => congrArg _ (State.doveEntry_of_overflow he hb), fun hb hf => congrArg _ (State.doveEntry_of_fired he hb hf),
      fun hb hf => congrArg _ (State.doveEntry_of_waits he hb hf)⟩
  · exact State.doveCycle_of_unfired (State.doveAt_of_running hst hc hp) hf
  · rw [exec_dovetailTableEnd_of_runOut hst hc hp hl]
    exact ⟨fun h => by rw [if_pos h], fun h => by rw [if_neg h], fun _ => State.doveOverflow_dv⟩

/-- Settles O51: rewards and time-outs by their episode, scans by what can be read, the table by its entry at POS. -/
theorem mortiseAndDovetail : Obligations.MortiseAndDovetail := ⟨episodeEvents, planeScans, dovetailEvents⟩

end Sys2Proof.Machine
end

section
/-! Votes, decisions, losses, fills and divergence (17 R412, 21 R487 to R494, R498, R500, R501, R505): what leaves a device in the
tree of its domain, what the acting root decides, and how a context loses a rank, fills one, or gives up its replay. -/
namespace Sys2Proof.Machine

/-! ## Packets of the tree (R485, R487) -/

/-- A packet that leaves changes neither memory, the glue-up state of a context, nor the peers that spares have replaced. -/
structure State.SameGlu (s t : State) : Prop where
  mem : t.mem = s.mem
  gctx : t.fab.gctx = s.fab.gctx
  subs : t.fab.subs = s.fab.subs

theorem State.send_sameGlu (s : State) (pk : Packet) : s.SameGlu (s.send pk) := by
  simp only [State.send]
  split <;> exact ⟨rfl, rfl, rfl⟩

/-- Packets one after another. -/
theorem State.foldl_sameGlu {α : Type} {f : State → α → State} (hf : ∀ (s : State) (x : α), s.SameGlu (f s x)) (l : List α) (s : State) :
    State.SameGlu s (l.foldl f s) :=
  List.foldlRecOn l f (motive := fun t : State => s.SameGlu t) ⟨rfl, rfl, rfl⟩ fun t ht x _ =>
    ⟨(hf t x).mem.trans ht.mem, (hf t x).gctx.trans ht.gctx, (hf t x).subs.trans ht.subs⟩

theorem State.foldl_sendGlu_sameGlu (s : State) (c : Ctx) (op : BitVec 8) (bs : Bytes) (ranks : List Nat) :
    s.SameGlu (ranks.foldl (fun s r => s.sendGlu c r op bs) s) := State.foldl_sameGlu (fun t _ => t.send_sameGlu _) ranks s

theorem State.SameGlu.gctx_eq {s t : State} (h : s.SameGlu t) (c : Ctx) : t.gctx c = s.gctx c := by
  rw [State.gctx, h.gctx, State.gctx]

/-- A device that has not fallen silent sends each packet. -/
theorem State.foldl_sendGlu_out_length {c : Ctx} (op : BitVec 8) (bs : Bytes) (ranks : List Nat) (s : State)
    (h : (s.gctx c).cut = false) :
    (ranks.foldl (fun s r => s.sendGlu c r op bs) s).fab.out.length = s.fab.out.length + ranks.length := by
  induction ranks generalizing s with
  | nil => rfl
  | cons r ranks ih =>
    have hcut : ((s.sendGlu c r op bs).gctx c).cut = false := by
      rw [State.sendGlu, (s.send_sameGlu _).gctx_eq]
      exact h
    have hout : (s.sendGlu c r op bs).fab.out.length = s.fab.out.length + 1 := by
      simp only [State.sendGlu, State.send, h, Bool.false_eq_true, if_false, State.setFab_fab, List.length_append, List.length_cons,
        List.length_nil]
    rw [List.foldl_cons, ih _ hcut, hout, List.length_cons]
    omega

/-! ## Votes (R412, R487 to R492) -/

theorem State.sendVote_mem (s : State) (c : Ctx) (me cnt : Nat) (vf : BitVec 5) : (s.sendVote c me cnt vf).mem = s.mem := by
  simp only [State.sendVote]
  split
  · rfl
  · exact (s.send_sameGlu _).mem

section
variable {s : State} {c : Ctx}

/-- A device outside the domain of the context neither votes nor waits for votes. -/
theorem exec_votes_of_outside (h : s.domRank c = none) :
    ∀ i ∈ [Instr.voteSend c, .vetoVote c, .voteWaitTimeout c], exec i s = .next s := by
  simp only [List.forall_mem_cons, List.not_mem_nil, false_implies, implies_true, and_true]
  simp only [exec, execVoteSend, execVetoVote, execVoteWaitTimeout, h, and_self]

variable {me : Nat} (h : s.domRank c = some me)
include h

/-- A device votes once it is quiescent and its live children have voted. -/
theorem exec_voteSend_of_rank :
    exec (.voteSend c) s = .next (
      let g := s.gctx c
      let vs := s.counted c me
      if g.st ≠ 4 ∨ g.voted = true ∨ s.doveIn c = true ∨ (g.children me).all (fun r => vs.any (fun v => v.rank == r)) = false then s
      else s.sendVote c me (1 + (vs.map Vote.cnt).foldl (· + ·) 0) (s.unionVf c vs)) := by
  show execVoteSend c s = _
  simp only [execVoteSend, h, Bool.or_eq_true, decide_eq_true_eq, Bool.not_eq_true', or_assoc]

theorem exec_vetoVote_of_rank : exec (.vetoVote c) s = .next (s.vetoVote c me) := by
  show execVetoVote c s = _
  rw [execVetoVote, h]

/-- A device that has waited too long sets FAULT and votes. -/
theorem exec_voteWaitTimeout_of_rank :
    exec (.voteWaitTimeout c) s = .next (
      let g := s.gctx c
      let vs := s.counted c me
      if g.st ≠ 4 ∨ s.cyc < g.closedAt + 2 ^ 32 ∨ g.voted = true ∨ (g.children me).all (fun r => vs.any (fun v => v.rank == r)) = true
      then s
      else (s.veto c vFault).sendVote c me (1 + (vs.map Vote.cnt).foldl (· + ·) 0) ((s.veto c vFault).unionVf c vs)) := by
  show execVoteWaitTimeout c s = _
  simp only [execVoteWaitTimeout, h, State.voteWaits, Bool.or_eq_true, decide_eq_true_eq, or_assoc]

end

/-- A veto vote is owed in STATE 2, once, by a rank that is not the root, while no debugger holds a piece of the attempt. -/
theorem State.vetoOwed_iff (s : State) (c : Ctx) (me : Nat) :
    s.vetoOwed c me = true ↔ s.gluState c = 2 ∧ (s.gctx c).vetoed = false ∧ me ≠ (s.gctx c).root ∧ s.stepHeld c = false := by
  simp only [State.vetoOwed, Bool.and_eq_true, beq_iff_eq, bne_iff_ne, Bool.not_eq_true', and_assoc]

theorem State.vetoVote_of_owed {s : State} {c : Ctx} {me : Nat} (h : s.vetoOwed c me = true) :
    ((s.vetoVote c me).gctx c).vetoed = true ∧ (s.vetoVote c me).mem = s.mem := by
  simp only [State.vetoVote, h, if_true, State.gctx_setGctx, true_and]
  exact s.sendVote_mem ..

theorem State.vetoVote_of_notOwed {s : State} {c : Ctx} {me : Nat} (h : ¬s.vetoOwed c me = true) : s.vetoVote c me = s := if_neg h

/-- 64 cycles after the first flag the veto vote leaves. -/
theorem State.vetoDue_of_late {s : State} {c : Ctx} {me : Nat} (h : s.vetoOwed c me = true) (h0 : (s.gctx c).vfAt ≠ 0)
    (hc : (s.gctx c).vfAt + 63 ≤ s.cyc) : s.vetoDue c me = s.vetoVote c me := by
  simp only [State.vetoDue, h, h0, hc, Bool.not_true, Bool.false_eq_true, if_true, if_false]

/-- A vote by what it waits for, a veto by whether it is owed. -/
theorem votesSent : Claims.VotesSent := by
  intro s c g
  refine ⟨exec_votes_of_outside, fun me h => ?_⟩
  simp only [exec_voteSend_of_rank h, exec_vetoVote_of_rank h, exec_voteWaitTimeout_of_rank h]
  refine ⟨fun hst hv hd ha => ?_, fun hn => by rw [if_pos hn], fun hst hv hme hh => ?_, fun hn => ?_, fun hst hv hme hh h0 hc => ?_,
    fun hst hc hv ha => ?_, fun hn => by rw [if_pos hn]⟩
  · rw [if_neg (by simp only [g, hst, hv, hd, ha, ne_eq, not_true, Bool.false_eq_true, Bool.true_eq_false, or_self, not_false_eq_true])]
  · exact ⟨_, rfl, State.vetoVote_of_owed ((s.vetoOwed_iff c me).2 ⟨hst, hv, hme, hh⟩)⟩
  · rw [State.vetoVote_of_notOwed]
    rw [s.vetoOwed_iff]
    rintro ⟨hst, hv, hme, hh⟩
    simp only [g, hst, hv, hme, hh, ne_eq, not_true, Bool.false_eq_true, or_self] at hn
  · rw [State.vetoDue_of_late ((s.vetoOwed_iff c me).2 ⟨hst, hv, hme, hh⟩) h0 hc]
  · rw [if_neg (by simp only [g, hst, hv, ha, Nat.not_lt.2 hc, ne_eq, not_true, Bool.false_eq_true, or_self, not_false_eq_true])]

/-! ## Decisions (R490, R493) -/

section
variable {s : State} {c : Ctx} {me : Nat} (h : s.domRank c = some me)
include h

/-- A rank that is not the acting root, has decided, has fallen silent, or is held by a debugger decides nothing. -/
theorem exec_rootDecision_of_held (hn : me ≠ (s.gctx c).nextRoot ∨ (s.gctx c).st = 5 ∨ (s.gctx c).st = 7 ∨ (s.gctx c).cut = true ∨
    s.stepHeld c = true) : exec (.rootDecision c) s = .next s := by
  show Host.Outcome.next (s.rootTurn c) = _
  simp only [State.rootTurn, h, Bool.or_eq_true, decide_eq_true_eq, or_assoc, if_pos hn]

theorem exec_rootDecision_of_free (hme : me = (s.gctx c).nextRoot) (h5 : (s.gctx c).st ≠ 5) (h7 : (s.gctx c).st ≠ 7)
    (hcut : (s.gctx c).cut = false) (hh : s.stepHeld c = false) : exec (.rootDecision c) s = .next (s.rootDecide c me) := by
  show Host.Outcome.next (s.rootTurn c) = _
  simp only [State.rootTurn, h, ← hme, h5, h7, hcut, hh, ne_eq, not_true, decide_false, Bool.or_self, Bool.false_eq_true, if_false]

end

/-- The flags that the acting root knows of. -/
def State.rootVf (s : State) (c : Ctx) : BitVec 5 :=
  (s.gctx c).votes.foldl (fun f v => f ||| v.vf) (if (s.ctx c).step.open_ then (s.ctx c).step.vf else 0)

section
variable {s : State} {c : Ctx} {me : Nat}

/-- With an attempt open, a veto or a loss aborts it; without them it commits once every rank has voted and the root is quiescent. -/
theorem State.rootDecide_of_open (ho : (s.ctx c).step.open_ = true) :
    s.rootDecide c me =
      let st := (s.ctx c).step
      if s.rootVf c ≠ 0 ∨ (s.gctx c).notices ≠ [] then s.applyDecision c ⟨st.k, st.t, s.rootVf c, false, (s.gctx c).notices, true, false⟩
      else if ((s.gctx c).st = 4 ∧ s.gluQuiet c = true) ∧ ((s.counted c me).map Vote.cnt).foldl (· + ·) 0 = (s.gctx c).nm - 1 then
        s.applyDecision c ⟨st.k, st.t, 0, true, [], true, false⟩
      else s := by
  simp only [State.rootDecide, State.rootVf, ho, Bool.true_or, if_true, Bool.or_eq_true, Bool.and_eq_true, decide_eq_true_eq,
    Bool.not_eq_true', List.isEmpty_eq_false_iff]

theorem State.rootDecide_of_idle (ho : (s.ctx c).step.open_ = false) (hv : (s.gctx c).votes = []) (hn : (s.gctx c).notices = []) :
    s.rootDecide c me = s := by
  simp only [State.rootDecide, ho, hv, hn, List.isEmpty_nil, Bool.not_true, Bool.or_self, Bool.false_eq_true, if_false, if_true]

end

/-- A decision by who the acting root is, and by the votes and losses that it knows of. -/
theorem decisions : Claims.Decisions := by
  intro s c me h g st vf full
  refine ⟨exec_rootDecision_of_held h, fun hme h5 h7 hcut hh => ?_⟩
  rw [exec_rootDecision_of_free h hme h5 h7 hcut hh]
  refine ⟨fun ho hv => ?_, fun ho hv hn hst hq hf => ?_, fun ho hv hn hno => ?_,
    fun ho hv hn => by rw [State.rootDecide_of_idle ho hv hn]⟩
  · rw [State.rootDecide_of_open ho]
    exact congrArg _ (if_pos hv)
  · rw [State.rootDecide_of_open ho]
    exact congrArg _ ((if_neg (not_or_intro (not_not_intro hv) (not_not_intro hn))).trans (if_pos ⟨⟨hst, hq⟩, hf⟩))
  · rw [State.rootDecide_of_open ho]
    refine congrArg _ ((if_neg (not_or_intro (not_not_intro hv) (not_not_intro hn))).trans (if_neg ?_))
    rintro ⟨⟨hst, hq⟩, hf⟩
    rcases hno with hno | hno | hno
    · exact hno hst
    · exact Bool.false_ne_true (hno.symm.trans hq)
    · exact hno hf

/-! ## Losses (R491, R501) -/

section
variable {s : State} {c : Ctx}

theorem exec_losses_of_outside (h : s.domRank c = none) (r : BitVec 12) :
    ∀ i ∈ [Instr.keepAliveSend c, .declareLost c r, .ancestorSilenceHalt c], exec i s = .next s := by
  simp only [List.forall_mem_cons, List.not_mem_nil, false_implies, implies_true, and_true]
  simp only [exec, execKeepAliveSend, State.keepAlive, execDeclareLost, execAncestorSilenceHalt, h, and_self]

variable {me : Nat} (h : s.domRank c = some me)
include h

/-- Keep-alives go to the parent and to each child. -/
theorem exec_keepAliveSend_of_rank :
    exec (.keepAliveSend c) s = .next ((((s.gctx c).parent me).toList ++ (s.gctx c).children me).foldl
      (fun s r => s.sendGlu c r 0x22 []) (s.setGctx c { s.gctx c with kaAt := s.cyc })) := by
  show Host.Outcome.next (s.keepAlive c) = _
  simp only [State.keepAlive, h]

theorem exec_declareLost_of_rank (r : BitVec 12) :
    exec (.declareLost c r) s = .next (if r.toNat ∈ (s.gctx c).children me ∧
      ((s.gctx c).heardAt r.toNat + 2 ^ 20 ≤ s.cyc ∨ s.badVote c r.toNat = true) then s.declare c r.toNat else s) := by
  show execDeclareLost c r s = _
  simp only [execDeclareLost, h, State.judge, Bool.and_eq_true, Bool.or_eq_true, List.contains_iff_mem, decide_eq_true_eq]

theorem exec_ancestorSilenceHalt_of_root (hp : (s.gctx c).parent me = none) : exec (.ancestorSilenceHalt c) s = .next s := by
  show execAncestorSilenceHalt c s = _
  simp only [execAncestorSilenceHalt, h, State.cutOff, hp]

/-- A device falls silent once it has heard from its parent and its ancestors for too long. -/
theorem exec_ancestorSilenceHalt_of_parent {q : Nat} (hp : (s.gctx c).parent me = some q) :
    exec (.ancestorSilenceHalt c) s = .next (if ∀ x ∈ q :: ancestors 4 me, (s.gctx c).heardAt x + 2 ^ 20 ≤ s.cyc then
      s.setGctx c { s.gctx c with st := 7, cut := true } else s) := by
  show execAncestorSilenceHalt c s = _
  simp only [execAncestorSilenceHalt, h, State.cutOff, hp, List.all_eq_true, decide_eq_true_eq]

end

/-- Keep-alives by the neighbours in the tree, losses by when each was heard. -/
theorem lossEvents : Claims.LossEvents := by
  intro s c r g
  refine ⟨fun h => exec_losses_of_outside h r, fun me h => ?_⟩
  rw [exec_declareLost_of_rank h]
  refine ⟨⟨_, exec_keepAliveSend_of_rank h, ?_, ?_, fun hcut => ?_⟩, fun hr hl => by rw [if_pos ⟨hr, hl⟩],
    fun hr => by rw [if_neg fun hn => hr hn.1], exec_ancestorSilenceHalt_of_root h, fun q hp => ?_⟩
  · exact (State.foldl_sendGlu_sameGlu _ c 0x22 [] _).mem
  · rw [(State.foldl_sendGlu_sameGlu _ c 0x22 [] _).gctx_eq, State.gctx_setGctx]
  · rw [State.foldl_sendGlu_out_length _ _ _ _ (by rw [State.gctx_setGctx]; exact hcut), List.length_append, ← Nat.add_assoc]
    rfl
  · rw [exec_ancestorSilenceHalt_of_parent h hp]
    exact ⟨fun hl => by rw [if_pos hl], fun hq => by rw [if_neg fun hl => Nat.not_le.2 hq (hl q List.mem_cons_self)]⟩

/-! ## Fills (R500, R505) -/

theorem State.fillEnds_mem (s : State) (f : Fill) : (s.fillEnds f).mem = s.mem := rfl

/-- A context whose record, glue-up state and handles have been taken. -/
def State.withTables (s : State) (c : Ctx) (x : CtxRec) (g : GCtx) (h : Map (BitVec 512)) : State :=
  let t := (s.setCtx c x).setGctx c g
  t.setPkg { t.pkg with handles := h }

theorem State.withTables_mem_mo (s : State) (c : Ctx) (x : CtxRec) (g : GCtx) (h : Map (BitVec 512)) :
    (s.withTables c x g h).mem = s.mem ∧ (s.withTables c x g h).pkg.mo = s.pkg.mo := ⟨rfl, rfl⟩

theorem State.takeContext_eq (s : State) (c : Ctx) :
    ∃ x g h d, s.takeContext c = if s.pkg.dv.ctx ≠ c then s.withTables c x g h else (s.withTables c x g h).setDove d :=
  ⟨_, _, _, _, rfl⟩

theorem State.takeContext_mem_mo (s : State) (c : Ctx) : (s.takeContext c).mem = s.mem ∧ (s.takeContext c).pkg.mo = s.pkg.mo := by
  obtain ⟨x, g, h, d, heq⟩ := s.takeContext_eq c
  rw [heq]
  split <;> exact s.withTables_mem_mo c x g h
section
variable {s : State} {c : Ctx}

theorem exec_fillComplete_of_none (h : s.fab.fills.find? (fun f => f.ctx == c && f.spare == s.peer) = none) :
    exec (.fillComplete c) s = .next s := by
  show execFillComplete c s = _
  simp only [execFillComplete, h]

variable {f : Fill}

/-- With room for it, a new substitution is noted. -/
theorem State.fillEnds_subs (hl : s.fab.subs.length < 16) (hn : s.fab.subs.any (fun x => x.old == f.lost) = false) :
    (s.fillEnds f).fab.subs = s.fab.subs ++ [⟨f.lost, f.spare⟩] := by
  show (if _ then _ else _) = _
  simp only [hl, hn, decide_true, Bool.not_false, Bool.and_self, if_true]

/-- The rank is no longer lost. -/
theorem State.fillEnds_lost : f.rank.toNat ∉ ((s.fillEnds f).gctx f.ctx).lost := by
  simp only [State.fillEnds, State.gctx_setGctx, List.mem_filter, bne_self_eq_false, Bool.false_eq_true, and_false, not_false_eq_true]

variable (h : s.fab.fills.find? (fun f => f.ctx == c && f.spare == s.peer) = some f)
include h

theorem exec_fillComplete_of_away (ha : (s.tableAway c).isSome) : exec (.fillComplete c) s = .next s := by
  show execFillComplete c s = _
  simp only [execFillComplete, h, ha, if_true]

/-- With no frame left to take, the spare takes the context over and tells the live members. -/
theorem exec_fillComplete_of_frames (ha : s.tableAway c = none) (hm : s.pkg.mo.ctx ≠ c) (hs : s.framesOf c true = [])
    (hu : s.framesOf c false = []) :
    exec (.fillComplete c) s = .next (
      let t := (s.takeContext c).fillEnds f
      (List.range (t.gctx c).nm).foldl (fun t r => if r = f.rank.toNat || (t.gctx c).lost.contains r then t
        else t.sendGlu c r 0x27 f.bytes) t) := by
  show execFillComplete c s = _
  simp only [execFillComplete, h, ha, hs, hu, (s.takeContext_mem_mo c).2, hm, Option.isSome_none, Bool.false_eq_true, if_false,
    List.drop_nil, List.foldl_nil]

end

/-- A fill by whether this device is its spare, whether its table is here, and what it has still to take. -/
theorem fillEvents : Claims.FillEvents := by
  intro s c f
  refine ⟨exec_fillComplete_of_none, State.fillEnds_subs, State.fillEnds_lost, s.fillEnds_mem f, exec_fillComplete_of_away,
    fun h ha hm _ hs hu => ⟨_, exec_fillComplete_of_frames h ha hm hs hu, ?_⟩⟩
  have htold (t : State) (r : Nat) : t.SameGlu
      (if r = f.rank.toNat || (t.gctx c).lost.contains r then t else t.sendGlu c r 0x27 f.bytes) := by
    split
    · exact ⟨rfl, rfl, rfl⟩
    · exact t.send_sameGlu _
  obtain ⟨hmem, -, hsubs⟩ := State.foldl_sameGlu htold (List.range (((s.takeContext c).fillEnds f).gctx c).nm)
    ((s.takeContext c).fillEnds f)
  exact ⟨hmem.trans ((State.fillEnds_mem _ f).trans (s.takeContext_mem_mo c).1), hsubs⟩

/-! ## SCRIBE_DIVERGENCE (R498) -/

theorem exec_scribeDivergence (s : State) (c : Ctx) (k u : BitVec 8) :
    exec (.scribeDivergence c k u) s = .next (
      let since := Map.get 0 (s.gctx c).sheld (k.toNat * 256 + u.toNat)
      if ((s.source c).isSome ∧ since ≠ 0) ∧ since + 2 ^ 26 ≤ s.cyc + 1 then s.diverge c k u else s) := by
  show execScribeDivergence c k u s = _
  simp only [execScribeDivergence, State.heldLong, Bool.and_eq_true, bne_iff_ne, decide_eq_true_eq]

/-- A divergence ends the replay, and what the context keeps of it is gone. -/
theorem State.gctx_diverge (s : State) (c : Ctx) (k u : BitVec 8) :
    (s.diverge c k u).gctx c =
      { s.gctx c with
        sdiv := true, sbar := true, dkind := k, dunit := u, rpl := false, ssrc := none, snext := none, sheld := [] } :=
  State.gctx_setGctx s c _

/-- It sets FAULT in the attempt. -/
theorem State.ctx_diverge (s : State) (c : Ctx) (k u : BitVec 8) :
    (s.diverge c k u).ctx c = { s.ctx c with step := { (s.ctx c).step with vf := (s.ctx c).step.vf ||| vFault } } :=
  State.ctx_setCtx _ c _

/-- A divergence by how long the unit has held its event back. -/
theorem scribeDiverges : Claims.ScribeDiverges := by
  intro s c k u since
  rw [exec_scribeDivergence]
  refine ⟨fun hn => ?_, fun hs h0 hc => ⟨_, by rw [if_pos ⟨⟨hs, h0⟩, hc⟩], ?_⟩⟩
  · rw [if_neg]
    rintro ⟨⟨hs, h0⟩, hc⟩
    rcases hn with hn | hn | hn
    · rw [hn] at hs
      exact absurd hs (by decide)
    · exact h0 hn
    · exact Nat.not_le.2 hn hc
  · rw [State.gctx_diverge, State.ctx_diverge]
    exact ⟨rfl, rfl, rfl, rfl, rfl, rfl, rfl⟩

/-- Settles O54: votes by who has voted, decisions by the acting root, losses by when a rank was heard, fills by what is left to take, a
divergence by how long a unit has waited. -/
theorem glueUpAndLosses : Obligations.GlueUpAndLosses := ⟨votesSent, decisions, lossEvents, fillEvents, scribeDiverges⟩

end Sys2Proof.Machine
end

section
/-! Ethernet ports (18 R421, R428, R430 to R433): doorbells, pauses and links, what becomes of a frame that arrives, and the frames that
a ring sends. -/
namespace Sys2Proof.Machine

/-! ## Doorbells, pauses and links (R421, R428, R430, R433) -/

/-- A TAIL that a doorbell of the host may set: from 0 to SIZE descriptors ahead of HEAD. -/
def EthRing.Ahead (r : EthRing) (t : Nat) : Prop := t < r.size.toNat ∨ (r.head.toNat ≤ t ∧ t ≤ r.head.toNat + r.size.toNat)

/-- The condition of State.doorbell for the host. -/
theorem EthRing.ahead_iff (r : EthRing) (t : Nat) :
    (r.en && true && (decide (t < r.size.toNat) || (decide (r.head.toNat ≤ t) && decide (t ≤ r.head.toNat + r.size.toNat)))) = true ↔
      r.en = true ∧ r.Ahead t := by
  simp only [EthRing.Ahead, Bool.and_true, Bool.and_eq_true, Bool.or_eq_true, decide_eq_true_eq]

section
variable {s : State} {v : W64}

theorem State.doorbell_of_ahead (he : (s.ring (bitsOf v 0 7)).en = true) (h : (s.ring (bitsOf v 0 7)).Ahead (bitsOf v 32 32)) :
    s.doorbell v none =
      (let n := bitsOf v 0 7
       let r := s.ring n
       let t := bitsOf v 32 32
       (s.setRing n { r with tail := BitVec.ofNat 32 (t % r.size.toNat), full := t == r.head.toNat + r.size.toNat }).pausePort (n / 8)) :=
  if_pos ((EthRing.ahead_iff _ _).2 ⟨he, h⟩)

/-- Else it is counted. -/
theorem State.doorbell_of_notAhead (h : (s.ring (bitsOf v 0 7)).en = false ∨ ¬(s.ring (bitsOf v 0 7)).Ahead (bitsOf v 32 32)) :
    s.doorbell v none = s.setPort (bitsOf v 0 7 / 8) { s.port (bitsOf v 0 7 / 8) with db := (s.port (bitsOf v 0 7 / 8)).db + 1 } := by
  refine if_neg fun hok => ?_
  obtain ⟨he, ha⟩ := (EthRing.ahead_iff _ _).1 hok
  exact h.elim (fun hd => Bool.false_ne_true (hd.symm.trans he)) (fun hn => hn ha)

end

theorem exec_ethdbWrite_of_notOwner {s : State} {w : Nat} {v : W64} (h : s.pkg.owner.toNat ≠ w) :
    exec (.ethdbWrite ⟨w, v⟩) s = .next s := congrArg _ (if_pos h)

theorem exec_ethdbWrite_of_owner {s : State} {w : Nat} {v : W64} (h : s.pkg.owner.toNat = w) :
    exec (.ethdbWrite ⟨w, v⟩) s = .next ((s.setPkg { s.pkg with ethdb := v }).doorbell v none) :=
  congrArg _ (if_neg (not_not_intro h))

/-- One bit of a word set or cleared. -/
theorem getLsbD_setBit (x : BitVec 16) (up : Bool) (n q : Fin 16) :
    (if up = true then x ||| BitVec.ofNat 16 (2 ^ n.val) else x &&& ~~~(BitVec.ofNat 16 (2 ^ n.val))).getLsbD q =
      if q.val = n.val then up else x.getLsbD q := by
  have hbit : (BitVec.ofNat 16 (2 ^ n.val)).getLsbD q = decide (q.val = n.val) := by
    rw [BitVec.getLsbD_ofNat, Nat.testBit_two_pow, decide_eq_true q.isLt, Bool.true_and, decide_eq_decide]
    exact eq_comm
  cases up
  · rw [if_neg Bool.false_ne_true, BitVec.getLsbD_and, BitVec.getLsbD_not, hbit, decide_eq_true q.isLt]
    split <;> simp only [*, decide_true, decide_false, Bool.not_true, Bool.not_false, Bool.and_false, Bool.and_true]
  · rw [if_pos rfl, BitVec.getLsbD_or, hbit]
    split <;> simp only [*, decide_true, decide_false, Bool.or_true, Bool.or_false]

/-! ## A frame arrives (R428, R432) -/

/-- A port without link receives nothing. -/
theorem exec_ethRxFrame_of_down {s : State} {port : BitVec 4} (h : s.pkg.ethUp.toNat.testBit port.toNat = false) (addrs : BitVec 96)
    (rest fcs : Bytes) : exec (.ethRxFrame port addrs rest fcs) s = .next s := by
  show execEthRxFrame port addrs rest fcs s = _
  simp only [execEthRxFrame, h, Bool.not_false, if_true]

section
variable {s : State} {port : BitVec 4} {addrs : BitVec 96} {rest fcs : Bytes} (hup : s.pkg.ethUp.toNat.testBit port.toNat = true)
  (hmin : 60 ≤ (bytesLE 12 addrs.toNat ++ rest).length) (hmax : (bytesLE 12 addrs.toNat ++ rest).length ≤ 9212) (hfcs : fcs.length = 4)
include hup hmin hmax hfcs

/-- A frame of a length that ports support is checked, and then put into the ring of its priority. -/
theorem exec_ethRxFrame_of_length :
    exec (.ethRxFrame port addrs rest fcs) s = .next
      (if fcs ≠ frameFcs (bytesLE 12 addrs.toNat ++ rest) then
        s.setPort port.toNat { s.port port.toNat with fcs := (s.port port.toNat).fcs + 1 }
      else ((s.rxRing port.toNat (framePrio (bytesLE 12 addrs.toNat ++ rest))).map
        (fun n => s.rxPut port.toNat n (bytesLE 12 addrs.toNat ++ rest))).getD (s.dropFrame port.toNat)) := by
  show execEthRxFrame port addrs rest fcs s = _
  have hlen : ¬((decide ((bytesLE 12 addrs.toNat ++ rest).length + fcs.length < 64) ||
      decide (9216 < (bytesLE 12 addrs.toNat ++ rest).length + fcs.length)) = true) := by
    simp only [Bool.or_eq_true, decide_eq_true_eq]
    omega
  simp only [execEthRxFrame, hup, Bool.not_true, Bool.false_eq_true, if_false, if_neg hlen]
  cases s.rxRing port.toNat (framePrio (bytesLE 12 addrs.toNat ++ rest)) <;> rfl

end

section
variable {s : State} {pt n : Nat} {frame : Bytes}

theorem State.rxPut_of_busy (h : (s.ring n).rx.isSome) : s.rxPut pt n frame = s := if_pos h

variable (hx : (s.ring n).rx = none)
include hx

theorem State.rxPut_of_empty (hr : (s.ring n).ready = 0) : s.rxPut pt n frame = s.dropFrame pt := by
  simp only [State.rxPut, hx, hr, Option.isSome_none, Bool.false_eq_true, if_true, if_false]

variable {bs : Bytes} {t : State} (hr : (s.ring n).ready ≠ 0) (hd : s.readDesc n (s.ring n).head.toNat = .ok bs)
  (hl : frame.length ≤ natLE ((bs.drop 8).take 4))
  (hp : s.unitPut unitRight (s.ringAuth (s.ring n)) (natLE (bs.take 7)) frame true [] (whoRingW n) = (t, none))
include hr hd hl hp

/-- A frame whose bytes have been written waits for other peers, or its descriptor is written back. -/
theorem State.rxPut_of_written :
    s.rxPut pt n frame =
      let y : RxBusy := ⟨frame.length, framePrio frame, natLE ((bs.drop 16).take 1), false⟩
      if t.farOpen (whoRingW n) then t.setRing n { s.ring n with rx := some y } else t.rxBack s n y := by
  simp only [State.rxPut, hx, hr, hd, hp, Nat.not_lt.2 hl, Option.isSome_none, Bool.false_eq_true, if_false]

end

/-- A descriptor that has been written back waits for other peers, or the frame is done. -/
theorem State.rxBack_of_written {t old u : State} {n : Nat} {y : RxBusy}
    (h : t.unitPut unitRight (t.ringAuth (t.ring n)) ((t.ring n).descVa (t.ring n).head.toNat + 12) y.bytes true [] (whoRingW n) =
      (u, none)) :
    t.rxBack old n y = if u.farOpen (whoRingW n) then u.setRing n { u.ring n with rx := some { y with back := true } } else u.rxDone n := by
  simp only [State.rxBack, h, State.rxSent]

/-- A home that refuses a write of a ring stops it. -/
theorem State.ringAnswers_of_refused {s : State} {n : Nat} (ho : s.farOpen (whoRingW n) = false)
    (hr : s.farRefused (whoRingW n) = true) (he : (s.ring n).en = true) :
    s.ringAnswers n = (s.dropGot (whoRingW n)).ringStop n (s.ring n).head.toNat (if 4 ≤ n % 8 then 16 else 12) 0 := by
  simp only [State.ringAnswers, ho, hr, he, Bool.and_self, Bool.false_eq_true, if_true, if_false]

/-! ## Frames that are sent (R431) -/

/-- A port without link sends nothing. -/
theorem exec_ethTxFrame_of_down {s : State} {port : BitVec 4} (h : s.pkg.ethUp.toNat.testBit port.toNat = false) :
    exec (.ethTxFrame port) s = .next s := by
  show execEthTxFrame port s = _
  simp only [execEthTxFrame, h, Bool.not_false, if_true]

/-- The rings that a port may send from, in their order of this turn. -/
def State.txOrder (s : State) (port : Nat) : List Nat := (List.range 4).map (fun i => 8 * port + ((s.port port).rr.toNat + i) % 4)

/-- A ring has a frame that it can take. -/
def State.txReady (s : State) (n : Nat) : Bool :=
  (s.ring n).en && !(s.ring n).stop && decide (((s.txBusy n).map TxBusy.n).foldl (· + ·) 0 < (s.ring n).ready) && decide (s.txTake n ≠ s)

/-- Else the first ring in turn that can send takes a frame. -/
theorem exec_ethTxFrame_of_find {s : State} {port : BitVec 4} {n : Nat} (hup : s.pkg.ethUp.toNat.testBit port.toNat = true)
    (h : (s.txOrder port.toNat).find? s.txReady = some n) : exec (.ethTxFrame port) s = .next (s.txTake n) := by
  show execEthTxFrame port s = _
  unfold State.txOrder State.txReady at h
  simp only [execEthTxFrame, hup, h, Bool.not_true, Bool.false_eq_true, if_false]

theorem exec_ethTxComplete_of_nil {s : State} {ring : BitVec 7} (h : s.txBusy ring.toNat = []) :
    exec (.ethTxComplete ring) s = .next s := by
  show execEthTxComplete ring s = _
  simp only [execEthTxComplete, h]

/-- The frame sent first leaves, its descriptors are marked, and HEAD passes them. -/
theorem exec_ethTxComplete_of_marked {s t : State} {ring : BitVec 7} {x : TxBusy} {l : List TxBusy} (h : s.txBusy ring.toNat = x :: l)
    (hm : ((s.setTx ring.toNat l).frameLeaves (ring.toNat / 8) x).markDescs ring.toNat x.first x.n 12 (2 + if x.err then 4 else 0) =
      (t, none)) :
    exec (.ethTxComplete ring) s = .next
      (let q := t.ring ring.toNat
       let u := (t.setRing ring.toNat (q.pass x.n)).dropGot (whoRing ring.toNat)
       (if q.gv then u.addGauge ⟨true, q.ga⟩ x.n else u).ringRests ring.toNat) := by
  show execEthTxComplete ring s = _
  simp only [execEthTxComplete, h, hm]

/-- A frame with bytes to send is put on the wire and counted. -/
theorem State.frameLeaves_of_sent {s : State} {p : Nat} {x : TxBusy} {bs : Bytes} (h : x.sent = some bs) :
    (s.frameLeaves p x).pkg.wire = s.pkg.wire ++ [(p, bs)] ∧ ((s.frameLeaves p x).port p).txf = (s.port p).txf + 1 := by
  simp only [State.frameLeaves, h, State.setPkg_pkg]
  exact ⟨rfl, congrArg EthPort.txf (Map.get_set_same portEmpty _ s.pkg.ports p)⟩

/-- Settles O50: doorbells by TAIL, frames by their FCS, their ring and its descriptors, what is sent by the turn of its ring. -/
theorem ethernetEvents : Obligations.EthernetEvents := by
  intro s w v port prio b addrs rest fcs ring
  refine ⟨exec_ethdbWrite_of_notOwner, fun hw he ha => ?_, fun hw hn => ?_, rfl, ⟨_, rfl, fun q => ?_, rfl⟩,
    fun hd => ⟨exec_ethRxFrame_of_down hd addrs rest fcs, exec_ethTxFrame_of_down hd⟩, fun hup hmin hmax hfcs => ?_,
    fun hup q => exec_ethTxFrame_of_find hup, exec_ethTxComplete_of_nil, fun x l t => exec_ethTxComplete_of_marked,
    fun x bs => State.frameLeaves_of_sent⟩
  · exact (exec_ethdbWrite_of_owner hw).trans (congrArg _ (State.doorbell_of_ahead he ha))
  · exact (exec_ethdbWrite_of_owner hw).trans (congrArg _ (State.doorbell_of_notAhead hn))
  · exact getLsbD_setBit s.pkg.ethUp b port.toFin q
  · rw [exec_ethRxFrame_of_length hup hmin hmax hfcs]
    refine ⟨fun h => by rw [if_pos h], fun h => ?_⟩
    rw [if_neg (not_not_intro h)]
    refine ⟨fun hn => by rw [hn]; rfl, fun q hq hb => ?_, fun q hq hx hr => ?_, fun q bs t u hq hx hr hd hl hp => ?_,
      fun q => State.ringAnswers_of_refused, fun q => rfl⟩
    · rw [hq, Option.map_some, Option.getD_some, State.rxPut_of_busy hb]
    · rw [hq, Option.map_some, Option.getD_some, State.rxPut_of_empty hx hr]
      rfl
    · rw [hq, Option.map_some, Option.getD_some, State.rxPut_of_written hx hr hd hl hp]
      refine ⟨fun hf => by rw [hf]; rfl, fun hf hu => ?_⟩
      rw [hf]
      exact congrArg _ (State.rxBack_of_written hu)

end Sys2Proof.Machine
end

section
/-! Collectives and `vnsend`s (20 R465, R467, R473, R475, R477): the head of the VC queue, the chunks, the end and the time-out of a
collective, the planes of a `vnsend`, and what has waited too long for an entry. -/
namespace Sys2Proof.Machine

/-! ## COLLECTIVE_START (R465) -/

theorem exec_collectiveStart_of_none {s : State} (h : s.core.headOp .vc = none) : exec .collectiveStart s = .next s := by
  show execCollectiveStart s = _
  rw [execCollectiveStart, h]

/-- The head of the queue is taken where it is a `coll` and the core is not frozen. -/
theorem exec_collectiveStart_of_headOp {s : State} {o : Op} (h : s.core.headOp .vc = some o) :
    exec .collectiveStart s = .next (if o.word.toNat / 256 = 0x70 ∧ s.core.halt ≠ .freeze then s.takeColl o else s) := by
  show execCollectiveStart s = _
  simp only [execCollectiveStart, h, Bool.and_eq_true, decide_eq_true_eq, bne_iff_ne]

/-! ## COLLECTIVE_CHUNK_READ (R467) -/

/-- A collective that sends keeps its identifier and the count of the chunks that it has read. -/
def Coll.SameRead (x y : Coll) : Prop := y.read = x.read ∧ y.id = x.id

theorem State.collSend_sameRead (s : State) (x : Coll) (r at_ : Nat) (bs : Bytes) (bad : List Bool) :
    x.SameRead (s.collSend x r at_ bs bad).2 := by
  simp only [State.collSend]
  split
  · split <;> exact ⟨rfl, rfl⟩
  · exact ⟨rfl, rfl⟩

theorem State.foldl_collSend_sameRead (at_ : Nat) (bs : Bytes) (bad : List Bool) (ranks : List Nat) (q : State × Coll) :
    q.2.SameRead (ranks.foldl (fun (q : State × Coll) r => q.1.collSend q.2 r at_ bs bad) q).2 :=
  List.foldlRecOn ranks _ (motive := fun p : State × Coll => q.2.SameRead p.2) ⟨rfl, rfl⟩ fun p ⟨hr, hi⟩ r _ =>
    have ⟨hr', hi'⟩ := p.1.collSend_sameRead p.2 r at_ bs bad
    ⟨hr'.trans hr, hi'.trans hi⟩

/-- The pieces of a chunk go out one after another. -/
theorem State.collPieces_sameRead (x₀ : Coll) (fuel : Nat) (s : State) (x : Coll) (off : Nat) (bs : Bytes) (bad : List Bool) :
    x.SameRead (State.collPieces x₀ fuel s x off bs bad).2 := by
  induction fuel generalizing s x off bs bad with
  | zero => exact ⟨rfl, rfl⟩
  | succ fuel ih =>
    rw [State.collPieces]
    split
    · exact ⟨rfl, rfl⟩
    · obtain ⟨hr, hi⟩ := State.foldl_collSend_sameRead (x₀.route off).2.1 (bs.take (min 224 (x₀.route off).2.2))
        (bad.take (min 224 (x₀.route off).2.2)) (x₀.route off).1 (s, x)
      obtain ⟨hr', hi'⟩ := ih _ _ _ _ _
      exact ⟨hr'.trans hr, hi'.trans hi⟩

theorem exec_collectiveChunkRead_of_none {s : State} {id : Nat} (h : s.collById id = none) :
    exec (.collectiveChunkRead id) s = .next s := by
  show execCollectiveChunkRead id s = _
  rw [execCollectiveChunkRead, h]

/-- The bytes of the chunk whose turn it is, as the collective reads them. -/
def State.collChunk (s : State) (x : Coll) : Chk (Bytes × List Bool) :=
  s.unitRead (bufRight x.src x.hs) x.op.auth (bufBase x.src x.hs + x.cutAt x.read) (x.cutAt (x.read + 1) - x.cutAt x.read) (whoOp x.op)

/-- The collective with that chunk counted as read, and its pieces sent. -/
def State.sentChunk (s : State) (x : Coll) (bs : Bytes) (bad : List Bool) : State × Coll :=
  State.collPieces x (x.cutAt (x.read + 1) - x.cutAt x.read + 1) (s.dropGot (whoOp x.op)) { x with read := x.read + 1, last := s.cyc }
    (x.cutAt x.read) bs bad

section
variable {s : State} {id : Nat} {x : Coll} (h : s.collById id = some x)
include h

theorem exec_collectiveChunkRead_of_held (hm : s.collMayRead x = false) : exec (.collectiveChunkRead id) s = .next s := by
  show execCollectiveChunkRead id s = _
  simp only [execCollectiveChunkRead, h, hm, Bool.not_false, if_true]

variable (hm : s.collMayRead x = true)
include hm

theorem exec_collectiveChunkRead_of_trap {t : Trap} (hr : s.collChunk x = .error (.trap t)) :
    exec (.collectiveChunkRead id) s = .next ((s.dropGot (whoOp x.op)).collFault x 6 (some t)) := by
  show execCollectiveChunkRead id s = _
  rw [State.collChunk] at hr
  simp only [execCollectiveChunkRead, h, hm, hr, Bool.not_true, Bool.false_eq_true, if_false]

theorem exec_collectiveChunkRead_of_wait (hr : s.collChunk x = .error .wait) : exec (.collectiveChunkRead id) s = .next s := by
  show execCollectiveChunkRead id s = _
  rw [State.collChunk] at hr
  simp only [execCollectiveChunkRead, h, hm, hr, Bool.not_true, Bool.false_eq_true, if_false]
  rfl

/-- A chunk that can be read is counted and sent in pieces, and the collective goes on. -/
theorem exec_collectiveChunkRead_of_ok {bs : Bytes} {bad : List Bool} (hr : s.collChunk x = .ok (bs, bad)) :
    ∃ (t : State) (y : Coll), exec (.collectiveChunkRead id) s = .next (t.collAdvance y) ∧ y.read = x.read + 1 ∧ y.id = x.id := by
  refine ⟨(s.sentChunk x bs bad).1, (s.sentChunk x bs bad).2, ?_, State.collPieces_sameRead ..⟩
  show execCollectiveChunkRead id s = _
  rw [State.collChunk] at hr
  simp only [execCollectiveChunkRead, h, hm, hr, Bool.not_true, Bool.false_eq_true, if_false]
  rfl

end

/-! ## COLLECTIVE_COMPLETE and COLLECTIVE_TIMEOUT (R473) -/

theorem State.collAnswers_of_nil {s : State} {id : Nat} (h : s.fab.got.filter (fun g => g.who == whoColl id) = []) :
    s.collAnswers id = s := by
  simp only [State.collAnswers, h, List.isEmpty_nil, if_true]

section
variable {s : State} {id : Nat}

theorem exec_collectiveComplete_of_none (h : ((s.collAnswers id).collGoesOn id).collById id = none) :
    exec (.collectiveComplete id) s = .next ((s.collAnswers id).collGoesOn id) := by
  show execCollectiveComplete id s = _
  simp only [execCollectiveComplete, h]

theorem exec_collectiveComplete_of_some {x : Coll} (h : ((s.collAnswers id).collGoesOn id).collById id = some x) :
    let t := (s.collAnswers id).collGoesOn id
    exec (.collectiveComplete id) s =
      .next (if t.collDone x then (t.dropColl id).addField x.op.core (pbDone x.blk) 1 else t) := by
  show execCollectiveComplete id s = _
  simp only [execCollectiveComplete, h]

theorem exec_collectiveTimeout_of_none (h : s.collById id = none) : exec (.collectiveTimeout id) s = .next s := by
  show execCollectiveTimeout id s = _
  rw [execCollectiveTimeout, h]

theorem exec_collectiveTimeout_of_some {x : Coll} (h : s.collById id = some x) :
    exec (.collectiveTimeout id) s =
      .next (if (x.read = x.chunks ∧ s.collDone x = false) ∧ x.last + 2 ^ 28 ≤ s.cyc then s.collFault x 5 else s) := by
  show execCollectiveTimeout id s = _
  simp only [execCollectiveTimeout, h, Bool.and_eq_true, decide_eq_true_eq, Bool.not_eq_true']

end

/-- A collective by the head of its queue, the chunk that it may read, and what is still to come. -/
theorem collectiveEvents : Claims.CollectiveEvents := by
  intro s id
  refine ⟨exec_collectiveStart_of_none, fun o ho => ?_, State.collAnswers_of_nil,
    fun h => ⟨exec_collectiveChunkRead_of_none h, exec_collectiveTimeout_of_none h⟩,
    ⟨exec_collectiveComplete_of_none, fun y hy => exec_collectiveComplete_of_some hy⟩, fun x hx => ?_⟩
  · rw [exec_collectiveStart_of_headOp ho]
    refine ⟨fun hw hf => by rw [if_pos ⟨hw, hf⟩], fun hn => ?_⟩
    rw [if_neg fun ⟨hw, hf⟩ => hn.elim (fun h => h hw) hf]
  · refine ⟨exec_collectiveChunkRead_of_held hx, fun hm => ⟨fun t => exec_collectiveChunkRead_of_trap hx hm,
      exec_collectiveChunkRead_of_wait hx hm, fun bs bad => exec_collectiveChunkRead_of_ok hx hm⟩, fun hr hd hc => ?_, fun hc => ?_⟩
    · rw [exec_collectiveTimeout_of_some hx, if_pos ⟨⟨hr, hd⟩, hc⟩]
    · rw [exec_collectiveTimeout_of_some hx, if_neg fun ⟨_, h⟩ => Nat.not_le.2 hc h]

/-! ## VENEER_PLANE_SEND (R475) -/

/-- A tile goes once it has started, or where no tile that has not started comes before it. -/
theorem VnSend.mayGo_iff (x : VnSend) (t : VnTile) : x.mayGo t = true ↔ t.next ≠ 0 ∨ ∀ y ∈ x.tiles, y.next ≠ 0 ∨ t.t ≤ y.t := by
  simp only [VnSend.mayGo, Bool.or_eq_true, bne_iff_ne, List.all_eq_true, decide_eq_true_eq]

theorem exec_veneerPlaneSend_of_none {s : State} {id : Nat} (h : s.fab.sends.find? (fun x => x.id == id) = none) :
    exec (.veneerPlaneSend id) s = .next s := by
  show execVeneerPlaneSend id s = _
  rw [execVeneerPlaneSend, h]

/-- The tiles that can send their next plane. -/
def State.readyTiles (s : State) (x : VnSend) : List VnTile := x.tiles.filter (fun t => !(s.planeTo t).isEmpty && x.mayGo t)

section
variable {s : State} {id : Nat} {x : VnSend} (h : s.fab.sends.find? (fun x => x.id == id) = some x)
include h

/-- With no tile that is ready, a `vnsend` of its own reads the next tile that it has. -/
theorem exec_veneerPlaneSend_of_idle (hr : s.readyTiles x = []) :
    exec (.veneerPlaneSend id) s = .next (if x.coll = none ∧ x.read < x.n then s.readTile x else s) := by
  show execVeneerPlaneSend id s = _
  rw [State.readyTiles] at hr
  simp only [execVeneerPlaneSend, h, hr, List.getElem?_nil, Bool.and_eq_true, Option.isNone_iff_eq_none, decide_eq_true_eq]

/-- With a tile that is ready, one of the turns that there are is taken. -/
theorem exec_veneerPlaneSend_of_ready (hr : s.readyTiles x ≠ []) :
    ∃ u, exec (.veneerPlaneSend id) s = .next u ∧
      ((∃ t ∈ s.readyTiles x, u = s.sendPlane x t) ∨ ((x.coll = none ∧ x.read < x.n) ∧ u = s.readTile x)) := by
  refine ⟨_, rfl, ?_⟩
  simp only [h]
  rw [← State.readyTiles]
  have hturn (more : Bool) := Nat.mod_lt (s.freeIdx (2 ^ 21 + 2)) (Nat.add_pos_left (List.length_pos_iff.2 hr) more.toNat)
  split
  · next t ht => exact .inl ⟨t, List.mem_of_getElem? ht, rfl⟩
  · next hn =>
    have hmore : (x.coll.isNone && decide (x.read < x.n)) = true := by
      by_contra hf
      rw [Bool.not_eq_true] at hf
      rw [List.getElem?_eq_none_iff, hf] at hn
      exact Nat.not_lt.2 hn (hturn false)
    rw [if_pos hmore]
    exact .inr ⟨by simpa using hmore, rfl⟩

end

/-! ## Waiting too long for an entry (R477) -/

theorem exec_veneerFirstPlaneTimeout_of_none {s : State} {p : Packet} (h : s.fab.held.find? (fun e => e.pk == p) = none) :
    exec (.veneerFirstPlaneTimeout p) s = .next s := by
  show execVeneerFirstPlaneTimeout p s = _
  rw [execVeneerFirstPlaneTimeout, h]

/-- A first plane is refused when it has waited for 2^22 cycles and there is no room yet. -/
theorem exec_veneerFirstPlaneTimeout_of_some {s : State} {p : Packet} {e : Held} (h : s.fab.held.find? (fun e => e.pk == p) = some e) :
    exec (.veneerFirstPlaneTimeout p) s = .next
      (if (((p.op = 0x13 ∧ p.sub = 0) ∧ e.at_ + 2 ^ 22 ≤ s.cyc) ∧ s.pkAge p ≠ .newer) ∧ s.vnRoom = none then
        ((s.setFab { s.fab with held := s.fab.held.filter (fun x => x != e), vconf := s.fab.vconf + 1 }).vnCancel p 0).tileRefused p
      else s) := by
  show execVeneerFirstPlaneTimeout p s = _
  simp only [execVeneerFirstPlaneTimeout, h, Bool.and_eq_true, decide_eq_true_eq, bne_iff_ne, Option.isNone_iff_eq_none]

theorem exec_veneerEntryWaitDrop_of_none {s : State} (h : s.core.vcWait = none) : exec .veneerEntryWaitDrop s = .next s := by
  show execVeneerEntryWaitDrop s = _
  rw [execVeneerEntryWaitDrop, h]

section
variable {s : State} {t : Nat} {o : Op} (hw : s.core.vcWait = some t) (ho : s.core.headOp .vc = some o)
include hw ho

/-- A tile word goes on waiting for its 2^20 cycles, or takes the room that there is. -/
theorem exec_veneerEntryWaitDrop_of_waits (h : s.cyc < t + 2 ^ 20 ∨ s.vnRoom.isSome) : exec .veneerEntryWaitDrop s = .next s := by
  show execVeneerEntryWaitDrop s = _
  simp only [execVeneerEntryWaitDrop, hw, ho, Bool.or_eq_true, decide_eq_true_eq, if_pos h]

theorem exec_veneerEntryWaitDrop_of_late (hc : t + 2 ^ 20 ≤ s.cyc) (hr : s.vnRoom = none) :
    exec .veneerEntryWaitDrop s = .next ((s.setCore { (s.core.takeOp o) with vcWait := none }).reportOp o.li o.pid
      ⟨.engineOperandFault, 3, (o.args.headD ⟨0, .plain⟩).v⟩) := by
  show execVeneerEntryWaitDrop s = _
  simp only [execVeneerEntryWaitDrop, hw, ho, hr, Nat.not_lt.2 hc, Option.isSome_none, decide_false, Bool.or_self, Bool.false_eq_true,
    if_false]
  rfl

end

/-- A `vnsend` by the turns that there are, a packet and a tile word by how long they have waited. -/
theorem veneerEvents : Claims.VeneerEvents := by
  intro s id p
  classical
  refine ⟨exec_veneerPlaneSend_of_none, fun x hx => ⟨x.mayGo_iff, fun hr hm => ?_, exec_veneerPlaneSend_of_ready hx, fun hr hm => ?_⟩,
    exec_veneerFirstPlaneTimeout_of_none, fun e he => ⟨fun ho hs hc ha hv => ?_, fun hn => ?_⟩, exec_veneerEntryWaitDrop_of_none,
    fun t o ht ho => ⟨exec_veneerEntryWaitDrop_of_waits ht ho, exec_veneerEntryWaitDrop_of_late ht ho⟩⟩
  · rw [exec_veneerPlaneSend_of_idle hx hr, if_pos hm]
  · rw [exec_veneerPlaneSend_of_idle hx hr, if_neg hm]
  · rw [exec_veneerFirstPlaneTimeout_of_some he, if_pos ⟨⟨⟨⟨ho, hs⟩, hc⟩, ha⟩, hv⟩]
  · rw [exec_veneerFirstPlaneTimeout_of_some he, if_neg]
    rintro ⟨⟨⟨-, hc⟩, -⟩, hv⟩
    rcases hn with hlt | hroom
    · exact Nat.not_le.2 hlt hc
    · rw [hv] at hroom
      exact absurd hroom (by decide)

/-- Settles O52: collectives by their chunks and packets, `vnsend`s by their tiles, waits by their cycles. -/
theorem collectivesAndVeneer : Obligations.CollectivesAndVeneer := ⟨collectiveEvents, veneerEvents⟩

end Sys2Proof.Machine
end
